-- ==== Sys2Proof/Word.lean ====
section
/-! DEFINITION. The word types of the TX-4128 register space and memories (00_scope.md, Notation), and
their plainest arithmetic: fields of a word, two's complement reading, sign and zero extension of Nat-held fields. -/

namespace Sys2Proof

/-- One byte of a memory. -/
abbrev Byte := BitVec 8

/-- One 32-bit register (00_scope.md, Notation). -/
abbrev Word := BitVec 32

/-- One 64-bit quantity: a register pair (R9), DEVTIME (R33), a scalar register of a core (R177). -/
abbrev Word64 := BitVec 64

/-- Bits [lo + w - 1 : lo] of a number. -/
def field (x lo w : Nat) : Nat := x / 2 ^ lo % 2 ^ w

/-- A number with bits [lo + w - 1 : lo] replaced by the low `w` bits of `v`. -/
def putField (x lo w v : Nat) : Nat :=
  x % 2 ^ lo + (v % 2 ^ w) * 2 ^ lo + x / 2 ^ (lo + w) * 2 ^ (lo + w)

/-- The two's complement reading of the low `w` bits of a number. -/
def signed (w x : Nat) : Int :=
  let y := x % 2 ^ w
  if y < 2 ^ (w - 1) then (y : Int) else (y : Int) - (2 ^ w : Nat)

/-- The `w`-bit two's complement code of an integer. -/
def unsigned (w : Nat) (x : Int) : Nat := (x % ((2 ^ w : Nat) : Int)).toNat

/-- Bit `i` of a number. -/
def bit (x i : Nat) : Bool := x / 2 ^ i % 2 == 1

/-- The least integer at or above a / b. -/
def ceilDiv (a b : Nat) : Nat := (a + b - 1) / b

/-- `x` cut off at `hi`. -/
def satAt (hi x : Nat) : Nat := if x ≤ hi then x else hi

/-- A number given by a truth value. -/
def ofBool (b : Bool) : Nat := if b then 1 else 0

end Sys2Proof
end

