-- ==== Sys2Proof/Syntax.lean ====
section
/-! DEFINITION. The commands: one constructor for every row of spec/opcode_table.json. An operand carries what comes from
outside the block (who acts, what is written, what arrived); everything else a step needs is in the state. Agents are the
thirteen of R448. -/

namespace Sys2Proof

/-- A core that executes FKL instructions: core `k` of compose group `g` (R170), or management core `k` (R29, R196). -/
inductive Core where
  | compose (g k : Nat)
  /-- A core of a compose group, in whose step the program-store word at byte `o` begins to show a parity error (R173). -/
  | composeBad (g k o : Nat)
  | mgmt (k : Nat)
  deriving DecidableEq, Repr

/-- Where a parameter block holds the syntax elements that give its picture's form, as word numbers, in the order of the H.265 tables:
pic_width_in_luma_samples, pic_height_in_luma_samples, chroma_format_idc, log2_min_luma_coding_block_size_minus3,
log2_diff_max_min_luma_coding_block_size, bit_depth_luma_minus8; and the number of its slice segments. PRESUMED, log entry 184. -/
structure PicForm where
  width : Nat
  height : Nat
  chroma : Nat
  minCb : Nat
  diffCb : Nat
  depth : Nat
  slices : Nat
  deriving DecidableEq, Repr

/-- The same for the conformance window: conf_win_left_offset, right, top and bottom. PRESUMED, log entry 184. -/
structure PicWindow where
  left : Nat
  right : Nat
  top : Nat
  bottom : Nat
  deriving DecidableEq, Repr

/-- A character as a serial port samples it: the three centre samples of each bit, the eight data bits and then the stop bit (R475). -/
structure LineChar where
  first : BitVec 9
  mid : BitVec 9
  last : BitVec 9
  deriving DecidableEq, Repr

/-- One command or event of the block. DEDUCED, log entry 17; DESIGN CHOICE, log entries 18, 100. -/
inductive Instr where
  /-- One access of 32 bits to the register space (R8, R460): by `agent`, a write of `value` with byte enables `be`, or a read. -/
  | registerWrite (agent : Nat) (write : Bool) (off be : Nat) (value : Word)
  | tickBoundary
  /-- Phase `phase` of the current tick starts. -/
  | phaseStart (phase : Nat)
  | frameLatch (head : Nat)
  | twilightEntry (head : Nat)
  /-- The next band of the head in latch order is latched. -/
  | bandLatch (head : Nat)
  /-- Early fetch of layer `layer` for the next band of the head. -/
  | earlyFetchStart (head layer : Nat)
  | bandStart (group : Nat)
  | bandComplete (group : Nat)
  /-- The deadline of the head's earliest band in flight. -/
  | bandDeadline (head : Nat)
  | bandPacketStart (head : Nat)
  /-- Writeback port `port` writes its next sent band; `accepted` says whether the data memory accepted it in time. -/
  | writebackBand (port : Nat) (accepted : Bool)
  | retimeEnd (head : Nat)
  | commit (agent : Nat) (value : Word)
  | commitValidationDone
  | structArm (agent : Nat) (value : Word)
  | structValidationDone
  | step (agent : Nat) (value : Word)
  | tphaseWrite (agent : Nat) (value : Word)
  /-- A PTP message arrived whole on a port: the bytes after the UDP header. -/
  | ptpMessage (port : Nat) (payload : List Byte)
  /-- A frame reference of the genlock input; `ok` = well-formed. -/
  | genlockFrameReference (ok : Bool)
  /-- Source 1 (PTP) or 2 (genlock) has supplied no valid measurement for its limit. -/
  | sourceLost (source : Nat)
  | holdoverEnd
  | delayReqSend (port : Nat)
  | ppsOut
  | ppsIn
  | shutsyncPulseBegin (n : Nat)
  | shutsyncPulseEnd (n : Nat)
  /-- A write to HTB[m].CFG, or to HTB[m].FRAC when `frac`. -/
  | htbCfgWrite (agent m : Nat) (frac : Bool) (value : Word)
  | syncinArm (agent : Nat) (value : Word)
  | syncinEdge
  /-- The compose MDLL, or the system MDLL when `system`, loses lock. -/
  | mdllUnlock (system : Bool)
  | refLost
  | htbUnlock (m : Nat)
  | restore (agent : Nat) (value : Word)
  | readbackArm (agent head : Nat) (value : Word)
  | readbackDone (head : Nat)
  | readbackCancel (agent head : Nat) (value : Word)
  | fenceSignal (agent n : Nat) (value : Word)
  | scalerBandStart (sector : Nat)
  | scalerBandDone (unit : Nat)
  | flattenDone (head : Nat)
  | flush (agent : Nat) (value : Word)
  | add (core : Core)
  | sub (core : Core)
  | and (core : Core)
  | or (core : Core)
  | xor (core : Core)
  | shl (core : Core)
  | shr (core : Core)
  | sra (core : Core)
  | mul (core : Core)
  | addi (core : Core)
  | movi (core : Core)
  | movhi (core : Core)
  | cmp (core : Core)
  | cmpi (core : Core)
  | plog (core : Core)
  | lds (core : Core)
  | sts (core : Core)
  | sread (core : Core)
  | vld (core : Core)
  | vst (core : Core)
  | vmov (core : Core)
  | vclr (core : Core)
  | vsplat (core : Core)
  /-- `ready`: the data is already in the fetch path's buffers; `parity`: the word read shows a parity error (R173). -/
  | fetch (core : Core) (ready parity : Bool)
  /-- The awaited data arrives after `cycles` cycles beyond the FETCH's listed ones. -/
  | fetchDataReady (core : Core) (cycles : Nat)
  | swi (core : Core)
  /-- `ready`: the data the WAIT names is already present. -/
  | wait (core : Core) (ready : Bool)
  /-- The condition of the core's WAIT is met after `cycles` cycles beyond its charge. -/
  | waitConditionMet (core : Core) (cycles : Nat)
  | key (core : Core) (parity : Bool)
  | blend (core : Core)
  | lut (core : Core) (parity : Bool)
  | mat (core : Core) (parity : Bool)
  | bst (core : Core)
  /-- A BST that waited for the store line waited `cycles` cycles beyond its listed ones. -/
  | headStageReleaseDone (group cycles : Nat)
  | br (core : Core)
  | loop (core : Core)
  | endBand (core : Core)
  | jal (core : Core)
  | jr (core : Core)
  | ld (core : Core)
  /-- The data of a waiting LD returns; `poison` marks poisoned data (cause 4). -/
  | ldDataReturn (core : Core) (poison : Bool)
  | st (core : Core)
  | csrr (core : Core)
  | csrw (core : Core)
  | eret (core : Core)
  | wfi (core : Core)
  | fence (core : Core)
  | ecall (core : Core)
  | interruptException (core : Core)
  /-- A UDP datagram over IPv4 that has passed ingest: its port, IPv4 source, destination port and UDP payload. -/
  | poseDatagram (port srcIp dport : Nat) (payload : List Byte)
  /-- A serial port receives the characters of `sampled`, then those of `bytes`, whose samples agree; the stop bit of the last of these is
  low with `stopLow`. -/
  | serialPoseFrame (port : Nat) (sampled : List LineChar) (bytes : List Byte) (stopLow : Bool)
  | serialCharTimeout (port : Nat)
  | serialPoll (port : Nat)
  | poseSourceEnable (agent source : Nat) (value : Word)
  | bltDescriptorStart
  | bltCopy
  | bltFill
  | bltConvert
  | bltBlend
  | bltRowComplete
  | bltDescriptorComplete
  | bltResume (agent : Nat) (value : Word)
  | bltSkip (agent : Nat) (value : Word)
  | bltReset (agent : Nat) (value : Word)
  /-- A read of `granules` granules from requester port `req` at local address `addr` arrives at its channel. -/
  | dramReadRequest (req addr granules : Nat)
  | dramWriteRequest (req addr : Nat) (data : List Byte)
  /-- A command opportunity of channel `ch`; `ce` names the 8-byte words of the granule served that show a single-bit error; real-time
  port `port` has taken `taken` granules from its read-ahead buffer since the last opportunity. -/
  | dramSchedule (ch : Nat) (ce : List Nat) (port taken : Nat)
  /-- An uncorrectable error of cause `cause` at channel `ch` (none: the command path), requester `req`, address `addr`. -/
  | dmcFreeze (cause : Nat) (ch : Option Nat) (req cmd addr : Nat)
  | refreshDue (ch : Nat)
  | rhWindowEnd (ch : Nat)
  /-- Channel `ch` reads MR4: `hot` when doubled refresh is required. -/
  | mr4Read (ch : Nat) (hot : Bool)
  | selfRefreshEntry (ch : Nat)
  | traincapStart (agent : Nat) (value : Word)
  | traincapDone
  | freqRequest (agent : Nat) (value : Word)
  | freqCaptureHoldExpiry
  | freqChange
  | freqDone
  | freqCancel (agent : Nat) (value : Word)
  /-- The link is in L0 or not, at a width and rate code. -/
  | linkState (l0 : Bool) (width rate : Nat)
  /-- The oldest outstanding request under tag `tag` did not complete in time. -/
  | cxlCompletionTimeout (tag : Nat)
  /-- The CXL.cache read `tag` completes: kind 0 data, 1 poison, 2 error. -/
  | cxlReadCompletion (tag kind : Nat) (data : List Byte)
  | hostSnoop (addr : Nat)
  | hostMemRead (hpa len : Nat)
  | hostMemWrite (hpa : Nat) (data : List Byte)
  | msixUnmask (func entry : Nat)
  | dmaDescriptorStart (ch : Nat)
  | dmaCopy (ch : Nat)
  | dmaFill (ch : Nat)
  | dmaNop (ch : Nat)
  /-- A DMA read of channel `ch` returns its granule; `status` 0 is data, otherwise the CAUSE of DMA.ERR. -/
  | dmaReadCompletion (ch status : Nat) (data : List Byte)
  | dmaDescriptorComplete (ch : Nat)
  | dmaHalted (ch cause : Nat) (write : Bool) (addr : Nat)
  | dmaResume (agent ch : Nat) (value : Word)
  | dmaSkip (agent ch : Nat) (value : Word)
  | dmaReset (agent : Nat) (value : Word)
  | dmaResetDone
  | netModeWrite (agent : Nat) (value : Word)
  | portLinkChange (port : Nat) (up fec trained : Bool)
  /-- A whole Ethernet frame (no FCS) arrived; `fcsOk` says that R300's checks passed. -/
  | ethFrameReceive (port : Nat) (frame : List Byte) (fcsOk : Bool)
  | videoFrameTimeout (flow : Nat)
  | flowEnable (agent flow : Nat) (value : Word)
  | flowDisable (agent flow : Nat) (value : Word)
  | egressFrameStart (port : Nat)
  | egressFrameEnd (port : Nat)
  | shaperRateWrite (agent n : Nat) (value : Word)
  | clrdebt (agent n : Nat) (value : Word)
  | txsSend (ctx : Nat)
  | cdcContextEnable (agent ctx : Nat) (value : Word)
  | cdcContextDisable (agent ctx : Nat) (value : Word)
  | cdcPipePick (pipe : Nat)
  /-- The decode in progress on a pipe ends its picture. What H.265 finds in it: an error (0 none, 3 a stream outside R335 by other than its
  form, 5 R353), the CTBs that no slice segment decodes, where the parameter block holds its form and window, and the reference list
  entries used (0 to 7 of list 0, 8 to 15 of list 1). -/
  | cdcDecode (pipe err : Nat) (copied : List Nat) (form : PicForm) (window : PicWindow) (used : List Nat)
  /-- The encode in progress on a pipe ends its picture: for each CTB the bits that it takes coded normally at QP 51 or below and in floor
  form, and for each row its overhead (R352). -/
  | cdcEncode (pipe : Nat) (ctbs : List (Nat × Nat)) (rows : List Nat)
  | cdcCommandComplete (pipe : Nat)
  | cdcResume (agent ctx : Nat) (value : Word)
  | cdcSkip (agent ctx : Nat) (value : Word)
  /-- Return link messages of lane `lane`: the control word's bytes. -/
  | statusPoll (lane : Nat) (msg : List Byte)
  | pollAnswer (lane : Nat)
  | credit (lane : Nat) (msg : List Byte)
  | status (lane : Nat) (msg : List Byte)
  | laneRxLockChange (lane : Nat) (locked : Bool)
  | laneEnable (agent lane : Nat) (value : Word)
  | laneDisable (agent lane : Nat) (value : Word)
  | laneTrainingDone (lane : Nat)
  | standbyWrite (agent : Nat) (value : Word)
  | doorbell (agent : Nat) (value : Word)
  | claim (agent target : Nat)
  | complete (agent target : Nat) (value : Word)
  | pendingWrite (agent w : Nat) (value : Word)
  | domainRequest (agent w : Nat) (value : Word)
  | domainChange
  | midnightEnter (agent : Nat) (value : Word)
  | midnightEntryDone
  | midnightWake (agent : Nat) (value : Word)
  | wakeTime
  | gpioWake (pin : Nat)
  | wakeRestore
  | wakeComplete
  /-- One microsecond of the energy bucket, with the power estimate in sixteenths of a watt. -/
  | energyBucketUpdate (w16 : Nat)
  /-- The sixteen sensor readings, signed, in units of 0.125 °C. -/
  | sensorSample (vals : List Int)
  | shedStep
  | duskexit (agent : Nat) (value : Word)
  | thermalTrip (sensor : Nat) (val : Int)
  /-- Mirror messages: the sequence number and what the item carries. -/
  | mirrorWrite (seq agent off : Nat) (value : Word)
  | mirrorCommit (seq agent : Nat) (struct : Bool) (word : Word) (written : Nat)
  | mirrorResult (seq : Nat) (commit : Option (Nat × Nat)) (code offend : Nat)
  | mirrorFence (seq n value stamp : Nat)
  | mirrorPoseRecord (seq source : Nat) (record : List Byte) (stamp : Nat)
  | mirrorTime (seq devtime : Nat)
  | mirrorFlatten (seq head : Nat) (done : Bool)
  | mirrorHeartbeat (seq tick band : Nat)
  | heartbeatSend
  | heartbeatMiss
  /-- A write of the low 32 bits of `value` to MIR.CTL, or, with agent 12, the request that the link brings, whose instant is `value`. -/
  | swap (agent : Nat) (value : Word64)
  | porst
  | resetPin
  | swreset (agent : Nat) (value : Word)
  | perst
  | resetRelease
  | bootHeaderRead (header : List Byte)
  | bootImageChecked (image : List Byte)
  | cxlConfigReady
  | xspiCommand (agent : Nat) (value : Word)
  | xspiDone (data : List Byte)
  | coreStart (agent : Nat) (value : Word)
  | finjLinkEnable (agent link : Nat) (value : Word)
  | finjHoldExpiry (link : Nat)
  | mirrorLaneLockChange (lane : Nat) (locked : Bool)
  | mirrorTimeSend
  | ppsOutFall
  | mdllLock
  /-- Clock `which` regains: 0 the 100 MHz reference, 1 the 400 MHz reference, 2 compose MDLL, 3 system MDLL, 4 and 5 synthesizers. -/
  | clockLockRegained (which : Nat)
  /-- The always-on rail is under 0.65 V (`low`), or has returned. -/
  | aonUndervoltage (low : Bool)
  deriving DecidableEq, Repr

end Sys2Proof
end

