-- ==== Sys2Proof/Decode.lean ====
section
/-! DEFINITION. Words of the opcode table. spec/opcode_table.json gives no row any bits: no word spells a command. -/

namespace Sys2Proof

/-- The command that a word of the opcode table's bits spells: the table gives no row any bits, so none. DEDUCED, log entry 16. -/
def decodeTableWord (_nbits _w : Nat) : Option Instr := none

end Sys2Proof
end

