-- ==== Sys2Proof/Machine/Num.lean ====
section
/-! DEFINITION. Exact arithmetic and its single roundings: fractions, binary16 (R142), binary32 (R108, R214), and the
CRC forms the part uses. Every value is exact until the one rounding that a rule names. -/

namespace Sys2Proof.Machine

/-- An exact fraction num ÷ den, den above 0 wherever the model builds one; not normalised. -/
structure Q where
  num : Int
  den : Nat
  deriving DecidableEq, Repr

namespace Q

def ofInt (x : Int) : Q := ⟨x, 1⟩
def ofNat (x : Nat) : Q := ⟨x, 1⟩
def mk' (n : Int) (d : Nat) : Q := ⟨n, d⟩
def add (a b : Q) : Q := ⟨a.num * b.den + b.num * a.den, a.den * b.den⟩
def neg (a : Q) : Q := ⟨-a.num, a.den⟩
def sub (a b : Q) : Q := a.add b.neg
def mul (a b : Q) : Q := ⟨a.num * b.num, a.den * b.den⟩
/-- a ÷ b for b ≠ 0. -/
def div (a b : Q) : Q :=
  if b.num < 0 then ⟨-(a.num * b.den), a.den * b.num.natAbs⟩ else ⟨a.num * b.den, a.den * b.num.natAbs⟩
def le (a b : Q) : Bool := a.num * b.den ≤ b.num * a.den
def lt (a b : Q) : Bool := a.num * b.den < b.num * a.den
def max (a b : Q) : Q := if a.le b then b else a
def min (a b : Q) : Q := if a.le b then a else b
def abs (a : Q) : Q := ⟨a.num.natAbs, a.den⟩
/-- The greatest integer at or below a. -/
def floor (a : Q) : Int := a.num / (a.den : Int)
/-- The least integer at or above a. -/
def ceil (a : Q) : Int := -((-a.num) / (a.den : Int))
/-- Nearest integer, ties up: floor(a + 1/2). -/
def roundUp (a : Q) : Int := (2 * a.num + a.den) / (2 * (a.den : Int))
/-- Nearest integer, ties to even. -/
def roundEven (a : Q) : Int :=
  let f := a.floor
  let r := 2 * (a.num - f * a.den)
  if r < a.den then f else if r > a.den then f + 1 else if f % 2 = 0 then f else f + 1
/-- a limited to [lo, hi]. -/
def clamp (lo hi a : Q) : Q := if a.le lo then lo else if hi.le a then hi else a

end Q

/-- A non-negative fraction n ÷ d rounded once, nearest-even, to `p` significant bits with least exponent `emin`:
the result is `m × 2 ^ e`. -/
def roundBits (p : Nat) (emin : Int) (n d : Nat) : Nat × Int :=
  if n = 0 then (0, emin) else
  let g : Int := (Nat.log2 n : Int) - (Nat.log2 d : Int)
  let isGe : Bool := if g ≥ 0 then d * 2 ^ g.toNat ≤ n else d ≤ n * 2 ^ (-g).toNat
  let e := if isGe then g else g - 1
  let q := Max.max (e - ((p : Int) - 1)) emin
  let nn := if q ≥ 0 then n else n * 2 ^ (-q).toNat
  let dd := if q ≥ 0 then d * 2 ^ q.toNat else d
  let f := nn / dd
  let r := 2 * (nn % dd)
  let f := if r < dd then f else if r > dd then f + 1 else if f % 2 = 0 then f else f + 1
  if f = 2 ^ p then (2 ^ (p - 1), q + 1) else (f, q)

/-- "Rounds once" (R142): binary16, nearest-even, magnitudes above 65,504 saturated, zero always +0. -/
def round16 (x : Q) : Nat :=
  let (m, e) := roundBits 11 (-24) x.num.natAbs x.den
  if m = 0 then 0 else
  let c := if m < 1024 then m else if e > 5 then 0x7BFF else (e + 25).toNat * 1024 + (m - 1024)
  if x.num < 0 then c + 0x8000 else c

/-- The value of a finite binary16 encoding; the encodings of NaN and the infinities are read as R142 reads a table entry:
0x7C00 as +65,536, 0xFC00 as −65,536, every NaN as +0. -/
def value16 (c : Nat) : Q :=
  let m : Nat := c % 1024
  let e : Nat := c / 1024 % 32
  let neg := c / 32768 % 2 == 1
  let v : Q :=
    if e = 31 then (if m = 0 then ⟨65536, 1⟩ else ⟨0, 1⟩)
    else if e = 0 then ⟨(m : Int), 2 ^ 24⟩
    else if e ≥ 25 then ⟨(((m + 1024) * 2 ^ (e - 25) : Nat) : Int), 1⟩
    else ⟨((m + 1024 : Nat) : Int), 2 ^ (25 - e)⟩
  if neg then v.neg else v

/-- A binary16 encoding is a NaN. -/
def isNan16 (c : Nat) : Bool := c / 1024 % 32 = 31 && c % 1024 ≠ 0

/-- A binary16 encoding is an infinity. -/
def isInf16 (c : Nat) : Bool := c / 1024 % 32 = 31 && c % 1024 = 0

/-- A binary32 value: NaN, a signed infinity, or ±m × 2 ^ e exactly. DEDUCED, log entry 71. -/
inductive Fp where
  | nan
  | inf (neg : Bool)
  | fin (neg : Bool) (m : Nat) (e : Int)
  deriving DecidableEq, Repr

namespace Fp

/-- The value of a binary32 code. -/
def ofCode (c : Nat) : Fp :=
  let m : Nat := c % 2 ^ 23
  let e : Nat := c / 2 ^ 23 % 256
  let s := c / 2 ^ 31 % 2 == 1
  if e = 255 then (if m = 0 then .inf s else .nan)
  else if e = 0 then .fin s m (-149)
  else .fin s (m + 2 ^ 23) ((e : Int) - 150)

/-- ±n ÷ d rounded once to binary32, nearest-even (R214). -/
def round (neg : Bool) (n d : Nat) : Fp :=
  let (m, e) := roundBits 24 (-149) n d
  if e + 23 > 127 ∧ m ≥ 2 ^ 23 then .inf neg else .fin neg m e

/-- A fraction rounded once to binary32; zero is +0. -/
def ofQ (x : Q) : Fp := round (x.num < 0) x.num.natAbs x.den

/-- The binary32 code of a value (the quiet NaN 0x7FC0_0000 for a NaN). -/
def toCode : Fp → Nat
  | .nan => 0x7FC00000
  | .inf s => ofBool s * 2 ^ 31 + 255 * 2 ^ 23
  | .fin s m e =>
    let (m', e') := roundBits 24 (-149) (if e ≥ 0 then m * 2 ^ e.toNat else m) (if e ≥ 0 then 1 else 2 ^ (-e).toNat)
    ofBool s * 2 ^ 31 + (if m' < 2 ^ 23 then m' else (e' + 150).toNat * 2 ^ 23 + (m' - 2 ^ 23))

/-- The exact fraction of a finite value (0 for the others). -/
def toQ : Fp → Q
  | .fin s m e =>
    let v : Q := if e ≥ 0 then ⟨((m * 2 ^ e.toNat : Nat) : Int), 1⟩ else ⟨(m : Int), 2 ^ (-e).toNat⟩
    if s then v.neg else v
  | _ => ⟨0, 1⟩

/-- The value of a binary16 code in binary32. -/
def ofHalf (c : Nat) : Fp :=
  let m : Nat := c % 1024
  let e : Nat := c / 1024 % 32
  let s := c / 32768 % 2 == 1
  if e = 31 then (if m = 0 then .inf s else .nan)
  else
    let n : Nat := if e = 0 then m else m + 1024
    let x := if e = 0 then 1 else e
    if 25 ≤ x then round s (n * 2 ^ (x - 25)) 1 else round s n (2 ^ (25 - x))

def isNan : Fp → Bool
  | .nan => true
  | _ => false

def isFinite : Fp → Bool
  | .fin _ _ _ => true
  | _ => false

def neg : Fp → Fp
  | .nan => .nan
  | .inf s => .inf (!s)
  | .fin s m e => .fin (!s) m e

def signOf : Fp → Bool
  | .nan => false
  | .inf s => s
  | .fin s _ _ => s

def isZero : Fp → Bool
  | .fin _ 0 _ => true
  | _ => false

def add (a b : Fp) : Fp :=
  match a, b with
  | .nan, _ => .nan
  | _, .nan => .nan
  | .inf s, .inf t => if s = t then .inf s else .nan
  | .inf s, _ => .inf s
  | _, .inf t => .inf t
  | x, y =>
    let q := x.toQ.add y.toQ
    if q.num = 0 then .fin (x.signOf && y.signOf) 0 (-149) else ofQ q

def sub (a b : Fp) : Fp := add a b.neg

def mul (a b : Fp) : Fp :=
  let s := a.signOf != b.signOf
  match a, b with
  | .nan, _ => .nan
  | _, .nan => .nan
  | .inf _, y => if y.isZero then .nan else .inf s
  | x, .inf _ => if x.isZero then .nan else .inf s
  | x, y =>
    let q := x.toQ.mul y.toQ
    round s q.num.natAbs q.den

def div (a b : Fp) : Fp :=
  let s := a.signOf != b.signOf
  match a, b with
  | .nan, _ => .nan
  | _, .nan => .nan
  | .inf _, .inf _ => .nan
  | .inf _, _ => .inf s
  | _, .inf _ => .fin s 0 (-149)
  | x, y =>
    if y.isZero then (if x.isZero then .nan else .inf s)
    else
      let q := x.toQ.abs.div y.toQ.abs
      round s q.num.natAbs q.den

/-- a < b; false when either is a NaN. -/
def lt (a b : Fp) : Bool :=
  match a, b with
  | .nan, _ => false
  | _, .nan => false
  | .inf s, .inf t => s && !t
  | .inf s, _ => s
  | _, .inf t => !t
  | x, y => x.toQ.lt y.toQ

def ofInt (x : Int) : Fp := ofQ ⟨x, 1⟩
def one : Fp := .fin false (2 ^ 23) (-23)
def two : Fp := .fin false (2 ^ 23) (-22)
def half : Fp := .fin false (2 ^ 23) (-24)
def zero : Fp := .fin false 0 (-149)

end Fp

/-- Bit reversal of the low `n` bits. -/
def reverseBits : Nat → Nat → Nat
  | 0, _ => 0
  | n + 1, x => (x % 2) * 2 ^ n + reverseBits n (x / 2)

/-- One byte into a reflected CRC register with (reflected) polynomial `poly`. -/
def crcByte (poly : Nat) (crc b : Nat) : Nat :=
  (List.range 8).foldl (fun c _ => if c % 2 = 1 then (c / 2) ^^^ poly else c / 2) (crc ^^^ b)

/-- A reflected CRC over bytes, initial value and final XOR all ones. -/
def crcReflected (w poly : Nat) (bs : List Nat) : Nat :=
  (bs.foldl (crcByte poly) (2 ^ w - 1)) ^^^ (2 ^ w - 1)

/-- CRC-64 of R99 (polynomial 0x42F0_E1EB_A9EA_3693, reflected form). -/
def crc64 (bs : List Nat) : Nat := crcReflected 64 0xC96C5795D7870F42 bs

/-- CRC-32C (polynomial 0x1EDC_6F41, reflected form), used on descriptors and the configuration image (R1). -/
def crc32c (bs : List Nat) : Nat := crcReflected 32 0x82F63B78 bs

/-- One byte into the CRC-16 register of R363 (polynomial 0x1021, not reflected). -/
def crc16Byte (crc b : Nat) : Nat :=
  (List.range 8).foldl (fun c _ => if c / 32768 % 2 = 1 then (2 * c % 65536) ^^^ 0x1021 else 2 * c % 65536) (crc ^^^ (b * 256))

/-- The CRC-16 of R363: initial value 0xFFFF, no final XOR. -/
def crc16 (bs : List Nat) : Nat := bs.foldl crc16Byte 0xFFFF

/-- `n` little-endian bytes of a number. -/
def bytesLE : Nat → Nat → List Nat
  | 0, _ => []
  | n + 1, x => x % 256 :: bytesLE n (x / 256)

/-- The number that little-endian bytes spell. -/
def ofBytesLE : List Nat → Nat
  | [] => 0
  | b :: bs => b % 256 + 256 * ofBytesLE bs

/-- The number that big-endian (network order) bytes spell. -/
def ofBytesBE (bs : List Nat) : Nat := bs.foldl (fun a b => 256 * a + b % 256) 0

/-- `n` big-endian (network order) bytes of a number. -/
def bytesBE (n x : Nat) : List Nat := (bytesLE n x).reverse

/-- Bytes with bit `n` (bit 0 of byte 0 first) inverted. -/
def flipBit (bs : List Nat) (n : Nat) : List Nat := bs.modify (n / 8) (· ^^^ 2 ^ (n % 8))

/-- Values of `w` bits each, least significant bit first, as bytes; the last byte is completed with zeros. -/
def packBits (w : Nat) (vs : List Nat) : List Nat :=
  bytesLE (ceilDiv (w * vs.length) 8) (vs.foldr (fun v a => v % 2 ^ w + 2 ^ w * a) 0)

end Sys2Proof.Machine
end

