-- ==== Sys2Proof/Config.lean ====
section
/-! DEFINITION. What the spec leaves open: free values, opaque functions with no body, applied to a counter that State holds
(`State.fresh`) or to an address. Nothing can be proved about what they answer. -/

namespace Sys2Proof.Config

/-- The bits of a register that are RSV: "the value read is undefined" (R8); applied to State's counter. -/
opaque freeWord : Nat → BitVec 32

/-- A free byte: data of a source the spec gives no contents for; applied to State's counter. -/
opaque freeByte : Nat → BitVec 8

/-- A free number: a quantity the spec measures or chooses but gives no rule for; applied to State's counter. -/
opaque freeNat : Nat → Nat

/-- Byte of a core's scratch at band start (R174: undefined); applied to State's counter and the byte's address. -/
opaque scratchByte : Nat → Nat → BitVec 8

/-- Byte of host or pooled memory that no completion has yet shown to the device; applied to its host physical address.
DESIGN CHOICE, log entry 76. -/
opaque hostByte : Nat → BitVec 8

/-- Byte of the board's flash as delivered; applied to its address. DESIGN CHOICE, log entry 118. -/
opaque flashByte : Nat → BitVec 8

/-- Byte of the boot ROM (R447); applied to its offset. DESIGN CHOICE, log entry 118. -/
opaque romByte : Nat → BitVec 8

/-- The vendor identifier of the device's functions, which the spec does not give. DESIGN CHOICE, log entry 153. -/
opaque vendorId : BitVec 16

/-- The picture that the H.265 standard makes of the words of a parameter block with the picture's POC, the data of its slice segments and
its reference pictures (R335: the standard is outside this spec): a number that stands for its samples and motion.
DESIGN CHOICE, log entry 100. -/
opaque decodedPicture : List Nat → List (List Nat) → List (List Nat) → Nat

/-- The picture that an encoder makes of its converted input with its reference pictures (R326: any conforming choice); applied to State's
counter, which stands for the choice. DESIGN CHOICE, log entry 100. -/
opaque encodedPicture : Nat → List (List Nat) → List (List Nat) → Nat

/-- A sample of a picture; applied to the picture's number and the sample's index. DESIGN CHOICE, log entry 100. -/
opaque decodedSample : Nat → Nat → BitVec 16

/-- A byte of an encoded access unit; applied to the picture's number and the byte's index. DESIGN CHOICE, log entry 100. -/
opaque encodedByte : Nat → Nat → BitVec 8

/-- A byte of a surface that holds a picture (R337: its samples at 16 bits and its motion data, in a layout that the spec does not give);
applied to the picture and the byte's offset. DESIGN CHOICE, log entry 100. -/
opaque surfaceByte : List Nat → Nat → BitVec 8

/-- The picture that a surface holds whose bytes the codec did not write; applied to the bytes. DESIGN CHOICE, log entry 100. -/
opaque storedPicture : List Nat → Nat

/-- QP of a CTB of an encoded picture, which R350 makes the pipe's own choice aimed at the target T; applied to State's counter, the CTB's
number and T. DESIGN CHOICE, log entry 154. -/
opaque codingQp : Nat → Nat → Int → Nat

/-- Motion vector that neighbour `k` (A0, A1, B0, B1, B2, the co-located block) offers a PU, in quarter samples: the outcome of mode decisions
that are the pipe's own; applied to State's counter, the PU's number and k. DESIGN CHOICE, log entry 154. -/
opaque neighbourMv : Nat → Nat → Nat → Int × Int

/-- Bits of the difference between a motion vector and its predictor (H.265's, outside this spec); applied to State's counter, the PU's
number and the vector. DESIGN CHOICE, log entry 154. -/
opaque mvdBits : Nat → Nat → Int → Int → Nat

/-- SATD of a PU at a fractional position (H.265's interpolation, and a transform the spec does not give); applied to State's counter, the
PU's number and the vector. DESIGN CHOICE, log entry 154. -/
opaque satd : Nat → Nat → Int → Int → Nat

/-- A byte of the device's identity on its networks (MAC and IP addresses, PTP clock identity), for which the spec gives no source:
applied to its index. DESIGN CHOICE, log entry 95. -/
opaque deviceByte : Nat → BitVec 8

end Sys2Proof.Config
end

