-- ==== Sys2Proof/Machine/Regs.lean ====
section
/-! DEFINITION. The register map: every register and field of the register tables of spec/ (00_scope.md to 18_register_map.md),
by its BAR0 byte offset, with its access type (R8) and reset value. -/

namespace Sys2Proof.Machine

/-- A field of a register: the register's BAR0 offset, its lowest bit and its width. -/
structure Fld where
  off : Nat
  lo : Nat
  width : Nat
  deriving DecidableEq, Repr

/-- One row of the register map: a register or an array of registers with up to three indices (count and stride each),
the bits of each access type of R8 (bits in none are RSV), and the reset value of each instance. -/
structure RegRow where
  base : Nat
  n1 : Nat
  s1 : Nat
  n2 : Nat
  s2 : Nat
  n3 : Nat
  s3 : Nat
  rw : Nat
  ro : Nat
  wo : Nat
  w1c : Nat
  w1s : Nat
  rws : Nat
  reset : Nat
  deriving DecidableEq, Repr

/-- The index of `d` in an array of `n` elements of `s` bytes, and what is left of `d` inside the element. -/
def RegRow.dim (n s d : Nat) : Option (Nat × Nat) :=
  if n ≤ 1 then some (0, d) else if d / s < n then some (d / s, d % s) else none

/-- The instance indices of the word at `off` when the row holds it. -/
def RegRow.index (r : RegRow) (off : Nat) : Option (Nat × Nat × Nat) :=
  if off < r.base then none else
  match RegRow.dim r.n1 r.s1 (off - r.base) with
  | none => none
  | some (i, d) =>
    match RegRow.dim r.n2 r.s2 d with
    | none => none
    | some (j, e) =>
      match RegRow.dim r.n3 r.s3 e with
      | none => none
      | some (k, z) => if z = 0 then some (i, j, k) else none

namespace Reg

/-- TOP.CAPS0 (00_scope.md). -/
def topCaps0 : Nat := 0x10
/-- TOP.CAPS1 (00_scope.md). -/
def topCaps1 : Nat := 0x14
/-- TOP.CAPS2 (00_scope.md). -/
def topCaps2 : Nat := 0x18
/-- TOP.CAPS3 (00_scope.md). -/
def topCaps3 : Nat := 0x1C
/-- TOP.ABSENT_ADDR (18_register_map.md). -/
def topAbsentAddr : Nat := 0x20
/-- TOP.BADACC (18_register_map.md). -/
def topBadacc : Nat := 0x24
/-- TOP.BADADDR (18_register_map.md). -/
def topBadaddr : Nat := 0x28
/-- TOP.SECLOAD[s] (01_architecture.md). -/
def topSecload (i : Nat) : Nat := 0x40 + 0x4 * i
/-- BOOT.STATUS (17_boot_protection_test.md). -/
def bootStatus : Nat := 0x10000
/-- BOOT.RSTCAUSE (17_boot_protection_test.md). -/
def bootRstcause : Nat := 0x10004
/-- BOOT.CTL (17_boot_protection_test.md). -/
def bootCtl : Nat := 0x10008
/-- BOOT.IMGLEN (prose rule of its chapter). -/
def bootImglen : Nat := 0x1000C
/-- BOOT.CHECK (prose rule of its chapter). -/
def bootCheck : Nat := 0x10010
/-- BOOT.ENTRY (prose rule of its chapter). -/
def bootEntry : Nat := 0x10014
/-- BOOT.EVENT (17_boot_protection_test.md). -/
def bootEvent : Nat := 0x10018
/-- BOOT.XCMD (17_boot_protection_test.md). -/
def bootXcmd : Nat := 0x10020
/-- BOOT.XADDR (prose rule of its chapter). -/
def bootXaddr : Nat := 0x10024
/-- BOOT.XBUF (prose rule of its chapter). -/
def bootXbuf (i : Nat) : Nat := 0x10040 + 0x4 * i
/-- BOOT.START (prose rule of its chapter). -/
def bootStart (i : Nat) : Nat := 0x10084 + 0x4 * i
/-- PROT.CTL (17_boot_protection_test.md). -/
def protCtl : Nat := 0x20000
/-- PROT.VIOL (17_boot_protection_test.md). -/
def protViol : Nat := 0x20004
/-- PROT.VADDR_LO (prose rule of its chapter). -/
def protVaddrLo : Nat := 0x20008
/-- PROT.VADDR_HI (prose rule of its chapter). -/
def protVaddrHi : Nat := 0x2000C
/-- PROT.EVENT (17_boot_protection_test.md). -/
def protEvent : Nat := 0x20010
/-- PROT.AG[a].BLKRD (17_boot_protection_test.md). -/
def protAgBlkrd (i : Nat) : Nat := 0x20100 + 0x100 * i
/-- PROT.AG[a].BLKWR (17_boot_protection_test.md). -/
def protAgBlkwr (i : Nat) : Nat := 0x20104 + 0x100 * i
/-- PROT.AG[a].HEADS[n] (17_boot_protection_test.md). -/
def protAgHeads (i j : Nat) : Nat := 0x20110 + 0x100 * i + 0x4 * j
/-- PROT.AG[a].LAYERS[n] (17_boot_protection_test.md). -/
def protAgLayers (i j : Nat) : Nat := 0x20180 + 0x100 * i + 0x4 * j
/-- PROT.WIN.BASE_LO (prose rule of its chapter). -/
def protWinBaseLo (i : Nat) : Nat := 0x22000 + 0x10 * i
/-- PROT.WIN.BASE_HI (prose rule of its chapter). -/
def protWinBaseHi (i : Nat) : Nat := 0x22004 + 0x10 * i
/-- PROT.WIN[w].SIZE (17_boot_protection_test.md). -/
def protWinSize (i : Nat) : Nat := 0x22008 + 0x10 * i
/-- PROT.WIN[w].CFG (17_boot_protection_test.md). -/
def protWinCfg (i : Nat) : Nat := 0x2200C + 0x10 * i
/-- CLK.CTL (02_ticks_phases_clocks.md). -/
def clkCtl : Nat := 0x30000
/-- CLK.STATUS (02_ticks_phases_clocks.md). -/
def clkStatus : Nat := 0x30004
/-- CLK.HDITHER (02_ticks_phases_clocks.md). -/
def clkHdither : Nat := 0x30008
/-- CLK.SYNCIN (02_ticks_phases_clocks.md). -/
def clkSyncin : Nat := 0x3000C
/-- CLK.HTB[m].CFG (02_ticks_phases_clocks.md). -/
def clkHtbCfg (i : Nat) : Nat := 0x30020 + 0x10 * i
/-- CLK.HTB[m].FRAC (02_ticks_phases_clocks.md). -/
def clkHtbFrac (i : Nat) : Nat := 0x30024 + 0x10 * i
/-- CLK.HTB[m].CORR (02_ticks_phases_clocks.md). -/
def clkHtbCorr (i : Nat) : Nat := 0x30028 + 0x10 * i
/-- TICK.DEVTIME_LO (prose rule of its chapter). -/
def tickDevtimeLo : Nat := 0x40000
/-- TICK.DEVTIME_HI (prose rule of its chapter). -/
def tickDevtimeHi : Nat := 0x40004
/-- TICK.TICKNUM_LO (prose rule of its chapter). -/
def tickTicknumLo : Nat := 0x40008
/-- TICK.TICKNUM_HI (prose rule of its chapter). -/
def tickTicknumHi : Nat := 0x4000C
/-- TICK.TSRC (02_ticks_phases_clocks.md). -/
def tickTsrc : Nat := 0x40010
/-- TICK.TSTAT (02_ticks_phases_clocks.md). -/
def tickTstat : Nat := 0x40014
/-- TICK.TPHASE (02_ticks_phases_clocks.md). -/
def tickTphase : Nat := 0x40018
/-- TICK.TCTL (02_ticks_phases_clocks.md). -/
def tickTctl : Nat := 0x4001C
/-- TICK.TRATE (02_ticks_phases_clocks.md). -/
def tickTrate : Nat := 0x40020
/-- TICK.PHCFG (02_ticks_phases_clocks.md). -/
def tickPhcfg : Nat := 0x40024
/-- TICK.TSTRUCT_STAT (02_ticks_phases_clocks.md). -/
def tickTstructStat : Nat := 0x40028
/-- TICK.GLCFG (02_ticks_phases_clocks.md). -/
def tickGlcfg : Nat := 0x4002C
/-- TICK.GLSTAT (02_ticks_phases_clocks.md). -/
def tickGlstat : Nat := 0x40030
/-- TICK.PTPCFG (02_ticks_phases_clocks.md). -/
def tickPtpcfg : Nat := 0x40034
/-- TICK.PPSIN_LO (prose rule of its chapter). -/
def tickPpsinLo : Nat := 0x40038
/-- TICK.PPSIN_HI (prose rule of its chapter). -/
def tickPpsinHi : Nat := 0x4003C
/-- TICK.PHOFS[i] (02_ticks_phases_clocks.md). -/
def tickPhofs (i : Nat) : Nat := 0x40040 + 0x4 * i
/-- TICK.SHUTSTAT (02_ticks_phases_clocks.md). -/
def tickShutstat : Nat := 0x40060
/-- TICK.GLDIFF (02_ticks_phases_clocks.md). -/
def tickGldiff : Nat := 0x40064
/-- TICK.SHUT[n].CFG (02_ticks_phases_clocks.md). -/
def tickShutCfg (i : Nat) : Nat := 0x40100 + 0x10 * i
/-- TICK.SHUT[n].OFS (02_ticks_phases_clocks.md). -/
def tickShutOfs (i : Nat) : Nat := 0x40104 + 0x10 * i
/-- TICK.SHUT[n].WIDTH (02_ticks_phases_clocks.md). -/
def tickShutWidth (i : Nat) : Nat := 0x40108 + 0x10 * i
/-- TICK.COMMIT (03_heads_raster.md). -/
def tickCommit : Nat := 0x40200
/-- TICK.CSTAT (03_heads_raster.md). -/
def tickCstat : Nat := 0x40204
/-- TICK.COFFEND (03_heads_raster.md). -/
def tickCoffend : Nat := 0x40208
/-- TICK.LATMIN (03_heads_raster.md). -/
def tickLatmin : Nat := 0x4020C
/-- TICK.CMASK[n] (03_heads_raster.md). -/
def tickCmask (i : Nat) : Nat := 0x40210 + 0x4 * i
/-- PWR.STATUS (15_power_thermal.md). -/
def pwrStatus : Nat := 0x50000
/-- PWR.EVENT (15_power_thermal.md). -/
def pwrEvent : Nat := 0x50004
/-- PWR.NOON (15_power_thermal.md). -/
def pwrNoon : Nat := 0x50008
/-- PWR.EBUCKET (15_power_thermal.md). -/
def pwrEbucket : Nat := 0x5000C
/-- PWR.PEST (15_power_thermal.md). -/
def pwrPest : Nat := 0x50010
/-- PWR.MIDNIGHT (15_power_thermal.md). -/
def pwrMidnight : Nat := 0x50014
/-- PWR.WAKECFG (15_power_thermal.md). -/
def pwrWakecfg : Nat := 0x50018
/-- PWR.WAKEVEC (15_power_thermal.md). -/
def pwrWakevec : Nat := 0x5001C
/-- PWR.WAKETIME_LO (prose rule of its chapter). -/
def pwrWaketimeLo : Nat := 0x50020
/-- PWR.WAKETIME_HI (prose rule of its chapter). -/
def pwrWaketimeHi : Nat := 0x50024
/-- PWR.REFUSE (15_power_thermal.md). -/
def pwrRefuse : Nat := 0x50028
/-- PWR.OFFACC (15_power_thermal.md). -/
def pwrOffacc : Nat := 0x5002C
/-- PWR.DOMCTL[w] (15_power_thermal.md). -/
def pwrDomctl (i : Nat) : Nat := 0x50030 + 0x4 * i
/-- PWR.DOMSTAT[w] (15_power_thermal.md). -/
def pwrDomstat (i : Nat) : Nat := 0x50040 + 0x4 * i
/-- THM.STATUS (15_power_thermal.md). -/
def thmStatus : Nat := 0x60000
/-- THM.TJ (15_power_thermal.md). -/
def thmTj : Nat := 0x60004
/-- THM.CFG (15_power_thermal.md). -/
def thmCfg : Nat := 0x60008
/-- THM.SHED (15_power_thermal.md). -/
def thmShed : Nat := 0x6000C
/-- THM.CTL (15_power_thermal.md). -/
def thmCtl : Nat := 0x60010
/-- THM.EVENT (15_power_thermal.md). -/
def thmEvent : Nat := 0x60014
/-- THM.SENSFAULT (15_power_thermal.md). -/
def thmSensfault : Nat := 0x60018
/-- THM.TRIPREC (15_power_thermal.md). -/
def thmTriprec : Nat := 0x6001C
/-- THM.SENS[k] (15_power_thermal.md). -/
def thmSens (i : Nat) : Nat := 0x60040 + 0x4 * i
/-- ICU.DOORBELL (14_interrupts_events.md). -/
def icuDoorbell : Nat := 0x80000
/-- ICU.STATUS (14_interrupts_events.md). -/
def icuStatus : Nat := 0x80004
/-- ICU.PENDING[w] (14_interrupts_events.md). -/
def icuPending (i : Nat) : Nat := 0x80100 + 0x4 * i
/-- ICU.ENABLE[w] (14_interrupts_events.md). -/
def icuEnable (i : Nat) : Nat := 0x80200 + 0x4 * i
/-- ICU.SRC[n].CFG (14_interrupts_events.md). -/
def icuSrcCfg (i : Nat) : Nat := 0x81000 + 0x4 * i
/-- ICU.TGT[t].THRESH (14_interrupts_events.md). -/
def icuTgtThresh (i : Nat) : Nat := 0x82000 + 0x20 * i
/-- ICU.TGT[t].CLAIM (14_interrupts_events.md). -/
def icuTgtClaim (i : Nat) : Nat := 0x82004 + 0x20 * i
/-- ICU.TGT[t].COMPLETE (14_interrupts_events.md). -/
def icuTgtComplete (i : Nat) : Nat := 0x82008 + 0x20 * i
/-- ICU.TGT[t].STAT (14_interrupts_events.md). -/
def icuTgtStat (i : Nat) : Nat := 0x8200C + 0x20 * i
/-- ICU.TGT[t].INSERV (14_interrupts_events.md). -/
def icuTgtInserv (i : Nat) : Nat := 0x82010 + 0x20 * i
/-- HEAD.CTL (03_heads_raster.md). -/
def headCtl (i : Nat) : Nat := 0x100000 + 0x1000 * i
/-- HEAD.HTIMING (03_heads_raster.md). -/
def headHtiming (i : Nat) : Nat := 0x100004 + 0x1000 * i
/-- HEAD.VTIMING (03_heads_raster.md). -/
def headVtiming (i : Nat) : Nat := 0x100008 + 0x1000 * i
/-- HEAD.BAND (03_heads_raster.md). -/
def headBand (i : Nat) : Nat := 0x10000C + 0x1000 * i
/-- HEAD.LINK (03_heads_raster.md). -/
def headLink (i : Nat) : Nat := 0x100010 + 0x1000 * i
/-- HEAD.PROG (03_heads_raster.md). -/
def headProg (i : Nat) : Nat := 0x100014 + 0x1000 * i
/-- HEAD.CAL (03_heads_raster.md). -/
def headCal (i : Nat) : Nat := 0x100018 + 0x1000 * i
/-- HEAD.FILL (03_heads_raster.md). -/
def headFill (i : Nat) : Nat := 0x10001C + 0x1000 * i
/-- HEAD.RBCTL (03_heads_raster.md). -/
def headRbctl (i : Nat) : Nat := 0x100020 + 0x1000 * i
/-- HEAD.RBSIG_LO (prose rule of its chapter). -/
def headRbsigLo (i : Nat) : Nat := 0x100024 + 0x1000 * i
/-- HEAD.RBSIG_HI (prose rule of its chapter). -/
def headRbsigHi (i : Nat) : Nat := 0x100028 + 0x1000 * i
/-- HEAD.STATUS (03_heads_raster.md). -/
def headStatus (i : Nat) : Nat := 0x10002C + 0x1000 * i
/-- HEAD.EVENT (03_heads_raster.md). -/
def headEvent (i : Nat) : Nat := 0x100030 + 0x1000 * i
/-- HEAD.COUNT (03_heads_raster.md). -/
def headCount (i : Nat) : Nat := 0x100034 + 0x1000 * i
/-- LAYER.CTL (04_layers_composition.md). -/
def layerCtl (i : Nat) : Nat := 0x200000 + 0x100 * i
/-- LAYER.SRC (04_layers_composition.md). -/
def layerSrc (i : Nat) : Nat := 0x200004 + 0x100 * i
/-- LAYER.ADDR_LO (prose rule of its chapter). -/
def layerAddrLo (i : Nat) : Nat := 0x200008 + 0x100 * i
/-- LAYER.ADDR_HI (prose rule of its chapter). -/
def layerAddrHi (i : Nat) : Nat := 0x20000C + 0x100 * i
/-- LAYER.PITCH (04_layers_composition.md). -/
def layerPitch (i : Nat) : Nat := 0x200010 + 0x100 * i
/-- LAYER.SRCORG (04_layers_composition.md). -/
def layerSrcorg (i : Nat) : Nat := 0x200014 + 0x100 * i
/-- LAYER.SRCSIZE (04_layers_composition.md). -/
def layerSrcsize (i : Nat) : Nat := 0x200018 + 0x100 * i
/-- LAYER.DSTPOS (04_layers_composition.md). -/
def layerDstpos (i : Nat) : Nat := 0x20001C + 0x100 * i
/-- LAYER.DSTSIZE (04_layers_composition.md). -/
def layerDstsize (i : Nat) : Nat := 0x200020 + 0x100 * i
/-- LAYER.ZBLEND (04_layers_composition.md). -/
def layerZblend (i : Nat) : Nat := 0x200024 + 0x100 * i
/-- LAYER.RDY (04_layers_composition.md). -/
def layerRdy (i : Nat) : Nat := 0x200028 + 0x100 * i
/-- LAYER.FILLRG (04_layers_composition.md). -/
def layerFillrg (i : Nat) : Nat := 0x20002C + 0x100 * i
/-- LAYER.FILLBA (04_layers_composition.md). -/
def layerFillba (i : Nat) : Nat := 0x200030 + 0x100 * i
/-- LAYER.PBIND (04_layers_composition.md). -/
def layerPbind (i : Nat) : Nat := 0x200034 + 0x100 * i
/-- LAYER.WARP (04_layers_composition.md). -/
def layerWarp (i : Nat) : Nat := 0x200038 + 0x100 * i
/-- LAYER.STATUS (04_layers_composition.md). -/
def layerStatus (i : Nat) : Nat := 0x20003C + 0x100 * i
/-- LAYER.DEFXF[k] (04_layers_composition.md). -/
def layerDefxf (i j : Nat) : Nat := 0x200040 + 0x100 * i + 0x4 * j
/-- LAYER.COLOR (04_layers_composition.md). -/
def layerColor (i : Nat) : Nat := 0x200080 + 0x100 * i
/-- LAYER.GAMUT[k] (04_layers_composition.md). -/
def layerGamut (i j : Nat) : Nat := 0x200084 + 0x100 * i + 0x4 * j
/-- LAYER.FENCE[n] (04_layers_composition.md). -/
def layerFence (i : Nat) : Nat := 0x240000 + 0x4 * i
/-- LAYER.PAL0[n] (05_pixel_arithmetic.md). -/
def layerPal0 (i j : Nat) : Nat := 0x250000 + 0x800 * i + 0x8 * j
/-- LAYER.PAL1[n] (05_pixel_arithmetic.md). -/
def layerPal1 (i j : Nat) : Nat := 0x250004 + 0x800 * i + 0x8 * j
/-- LAYER.ELUT (prose rule of its chapter). -/
def layerElut (i j : Nat) : Nat := 0x260000 + 0x800 * i + 0x4 * j
/-- LAYER.PRESET (prose rule of its chapter). -/
def layerPreset (i j : Nat) : Nat := 0x270000 + 0x800 * i + 0x4 * j
/-- LAYER.TONE (prose rule of its chapter). -/
def layerTone (i j : Nat) : Nat := 0x280000 + 0x2000 * i + 0x4 * j
/-- GRP.STATUS (06_compose_isa.md). -/
def grpStatus (i : Nat) : Nat := 0x300000 + 0x1000 * i
/-- GRP.EVENT (06_compose_isa.md). -/
def grpEvent (i : Nat) : Nat := 0x300004 + 0x1000 * i
/-- GRP.PADDR (06_compose_isa.md). -/
def grpPaddr (i : Nat) : Nat := 0x300008 + 0x1000 * i
/-- GRP.PCHECK (06_compose_isa.md). -/
def grpPcheck (i : Nat) : Nat := 0x30000C + 0x1000 * i
/-- GRP.STALLTHR (06_compose_isa.md). -/
def grpStallthr (i : Nat) : Nat := 0x300010 + 0x1000 * i
/-- GRP.STALLMAX (06_compose_isa.md). -/
def grpStallmax (i : Nat) : Nat := 0x300014 + 0x1000 * i
/-- GRP.RTCYC_LO (prose rule of its chapter). -/
def grpRtcycLo (i : Nat) : Nat := 0x300018 + 0x1000 * i
/-- GRP.RTCYC_HI (prose rule of its chapter). -/
def grpRtcycHi (i : Nat) : Nat := 0x30001C + 0x1000 * i
/-- GRP.NRTCYC_LO (prose rule of its chapter). -/
def grpNrtcycLo (i : Nat) : Nat := 0x300020 + 0x1000 * i
/-- GRP.NRTCYC_HI (prose rule of its chapter). -/
def grpNrtcycHi (i : Nat) : Nat := 0x300024 + 0x1000 * i
/-- GRP.ABANDON (06_compose_isa.md). -/
def grpAbandon (i : Nat) : Nat := 0x300028 + 0x1000 * i
/-- SCL.STATUS (04_layers_composition.md). -/
def sclStatus (i : Nat) : Nat := 0x310000 + 0x400 * i
/-- SCL.COUNT (04_layers_composition.md). -/
def sclCount (i : Nat) : Nat := 0x310004 + 0x400 * i
/-- SCL.HCOEF (prose rule of its chapter). -/
def sclHcoef (i j : Nat) : Nat := 0x310080 + 0x400 * i + 0x4 * j
/-- SCL.VCOEF (prose rule of its chapter). -/
def sclVcoef (i j : Nat) : Nat := 0x310280 + 0x400 * i + 0x4 * j
/-- POSE.CTL (07_pose_late_latch.md). -/
def poseCtl : Nat := 0x400000
/-- POSE.NETCFG (07_pose_late_latch.md). -/
def poseNetcfg : Nat := 0x400004
/-- POSE.STAT (07_pose_late_latch.md). -/
def poseStat : Nat := 0x400008
/-- POSE.TRCCTL (07_pose_late_latch.md). -/
def poseTrcctl : Nat := 0x400010
/-- POSE.TRCSEQ (07_pose_late_latch.md). -/
def poseTrcseq : Nat := 0x400014
/-- POSE.TRCLATCH_LO (prose rule of its chapter). -/
def poseTrclatchLo : Nat := 0x400018
/-- POSE.TRCLATCH_HI (prose rule of its chapter). -/
def poseTrclatchHi : Nat := 0x40001C
/-- POSE.TRCARR_LO (prose rule of its chapter). -/
def poseTrcarrLo : Nat := 0x400020
/-- POSE.TRCARR_HI (prose rule of its chapter). -/
def poseTrcarrHi : Nat := 0x400024
/-- POSE.STALEMAP[n] (07_pose_late_latch.md). -/
def poseStalemap (i : Nat) : Nat := 0x400080 + 0x4 * i
/-- POSE.SER[n].CFG (07_pose_late_latch.md). -/
def poseSerCfg (i : Nat) : Nat := 0x400100 + 0x10 * i
/-- POSE.SER[n].STAT (07_pose_late_latch.md). -/
def poseSerStat (i : Nat) : Nat := 0x400104 + 0x10 * i
/-- POSE.SRC[s].CFG (07_pose_late_latch.md). -/
def poseSrcCfg (i : Nat) : Nat := 0x401000 + 0x100 * i
/-- POSE.SRC[s].IPADDR (07_pose_late_latch.md). -/
def poseSrcIpaddr (i : Nat) : Nat := 0x401004 + 0x100 * i
/-- POSE.SRC[s].STAT (07_pose_late_latch.md). -/
def poseSrcStat (i : Nat) : Nat := 0x401008 + 0x100 * i
/-- POSE.SRC[s].COUNT (07_pose_late_latch.md). -/
def poseSrcCount (i : Nat) : Nat := 0x40100C + 0x100 * i
/-- POSE.SRC[s].BAD (07_pose_late_latch.md). -/
def poseSrcBad (i : Nat) : Nat := 0x401010 + 0x100 * i
/-- POSE.SRC.STAMP_LO (prose rule of its chapter). -/
def poseSrcStampLo (i : Nat) : Nat := 0x401018 + 0x100 * i
/-- POSE.SRC.STAMP_HI (prose rule of its chapter). -/
def poseSrcStampHi (i : Nat) : Nat := 0x40101C + 0x100 * i
/-- POSE.SRC[s].DIST (07_pose_late_latch.md). -/
def poseSrcDist (i : Nat) : Nat := 0x401020 + 0x100 * i
/-- POSE.SRC[s].K[k] (07_pose_late_latch.md). -/
def poseSrcK (i j : Nat) : Nat := 0x401040 + 0x100 * i + 0x4 * j
/-- POSE.SRC[s].KINV[k] (07_pose_late_latch.md). -/
def poseSrcKinv (i j : Nat) : Nat := 0x401064 + 0x100 * i + 0x4 * j
/-- POSE.SRC[s].PMAT[k] (07_pose_late_latch.md). -/
def poseSrcPmat (i j : Nat) : Nat := 0x401088 + 0x100 * i + 0x4 * j
/-- POSE.SRC[s].LAST[w] (07_pose_late_latch.md). -/
def poseSrcLast (i j : Nat) : Nat := 0x4010C0 + 0x100 * i + 0x4 * j
/-- DMC.CTL (09_local_memory.md). -/
def dmcCtl : Nat := 0x500000
/-- DMC.STATUS (09_local_memory.md). -/
def dmcStatus : Nat := 0x500004
/-- DMC.FREQ (09_local_memory.md). -/
def dmcFreq : Nat := 0x500008
/-- DMC.MAP (09_local_memory.md). -/
def dmcMap : Nat := 0x50000C
/-- DMC.SREXIT (09_local_memory.md). -/
def dmcSrexit : Nat := 0x500010
/-- DMC.MR4IV (09_local_memory.md). -/
def dmcMr4iv : Nat := 0x500014
/-- DMC.REFCFG (09_local_memory.md). -/
def dmcRefcfg : Nat := 0x500018
/-- DMC.PANICMAP (09_local_memory.md). -/
def dmcPanicmap : Nat := 0x50001C
/-- DMC.TRAINCAP (09_local_memory.md). -/
def dmcTraincap : Nat := 0x500020
/-- DMC.TRAINRNG (09_local_memory.md). -/
def dmcTrainrng : Nat := 0x500024
/-- DMC.FREEZE (09_local_memory.md). -/
def dmcFreeze : Nat := 0x500030
/-- DMC.FREEZE_ADDR_LO (prose rule of its chapter). -/
def dmcFreezeAddrLo : Nat := 0x500034
/-- DMC.FREEZE_ADDR_HI (prose rule of its chapter). -/
def dmcFreezeAddrHi : Nat := 0x500038
/-- DMC.FREEZE_STAMP_LO (prose rule of its chapter). -/
def dmcFreezeStampLo : Nat := 0x50003C
/-- DMC.FREEZE_STAMP_HI (prose rule of its chapter). -/
def dmcFreezeStampHi : Nat := 0x500040
/-- DMC.CREG[i].BASE (09_local_memory.md). -/
def dmcCregBase (i : Nat) : Nat := 0x500080 + 0x8 * i
/-- DMC.CREG[i].SIZE (09_local_memory.md). -/
def dmcCregSize (i : Nat) : Nat := 0x500084 + 0x8 * i
/-- DMC.PORT[p] (09_local_memory.md). -/
def dmcPort (i : Nat) : Nat := 0x500100 + 0x4 * i
/-- DMC.TRAINRES[k] (09_local_memory.md). -/
def dmcTrainres (i : Nat) : Nat := 0x500200 + 0x4 * i
/-- DMC.CH[n].STATUS (09_local_memory.md). -/
def dmcChStatus (i : Nat) : Nat := 0x501000 + 0x800 * i
/-- DMC.CH[n].EVENT (09_local_memory.md). -/
def dmcChEvent (i : Nat) : Nat := 0x501004 + 0x800 * i
/-- DMC.CH[n].ECC (09_local_memory.md). -/
def dmcChEcc (i : Nat) : Nat := 0x501008 + 0x800 * i
/-- DMC.CH.ECCADDR_LO (prose rule of its chapter). -/
def dmcChEccaddrLo (i : Nat) : Nat := 0x50100C + 0x800 * i
/-- DMC.CH.ECCADDR_HI (prose rule of its chapter). -/
def dmcChEccaddrHi (i : Nat) : Nat := 0x501010 + 0x800 * i
/-- DMC.CH[n].SRIDLE (09_local_memory.md). -/
def dmcChSridle (i : Nat) : Nat := 0x501014 + 0x800 * i
/-- DMC.CH[n].RHCFG (09_local_memory.md). -/
def dmcChRhcfg (i : Nat) : Nat := 0x501018 + 0x800 * i
/-- DMC.CH[n].RHWIN (09_local_memory.md). -/
def dmcChRhwin (i : Nat) : Nat := 0x50101C + 0x800 * i
/-- DMC.CH[n].RHSTAT (09_local_memory.md). -/
def dmcChRhstat (i : Nat) : Nat := 0x501020 + 0x800 * i
/-- DMC.CH[n].DLY[f][b] (09_local_memory.md). -/
def dmcChDly (i j k : Nat) : Nat := 0x501040 + 0x800 * i + 0x10 * j + 0x4 * k
/-- DMC.CH[n].VREF[f] (09_local_memory.md). -/
def dmcChVref (i j : Nat) : Nat := 0x501048 + 0x800 * i + 0x10 * j
/-- DMC.CH[n].CADLY[f] (09_local_memory.md). -/
def dmcChCadly (i j : Nat) : Nat := 0x50104C + 0x800 * i + 0x10 * j
/-- CXL.LINK (10_cxl_dma.md). -/
def cxlLink : Nat := 0x600000
/-- CXL.RTCFG (10_cxl_dma.md). -/
def cxlRtcfg : Nat := 0x600004
/-- CXL.RTSTAT (10_cxl_dma.md). -/
def cxlRtstat : Nat := 0x600008
/-- CXL.BUDGET (10_cxl_dma.md). -/
def cxlBudget : Nat := 0x60000C
/-- CXL.LTR (10_cxl_dma.md). -/
def cxlLtr : Nat := 0x600010
/-- CXL.EVENT (10_cxl_dma.md). -/
def cxlEvent : Nat := 0x600014
/-- CXL.RDERR (10_cxl_dma.md). -/
def cxlRderr : Nat := 0x600018
/-- CXL.RDERR_ADDR_LO (prose rule of its chapter). -/
def cxlRderrAddrLo : Nat := 0x600020
/-- CXL.RDERR_ADDR_HI (prose rule of its chapter). -/
def cxlRderrAddrHi : Nat := 0x600024
/-- CXL.VGRP[v] (10_cxl_dma.md). -/
def cxlVgrp (i : Nat) : Nat := 0x600040 + 0x4 * i
/-- DMA.CTL (10_cxl_dma.md). -/
def dmaCtl : Nat := 0x610000
/-- DMA.STATUS (10_cxl_dma.md). -/
def dmaStatus : Nat := 0x610004
/-- DMA.ERR (10_cxl_dma.md). -/
def dmaErr : Nat := 0x610008
/-- DMA.ERRADDR_LO (prose rule of its chapter). -/
def dmaErraddrLo : Nat := 0x61000C
/-- DMA.ERRADDR_HI (prose rule of its chapter). -/
def dmaErraddrHi : Nat := 0x610010
/-- DMA.CH[c].CFG (10_cxl_dma.md). -/
def dmaChCfg (i : Nat) : Nat := 0x610100 + 0x20 * i
/-- DMA.CH.RING_LO (prose rule of its chapter). -/
def dmaChRingLo (i : Nat) : Nat := 0x610104 + 0x20 * i
/-- DMA.CH.RING_HI (prose rule of its chapter). -/
def dmaChRingHi (i : Nat) : Nat := 0x610108 + 0x20 * i
/-- DMA.CH[c].HEADIDX (10_cxl_dma.md). -/
def dmaChHeadidx (i : Nat) : Nat := 0x61010C + 0x20 * i
/-- DMA.CH[c].TAILIDX (10_cxl_dma.md). -/
def dmaChTailidx (i : Nat) : Nat := 0x610110 + 0x20 * i
/-- DMA.CH[c].STATUS (10_cxl_dma.md). -/
def dmaChStatus (i : Nat) : Nat := 0x610114 + 0x20 * i
/-- DMA.CH[c].EVENT (10_cxl_dma.md). -/
def dmaChEvent (i : Nat) : Nat := 0x610118 + 0x20 * i
/-- DMA.CH[c].DONECNT (10_cxl_dma.md). -/
def dmaChDonecnt (i : Nat) : Nat := 0x61011C + 0x20 * i
/-- BLT.CTL (08_blitter.md). -/
def bltCtl : Nat := 0x700000
/-- BLT.STATUS (08_blitter.md). -/
def bltStatus : Nat := 0x700004
/-- BLT.RING_LO (prose rule of its chapter). -/
def bltRingLo : Nat := 0x700008
/-- BLT.RING_HI (prose rule of its chapter). -/
def bltRingHi : Nat := 0x70000C
/-- BLT.HEADIDX (08_blitter.md). -/
def bltHeadidx : Nat := 0x700010
/-- BLT.TAILIDX (08_blitter.md). -/
def bltTailidx : Nat := 0x700014
/-- BLT.WATERMARK (08_blitter.md). -/
def bltWatermark : Nat := 0x700018
/-- BLT.ROWS (08_blitter.md). -/
def bltRows : Nat := 0x70001C
/-- BLT.EVENT (08_blitter.md). -/
def bltEvent : Nat := 0x700020
/-- BLT.CLAMPCNT (08_blitter.md). -/
def bltClampcnt : Nat := 0x700024
/-- BLT.ERRADDR_LO (prose rule of its chapter). -/
def bltErraddrLo : Nat := 0x700028
/-- BLT.ERRADDR_HI (prose rule of its chapter). -/
def bltErraddrHi : Nat := 0x70002C
/-- BLT.GAMUT[m][k] (08_blitter.md). -/
def bltGamut (i j : Nat) : Nat := 0x700040 + 0x40 * i + 0x4 * j
/-- NET.CFG (11_network_ingest.md). -/
def netCfg : Nat := 0x800000
/-- NET.IBUF (11_network_ingest.md). -/
def netIbuf : Nat := 0x800004
/-- NET.IBSTAT (11_network_ingest.md). -/
def netIbstat : Nat := 0x800008
/-- NET.EVSTAT (11_network_ingest.md). -/
def netEvstat : Nat := 0x80000C
/-- NET.DSCPMAP[n] (11_network_ingest.md). -/
def netDscpmap (i : Nat) : Nat := 0x800010 + 0x4 * i
/-- NET.FWRX_LO (prose rule of its chapter). -/
def netFwrxLo : Nat := 0x800020
/-- NET.FWRX_HI (prose rule of its chapter). -/
def netFwrxHi : Nat := 0x800024
/-- NET.FWRXCTL (11_network_ingest.md). -/
def netFwrxctl : Nat := 0x800028
/-- NET.FWRXHEAD (11_network_ingest.md). -/
def netFwrxhead : Nat := 0x80002C
/-- NET.FWRXTAIL (11_network_ingest.md). -/
def netFwrxtail : Nat := 0x800030
/-- NET.PORT[p].CFG (11_network_ingest.md). -/
def netPortCfg (i : Nat) : Nat := 0x800100 + 0x20 * i
/-- NET.PORT[p].STAT (11_network_ingest.md). -/
def netPortStat (i : Nat) : Nat := 0x800104 + 0x20 * i
/-- NET.PORT[p].FCSERR (11_network_ingest.md). -/
def netPortFcserr (i : Nat) : Nat := 0x800108 + 0x20 * i
/-- NET.PORT[p].DROP (11_network_ingest.md). -/
def netPortDrop (i : Nat) : Nat := 0x80010C + 0x20 * i
/-- NET.PORT[p].PAUSE (11_network_ingest.md). -/
def netPortPause (i : Nat) : Nat := 0x800110 + 0x20 * i
/-- NET.FLOW[f].CTL (11_network_ingest.md). -/
def netFlowCtl (i : Nat) : Nat := 0x801000 + 0x40 * i
/-- NET.FLOW[f].DSTIP (11_network_ingest.md). -/
def netFlowDstip (i : Nat) : Nat := 0x801004 + 0x40 * i
/-- NET.FLOW[f].SRCIP (11_network_ingest.md). -/
def netFlowSrcip (i : Nat) : Nat := 0x801008 + 0x40 * i
/-- NET.FLOW[f].UDP (11_network_ingest.md). -/
def netFlowUdp (i : Nat) : Nat := 0x80100C + 0x40 * i
/-- NET.FLOW[f].CIR (11_network_ingest.md). -/
def netFlowCir (i : Nat) : Nat := 0x801010 + 0x40 * i
/-- NET.FLOW[f].PIR (11_network_ingest.md). -/
def netFlowPir (i : Nat) : Nat := 0x801014 + 0x40 * i
/-- NET.FLOW[f].CBS (11_network_ingest.md). -/
def netFlowCbs (i : Nat) : Nat := 0x801018 + 0x40 * i
/-- NET.FLOW[f].PBS (11_network_ingest.md). -/
def netFlowPbs (i : Nat) : Nat := 0x80101C + 0x40 * i
/-- NET.FLOW.BASE_LO (prose rule of its chapter). -/
def netFlowBaseLo (i : Nat) : Nat := 0x801020 + 0x40 * i
/-- NET.FLOW.BASE_HI (prose rule of its chapter). -/
def netFlowBaseHi (i : Nat) : Nat := 0x801024 + 0x40 * i
/-- NET.FLOW[f].GEOM (11_network_ingest.md). -/
def netFlowGeom (i : Nat) : Nat := 0x801028 + 0x40 * i
/-- NET.FLOW[f].PITCH (11_network_ingest.md). -/
def netFlowPitch (i : Nat) : Nat := 0x80102C + 0x40 * i
/-- NET.FLOW[f].STRIDE (11_network_ingest.md). -/
def netFlowStride (i : Nat) : Nat := 0x801030 + 0x40 * i
/-- NET.FLOW[f].FMT (11_network_ingest.md). -/
def netFlowFmt (i : Nat) : Nat := 0x801038 + 0x40 * i
/-- NET.FLOW[f].WOFS (11_network_ingest.md). -/
def netFlowWofs (i : Nat) : Nat := 0x80103C + 0x40 * i
/-- NET.FCNT[f].GREEN (11_network_ingest.md). -/
def netFcntGreen (i : Nat) : Nat := 0x808000 + 0x10 * i
/-- NET.FCNT[f].YELLOW (11_network_ingest.md). -/
def netFcntYellow (i : Nat) : Nat := 0x808004 + 0x10 * i
/-- NET.FCNT[f].RED (11_network_ingest.md). -/
def netFcntRed (i : Nat) : Nat := 0x808008 + 0x10 * i
/-- NET.FCNT[f].LOST (11_network_ingest.md). -/
def netFcntLost (i : Nat) : Nat := 0x80800C + 0x10 * i
/-- NET.FLOW[f].STAT (11_network_ingest.md). -/
def netFlowStat (i : Nat) : Nat := 0x80C000 + 0x8 * i
/-- NET.FLOW[f].STATB (11_network_ingest.md). -/
def netFlowStatb (i : Nat) : Nat := 0x80C004 + 0x8 * i
/-- TSP.EVSTAT (11_network_ingest.md). -/
def tspEvstat : Nat := 0x810004
/-- TSP.PIXCFG (11_network_ingest.md). -/
def tspPixcfg : Nat := 0x810008
/-- TSP.PIXSTAT (11_network_ingest.md). -/
def tspPixstat : Nat := 0x81000C
/-- TSP.ECHOCFG (11_network_ingest.md). -/
def tspEchocfg : Nat := 0x810010
/-- TSP.ECHOMASK[n] (11_network_ingest.md). -/
def tspEchomask (i : Nat) : Nat := 0x810014 + 0x4 * i
/-- TSP.FWTX_LO (prose rule of its chapter). -/
def tspFwtxLo : Nat := 0x810020
/-- TSP.FWTX_HI (prose rule of its chapter). -/
def tspFwtxHi : Nat := 0x810024
/-- TSP.FWTXCTL (11_network_ingest.md). -/
def tspFwtxctl : Nat := 0x810028
/-- TSP.FWTXHEAD (11_network_ingest.md). -/
def tspFwtxhead : Nat := 0x81002C
/-- TSP.FWTXTAIL (11_network_ingest.md). -/
def tspFwtxtail : Nat := 0x810030
/-- TSP.SHAPER[n].CFG (11_network_ingest.md). -/
def tspShaperCfg (i : Nat) : Nat := 0x810200 + 0x20 * i
/-- TSP.SHAPER[n].RATE (11_network_ingest.md). -/
def tspShaperRate (i : Nat) : Nat := 0x810204 + 0x20 * i
/-- TSP.SHAPER[n].HICREDIT (11_network_ingest.md). -/
def tspShaperHicredit (i : Nat) : Nat := 0x810208 + 0x20 * i
/-- TSP.SHAPER[n].LOCREDIT (11_network_ingest.md). -/
def tspShaperLocredit (i : Nat) : Nat := 0x81020C + 0x20 * i
/-- TSP.SHAPER[n].CREDIT (11_network_ingest.md). -/
def tspShaperCredit (i : Nat) : Nat := 0x810210 + 0x20 * i
/-- TSP.SHAPER[n].CLRDEBT (11_network_ingest.md). -/
def tspShaperClrdebt (i : Nat) : Nat := 0x810214 + 0x20 * i
/-- TSP.TXS[c] (11_network_ingest.md). -/
def tspTxs (i : Nat) : Nat := 0x810600 + 0x4 * i
/-- TSP.TMPL0[t] (11_network_ingest.md). -/
def tspTmpl0 (i : Nat) : Nat := 0x814000 + 0x100 * i
/-- TSP.TMPLW (prose rule of its chapter). -/
def tspTmplw (i j : Nat) : Nat := 0x814004 + 0x100 * i + 0x4 * j
/-- TSP.PMAP0[u] (11_network_ingest.md). -/
def tspPmap0 (i : Nat) : Nat := 0x818000 + 0x10 * i
/-- TSP.PMAP1[u] (11_network_ingest.md). -/
def tspPmap1 (i : Nat) : Nat := 0x818004 + 0x10 * i
/-- TSP.PMAP2[u] (11_network_ingest.md). -/
def tspPmap2 (i : Nat) : Nat := 0x818008 + 0x10 * i
/-- TSP.PMAP3[u] (11_network_ingest.md). -/
def tspPmap3 (i : Nat) : Nat := 0x81800C + 0x10 * i
/-- CDC.CTL (12_picture_codec.md). -/
def cdcCtl : Nat := 0x900000
/-- CDC.STATUS (12_picture_codec.md). -/
def cdcStatus : Nat := 0x900004
/-- CDC.PRIV (12_picture_codec.md). -/
def cdcPriv : Nat := 0x900008
/-- CDC.CTX[c].CFG (12_picture_codec.md). -/
def cdcCtxCfg (i : Nat) : Nat := 0x901000 + 0x80 * i
/-- CDC.CTX[c].GEOM (12_picture_codec.md). -/
def cdcCtxGeom (i : Nat) : Nat := 0x901004 + 0x80 * i
/-- CDC.CTX.CMD_LO (prose rule of its chapter). -/
def cdcCtxCmdLo (i : Nat) : Nat := 0x901008 + 0x80 * i
/-- CDC.CTX.CMD_HI (prose rule of its chapter). -/
def cdcCtxCmdHi (i : Nat) : Nat := 0x90100C + 0x80 * i
/-- CDC.CTX[c].CMDHEAD (12_picture_codec.md). -/
def cdcCtxCmdhead (i : Nat) : Nat := 0x901010 + 0x80 * i
/-- CDC.CTX[c].CMDTAIL (12_picture_codec.md). -/
def cdcCtxCmdtail (i : Nat) : Nat := 0x901014 + 0x80 * i
/-- CDC.CTX.IN_LO (prose rule of its chapter). -/
def cdcCtxInLo (i : Nat) : Nat := 0x901018 + 0x80 * i
/-- CDC.CTX.IN_HI (prose rule of its chapter). -/
def cdcCtxInHi (i : Nat) : Nat := 0x90101C + 0x80 * i
/-- CDC.CTX[c].INSIZE (12_picture_codec.md). -/
def cdcCtxInsize (i : Nat) : Nat := 0x901020 + 0x80 * i
/-- CDC.CTX.DPB_LO (prose rule of its chapter). -/
def cdcCtxDpbLo (i : Nat) : Nat := 0x901024 + 0x80 * i
/-- CDC.CTX.DPB_HI (prose rule of its chapter). -/
def cdcCtxDpbHi (i : Nat) : Nat := 0x901028 + 0x80 * i
/-- CDC.CTX.OUT_LO (prose rule of its chapter). -/
def cdcCtxOutLo (i : Nat) : Nat := 0x90102C + 0x80 * i
/-- CDC.CTX.OUT_HI (prose rule of its chapter). -/
def cdcCtxOutHi (i : Nat) : Nat := 0x901030 + 0x80 * i
/-- CDC.CTX[c].OUTPITCH (12_picture_codec.md). -/
def cdcCtxOutpitch (i : Nat) : Nat := 0x901034 + 0x80 * i
/-- CDC.CTX[c].OUTSTRIDE (12_picture_codec.md). -/
def cdcCtxOutstride (i : Nat) : Nat := 0x901038 + 0x80 * i
/-- CDC.CTX[c].RDOFS (12_picture_codec.md). -/
def cdcCtxRdofs (i : Nat) : Nat := 0x90103C + 0x80 * i
/-- CDC.CTX[c].WOFS (12_picture_codec.md). -/
def cdcCtxWofs (i : Nat) : Nat := 0x901040 + 0x80 * i
/-- CDC.CTX[c].STATUS (12_picture_codec.md). -/
def cdcCtxStatus (i : Nat) : Nat := 0x901044 + 0x80 * i
/-- CDC.CTX[c].EVENT (12_picture_codec.md). -/
def cdcCtxEvent (i : Nat) : Nat := 0x901048 + 0x80 * i
/-- CDC.CTX[c].RCCFG (12_picture_codec.md). -/
def cdcCtxRccfg (i : Nat) : Nat := 0x90104C + 0x80 * i
/-- CDC.CTX[c].RATE (12_picture_codec.md). -/
def cdcCtxRate (i : Nat) : Nat := 0x901050 + 0x80 * i
/-- CDC.CTX[c].CPB (12_picture_codec.md). -/
def cdcCtxCpb (i : Nat) : Nat := 0x901054 + 0x80 * i
/-- CDC.CTX[c].PERIOD (12_picture_codec.md). -/
def cdcCtxPeriod (i : Nat) : Nat := 0x901058 + 0x80 * i
/-- CDC.CTX[c].RCSTAT (12_picture_codec.md). -/
def cdcCtxRcstat (i : Nat) : Nat := 0x90105C + 0x80 * i
/-- CDC.CTX[c].MISSPOC (12_picture_codec.md). -/
def cdcCtxMisspoc (i : Nat) : Nat := 0x901060 + 0x80 * i
/-- WLK.CTL (13_wall_link.md). -/
def wlkCtl : Nat := 0xA00000
/-- WLK.STATUS (13_wall_link.md). -/
def wlkStatus : Nat := 0xA00004
/-- WLK.LANE[n].CFG (13_wall_link.md). -/
def wlkLaneCfg (i : Nat) : Nat := 0xA00100 + 0x40 * i
/-- WLK.LANE[n].STAT (13_wall_link.md). -/
def wlkLaneStat (i : Nat) : Nat := 0xA00104 + 0x40 * i
/-- WLK.LANE[n].EVENT (13_wall_link.md). -/
def wlkLaneEvent (i : Nat) : Nat := 0xA00108 + 0x40 * i
/-- WLK.LANE[n].FEC (13_wall_link.md). -/
def wlkLaneFec (i : Nat) : Nat := 0xA0010C + 0x40 * i
/-- WLK.LANE[n].CTRLERR (13_wall_link.md). -/
def wlkLaneCtrlerr (i : Nat) : Nat := 0xA00110 + 0x40 * i
/-- WLK.LANE[n].POLL (13_wall_link.md). -/
def wlkLanePoll (i : Nat) : Nat := 0xA00114 + 0x40 * i
/-- WLK.LANE[n].CREDIT[k] (13_wall_link.md). -/
def wlkLaneCredit (i j : Nat) : Nat := 0xA00118 + 0x40 * i + 0x4 * j
/-- WLK.LANE[n].HUBSTAT[k] (13_wall_link.md). -/
def wlkLaneHubstat (i j : Nat) : Nat := 0xA00128 + 0x40 * i + 0x4 * j
/-- WLK.LANE[n].SHORT (13_wall_link.md). -/
def wlkLaneShort (i : Nat) : Nat := 0xA00138 + 0x40 * i
/-- MIR.CTL (16_redundant_pair.md). -/
def mirCtl : Nat := 0xB00000
/-- MIR.CFG (16_redundant_pair.md). -/
def mirCfg : Nat := 0xB00004
/-- MIR.STAT (16_redundant_pair.md). -/
def mirStat : Nat := 0xB00008
/-- MIR.EVENT (16_redundant_pair.md). -/
def mirEvent : Nat := 0xB0000C
/-- MIR.TERR (16_redundant_pair.md). -/
def mirTerr : Nat := 0xB00010
/-- MIR.COUNT (16_redundant_pair.md). -/
def mirCount : Nat := 0xB00014
/-- MIR.DIVERGE (16_redundant_pair.md). -/
def mirDiverge : Nat := 0xB00018
/-- FLT.CTL (04_layers_composition.md). -/
def fltCtl : Nat := 0xC00000
/-- FLT.SIZE (04_layers_composition.md). -/
def fltSize : Nat := 0xC00004
/-- FLT.STAT (04_layers_composition.md). -/
def fltStat : Nat := 0xC00008
/-- FLT.WB[n].CTL (04_layers_composition.md). -/
def fltWbCtl (i : Nat) : Nat := 0xC00100 + 0x20 * i
/-- FLT.WB.ADDR_LO (prose rule of its chapter). -/
def fltWbAddrLo (i : Nat) : Nat := 0xC00104 + 0x20 * i
/-- FLT.WB.ADDR_HI (prose rule of its chapter). -/
def fltWbAddrHi (i : Nat) : Nat := 0xC00108 + 0x20 * i
/-- FLT.WB[n].PITCH (04_layers_composition.md). -/
def fltWbPitch (i : Nat) : Nat := 0xC0010C + 0x20 * i
/-- FLT.WB[n].STRIDE (04_layers_composition.md). -/
def fltWbStride (i : Nat) : Nat := 0xC00110 + 0x20 * i
/-- FLT.WB[n].STATUS (04_layers_composition.md). -/
def fltWbStatus (i : Nat) : Nat := 0xC00114 + 0x20 * i
/-- FINJ.CTL (17_boot_protection_test.md). -/
def finjCtl : Nat := 0xD00000
/-- FINJ.EVENT (17_boot_protection_test.md). -/
def finjEvent : Nat := 0xD00004
/-- FINJ.LINK[k].CFG (17_boot_protection_test.md). -/
def finjLinkCfg (i : Nat) : Nat := 0xD00100 + 0x10 * i
/-- FINJ.LINK[k].SEED (17_boot_protection_test.md). -/
def finjLinkSeed (i : Nat) : Nat := 0xD00104 + 0x10 * i
/-- FINJ.LINK[k].COUNT (17_boot_protection_test.md). -/
def finjLinkCount (i : Nat) : Nat := 0xD00108 + 0x10 * i
/-- PS.WORD (prose rule of its chapter). -/
def psWord (i j : Nat) : Nat := 0x1000000 + 0x100000 * i + 0x4 * j
/-- PS.MAT[k] (05_pixel_arithmetic.md). -/
def psMat (i j k : Nat) : Nat := 0x1040000 + 0x100000 * i + 0x40000 * j + 0x4 * k
/-- PS.SHAPER (prose rule of its chapter). -/
def psShaper (i j k : Nat) : Nat := 0x1040100 + 0x100000 * i + 0x40000 * j + 0x4 * k
/-- PS.LUT3D (prose rule of its chapter). -/
def psLut3d (i j k : Nat) : Nat := 0x1044000 + 0x100000 * i + 0x40000 * j + 0x4 * k

end Reg

namespace F

def topCaps0Heads : Fld := ⟨Reg.topCaps0, 0, 8⟩
def topCaps0Cores : Fld := ⟨Reg.topCaps0, 8, 8⟩
def topCaps0Sectors : Fld := ⟨Reg.topCaps0, 16, 4⟩
def topCaps0Groups : Fld := ⟨Reg.topCaps0, 20, 4⟩
def topCaps0Scalers : Fld := ⟨Reg.topCaps0, 24, 5⟩
def topCaps1CodecPipes : Fld := ⟨Reg.topCaps1, 0, 4⟩
def topCaps1Mirror : Fld := ⟨Reg.topCaps1, 4, 1⟩
def topCaps1Pixmap : Fld := ⟨Reg.topCaps1, 5, 1⟩
def topCaps1Flatten : Fld := ⟨Reg.topCaps1, 6, 1⟩
def topCaps2DmcCh : Fld := ⟨Reg.topCaps2, 0, 5⟩
def topCaps2WlkLanes : Fld := ⟨Reg.topCaps2, 8, 5⟩
def topCaps2NetLanes : Fld := ⟨Reg.topCaps2, 16, 4⟩
def topCaps2MirLanes : Fld := ⟨Reg.topCaps2, 20, 4⟩
def topCaps2PosePorts : Fld := ⟨Reg.topCaps2, 24, 4⟩
def topCaps3Part : Fld := ⟨Reg.topCaps3, 0, 16⟩
def topCaps3Stepping : Fld := ⟨Reg.topCaps3, 16, 4⟩
def topAbsentAddrOffset : Fld := ⟨Reg.topAbsentAddr, 0, 26⟩
def topBadaccCount : Fld := ⟨Reg.topBadacc, 0, 16⟩
def topBadaccKind : Fld := ⟨Reg.topBadacc, 16, 2⟩
def topBadaddrOffset : Fld := ⟨Reg.topBadaddr, 0, 26⟩
def topSecloadActiveRate (i : Nat) : Fld := ⟨Reg.topSecload i, 0, 16⟩
def topSecloadArmedRate (i : Nat) : Fld := ⟨Reg.topSecload i, 16, 16⟩
def bootStatusState : Fld := ⟨Reg.bootStatus, 0, 2⟩
def bootStatusDefaulted : Fld := ⟨Reg.bootStatus, 2, 1⟩
def bootStatusCause : Fld := ⟨Reg.bootStatus, 4, 4⟩
def bootStatusMajor : Fld := ⟨Reg.bootStatus, 8, 8⟩
def bootStatusMinor : Fld := ⟨Reg.bootStatus, 16, 16⟩
def bootRstcausePorst : Fld := ⟨Reg.bootRstcause, 0, 1⟩
def bootRstcausePin : Fld := ⟨Reg.bootRstcause, 1, 1⟩
def bootRstcauseSoft : Fld := ⟨Reg.bootRstcause, 2, 1⟩
def bootCtlSwreset : Fld := ⟨Reg.bootCtl, 0, 1⟩
def bootCtlStart : Fld := ⟨Reg.bootCtl, 1, 3⟩
def bootEventDawnDone : Fld := ⟨Reg.bootEvent, 0, 1⟩
def bootEventBootDefaulted : Fld := ⟨Reg.bootEvent, 1, 1⟩
def bootEventXspiDone : Fld := ⟨Reg.bootEvent, 2, 1⟩
def bootXcmdOp : Fld := ⟨Reg.bootXcmd, 0, 8⟩
def bootXcmdAddr : Fld := ⟨Reg.bootXcmd, 8, 1⟩
def bootXcmdWrite : Fld := ⟨Reg.bootXcmd, 9, 1⟩
def bootXcmdLen : Fld := ⟨Reg.bootXcmd, 10, 7⟩
def bootXcmdBusy : Fld := ⟨Reg.bootXcmd, 31, 1⟩
def protCtlDelegate : Fld := ⟨Reg.protCtl, 0, 1⟩
def protViolAgent : Fld := ⟨Reg.protViol, 0, 4⟩
def protViolWrite : Fld := ⟨Reg.protViol, 4, 1⟩
def protViolKind : Fld := ⟨Reg.protViol, 5, 2⟩
def protViolValid : Fld := ⟨Reg.protViol, 7, 1⟩
def protViolCount : Fld := ⟨Reg.protViol, 16, 16⟩
def protEventProtViolation : Fld := ⟨Reg.protEvent, 0, 1⟩
def protAgBlkrdBlocks (i : Nat) : Fld := ⟨Reg.protAgBlkrd i, 0, 24⟩
def protAgBlkwrBlocks (i : Nat) : Fld := ⟨Reg.protAgBlkwr i, 0, 24⟩
def protAgHeadsBits (i j : Nat) : Fld := ⟨Reg.protAgHeads i j, 0, 32⟩
def protAgLayersBits (i j : Nat) : Fld := ⟨Reg.protAgLayers i j, 0, 32⟩
def protWinSizeUnits (i : Nat) : Fld := ⟨Reg.protWinSize i, 0, 21⟩
def protWinCfgEn (i : Nat) : Fld := ⟨Reg.protWinCfg i, 0, 1⟩
def protWinCfgSpace (i : Nat) : Fld := ⟨Reg.protWinCfg i, 1, 1⟩
def protWinCfgRdmask (i : Nat) : Fld := ⟨Reg.protWinCfg i, 2, 13⟩
def protWinCfgWrmask (i : Nat) : Fld := ⟨Reg.protWinCfg i, 15, 13⟩
def clkCtlFbsrc : Fld := ⟨Reg.clkCtl, 0, 2⟩
def clkCtlRestore : Fld := ⟨Reg.clkCtl, 2, 1⟩
def clkStatusRef100 : Fld := ⟨Reg.clkStatus, 0, 1⟩
def clkStatusRef400 : Fld := ⟨Reg.clkStatus, 1, 1⟩
def clkStatusCmdllLock : Fld := ⟨Reg.clkStatus, 2, 1⟩
def clkStatusSmdllLock : Fld := ⟨Reg.clkStatus, 3, 1⟩
def clkStatusHtbaLock : Fld := ⟨Reg.clkStatus, 4, 1⟩
def clkStatusHtbbLock : Fld := ⟨Reg.clkStatus, 5, 1⟩
def clkStatusFallback : Fld := ⟨Reg.clkStatus, 6, 1⟩
def clkStatusFbEdge : Fld := ⟨Reg.clkStatus, 7, 1⟩
def clkHditherSeed : Fld := ⟨Reg.clkHdither, 0, 24⟩
def clkHditherEn : Fld := ⟨Reg.clkHdither, 24, 1⟩
def clkSyncinArm : Fld := ⟨Reg.clkSyncin, 0, 1⟩
def clkSyncinTarget : Fld := ⟨Reg.clkSyncin, 1, 3⟩
def clkSyncinIgnored : Fld := ⟨Reg.clkSyncin, 4, 1⟩
def clkSyncinCount : Fld := ⟨Reg.clkSyncin, 16, 16⟩
def clkHtbCfgInt (i : Nat) : Fld := ⟨Reg.clkHtbCfg i, 0, 6⟩
def clkHtbCfgEn (i : Nat) : Fld := ⟨Reg.clkHtbCfg i, 6, 1⟩
def clkHtbFracFrac (i : Nat) : Fld := ⟨Reg.clkHtbFrac i, 0, 24⟩
def clkHtbCorrCorr (i : Nat) : Fld := ⟨Reg.clkHtbCorr i, 0, 32⟩
def tickTsrcSelect : Fld := ⟨Reg.tickTsrc, 0, 2⟩
def tickTsrcHold : Fld := ⟨Reg.tickTsrc, 8, 8⟩
def tickTstatState : Fld := ⟨Reg.tickTstat, 0, 2⟩
def tickTstatActive : Fld := ⟨Reg.tickTstat, 2, 2⟩
def tickTstatFault : Fld := ⟨Reg.tickTstat, 4, 1⟩
def tickTstatSteps : Fld := ⟨Reg.tickTstat, 8, 4⟩
def tickTstatOfsUs : Fld := ⟨Reg.tickTstat, 16, 12⟩
def tickTphaseTphase : Fld := ⟨Reg.tickTphase, 0, 32⟩
def tickTctlStep : Fld := ⟨Reg.tickTctl, 0, 1⟩
def tickTctlStructArm : Fld := ⟨Reg.tickTctl, 1, 1⟩
def tickTrateRate : Fld := ⟨Reg.tickTrate, 0, 4⟩
def tickPhcfgPhases : Fld := ⟨Reg.tickPhcfg, 0, 4⟩
def tickTstructStatCode : Fld := ⟨Reg.tickTstructStat, 0, 4⟩
def tickTstructStatLate : Fld := ⟨Reg.tickTstructStat, 4, 1⟩
def tickTstructStatPending : Fld := ⟨Reg.tickTstructStat, 5, 1⟩
def tickTstructStatBusy : Fld := ⟨Reg.tickTstructStat, 6, 1⟩
def tickTstructStatOverrun : Fld := ⟨Reg.tickTstructStat, 7, 1⟩
def tickTstructStatHead : Fld := ⟨Reg.tickTstructStat, 16, 7⟩
def tickGlcfgType : Fld := ⟨Reg.tickGlcfg, 0, 2⟩
def tickGlcfgMult : Fld := ⟨Reg.tickGlcfg, 2, 1⟩
def tickGlcfgGlofs : Fld := ⟨Reg.tickGlcfg, 8, 24⟩
def tickGlstatPresent : Fld := ⟨Reg.tickGlstat, 0, 1⟩
def tickGlstatMismatch : Fld := ⟨Reg.tickGlstat, 1, 1⟩
def tickGlstatPeriod : Fld := ⟨Reg.tickGlstat, 8, 24⟩
def tickPtpcfgDomain : Fld := ⟨Reg.tickPtpcfg, 0, 7⟩
def tickPtpcfgAnnTo : Fld := ⟨Reg.tickPtpcfg, 8, 4⟩
def tickPtpcfgPorts : Fld := ⟨Reg.tickPtpcfg, 16, 8⟩
def tickPhofsOfs (i : Nat) : Fld := ⟨Reg.tickPhofs i, 0, 32⟩
def tickShutstatCfgerr : Fld := ⟨Reg.tickShutstat, 0, 8⟩
def tickGldiffDiff : Fld := ⟨Reg.tickGldiff, 0, 32⟩
def tickShutCfgMode (i : Nat) : Fld := ⟨Reg.tickShutCfg i, 0, 2⟩
def tickShutCfgPol (i : Nat) : Fld := ⟨Reg.tickShutCfg i, 2, 1⟩
def tickShutCfgPhmask (i : Nat) : Fld := ⟨Reg.tickShutCfg i, 8, 8⟩
def tickShutCfgDiv (i : Nat) : Fld := ⟨Reg.tickShutCfg i, 16, 4⟩
def tickShutOfsOfs (i : Nat) : Fld := ⟨Reg.tickShutOfs i, 0, 32⟩
def tickShutWidthWidth (i : Nat) : Fld := ⟨Reg.tickShutWidth i, 0, 32⟩
def tickCommitSeq : Fld := ⟨Reg.tickCommit, 0, 16⟩
def tickCstatSeq : Fld := ⟨Reg.tickCstat, 0, 16⟩
def tickCstatCode : Fld := ⟨Reg.tickCstat, 16, 4⟩
def tickCstatBusy : Fld := ⟨Reg.tickCstat, 20, 1⟩
def tickCstatLate : Fld := ⟨Reg.tickCstat, 21, 1⟩
def tickCstatOverrun : Fld := ⟨Reg.tickCstat, 22, 1⟩
def tickCoffendLayer : Fld := ⟨Reg.tickCoffend, 0, 10⟩
def tickCoffendLvalid : Fld := ⟨Reg.tickCoffend, 10, 1⟩
def tickCoffendHead : Fld := ⟨Reg.tickCoffend, 16, 7⟩
def tickCoffendHvalid : Fld := ⟨Reg.tickCoffend, 23, 1⟩
def tickLatminUs : Fld := ⟨Reg.tickLatmin, 0, 16⟩
def tickCmaskHeads (i : Nat) : Fld := ⟨Reg.tickCmask i, 0, 32⟩
def pwrStatusState : Fld := ⟨Reg.pwrStatus, 0, 3⟩
def pwrStatusDusk : Fld := ⟨Reg.pwrStatus, 3, 1⟩
def pwrStatusDuskClk : Fld := ⟨Reg.pwrStatus, 4, 1⟩
def pwrStatusDuskThm : Fld := ⟨Reg.pwrStatus, 5, 1⟩
def pwrStatusDuskFrz : Fld := ⟨Reg.pwrStatus, 6, 1⟩
def pwrStatusDombusy : Fld := ⟨Reg.pwrStatus, 7, 1⟩
def pwrEventPwrDomain : Fld := ⟨Reg.pwrEvent, 0, 1⟩
def pwrEventPwrRefused : Fld := ⟨Reg.pwrEvent, 1, 1⟩
def pwrEventNoonChange : Fld := ⟨Reg.pwrEvent, 2, 1⟩
def pwrEventMidnightWake : Fld := ⟨Reg.pwrEvent, 3, 1⟩
def pwrEventMidnightRefused : Fld := ⟨Reg.pwrEvent, 4, 1⟩
def pwrEventPowerOffAccess : Fld := ⟨Reg.pwrEvent, 5, 1⟩
def pwrNoonEn : Fld := ⟨Reg.pwrNoon, 0, 1⟩
def pwrNoonMinj : Fld := ⟨Reg.pwrNoon, 8, 6⟩
def pwrNoonExitcause : Fld := ⟨Reg.pwrNoon, 24, 3⟩
def pwrEbucketMj : Fld := ⟨Reg.pwrEbucket, 0, 16⟩
def pwrPestW16 : Fld := ⟨Reg.pwrPest, 0, 12⟩
def pwrPestPeak : Fld := ⟨Reg.pwrPest, 16, 12⟩
def pwrPestClr : Fld := ⟨Reg.pwrPest, 31, 1⟩
def pwrMidnightEnter : Fld := ⟨Reg.pwrMidnight, 0, 1⟩
def pwrMidnightWake : Fld := ⟨Reg.pwrMidnight, 1, 1⟩
def pwrMidnightRefuse : Fld := ⟨Reg.pwrMidnight, 4, 4⟩
def pwrWakecfgIcu : Fld := ⟨Reg.pwrWakecfg, 0, 1⟩
def pwrWakecfgTime : Fld := ⟨Reg.pwrWakecfg, 1, 1⟩
def pwrWakecfgGpio : Fld := ⟨Reg.pwrWakecfg, 16, 16⟩
def pwrWakevecAddr : Fld := ⟨Reg.pwrWakevec, 0, 32⟩
def pwrRefuseDomain : Fld := ⟨Reg.pwrRefuse, 0, 7⟩
def pwrRefuseReason : Fld := ⟨Reg.pwrRefuse, 8, 4⟩
def pwrOffaccCount : Fld := ⟨Reg.pwrOffacc, 0, 16⟩
def pwrOffaccDomain : Fld := ⟨Reg.pwrOffacc, 16, 7⟩
def pwrDomctlDom (i : Nat) : Fld := ⟨Reg.pwrDomctl i, 0, 32⟩
def pwrDomstatDom (i : Nat) : Fld := ⟨Reg.pwrDomstat i, 0, 32⟩
def thmStatusStage : Fld := ⟨Reg.thmStatus, 0, 2⟩
def thmTjCur : Fld := ⟨Reg.thmTj, 0, 12⟩
def thmTjPeak : Fld := ⟨Reg.thmTj, 16, 12⟩
def thmTjClr : Fld := ⟨Reg.thmTj, 31, 1⟩
def thmCfgT1 : Fld := ⟨Reg.thmCfg, 0, 8⟩
def thmCfgT2 : Fld := ⟨Reg.thmCfg, 8, 8⟩
def thmCfgT3 : Fld := ⟨Reg.thmCfg, 16, 8⟩
def thmCfgHyst : Fld := ⟨Reg.thmCfg, 24, 4⟩
def thmShedMin : Fld := ⟨Reg.thmShed, 0, 4⟩
def thmShedStep : Fld := ⟨Reg.thmShed, 8, 8⟩
def thmShedLevel : Fld := ⟨Reg.thmShed, 16, 4⟩
def thmCtlDuskexit : Fld := ⟨Reg.thmCtl, 0, 1⟩
def thmEventThermalStage : Fld := ⟨Reg.thmEvent, 0, 1⟩
def thmEventThermSensor : Fld := ⟨Reg.thmEvent, 1, 1⟩
def thmEventSensor : Fld := ⟨Reg.thmEvent, 8, 4⟩
def thmSensfaultFault : Fld := ⟨Reg.thmSensfault, 0, 16⟩
def thmTriprecTripped : Fld := ⟨Reg.thmTriprec, 0, 1⟩
def thmTriprecTj : Fld := ⟨Reg.thmTriprec, 16, 12⟩
def thmSensValue (i : Nat) : Fld := ⟨Reg.thmSens i, 0, 12⟩
def icuDoorbellNum : Fld := ⟨Reg.icuDoorbell, 0, 10⟩
def icuStatusLastdb : Fld := ⟨Reg.icuStatus, 0, 10⟩
def icuStatusDbign : Fld := ⟨Reg.icuStatus, 16, 16⟩
def icuPendingBits (i : Nat) : Fld := ⟨Reg.icuPending i, 0, 32⟩
def icuEnableBits (i : Nat) : Fld := ⟨Reg.icuEnable i, 0, 32⟩
def icuSrcCfgPrio (i : Nat) : Fld := ⟨Reg.icuSrcCfg i, 0, 4⟩
def icuSrcCfgTmask (i : Nat) : Fld := ⟨Reg.icuSrcCfg i, 8, 8⟩
def icuTgtThreshLevel (i : Nat) : Fld := ⟨Reg.icuTgtThresh i, 0, 4⟩
def icuTgtClaimNum (i : Nat) : Fld := ⟨Reg.icuTgtClaim i, 0, 10⟩
def icuTgtClaimPrio (i : Nat) : Fld := ⟨Reg.icuTgtClaim i, 16, 4⟩
def icuTgtClaimValid (i : Nat) : Fld := ⟨Reg.icuTgtClaim i, 31, 1⟩
def icuTgtCompleteNum (i : Nat) : Fld := ⟨Reg.icuTgtComplete i, 0, 10⟩
def icuTgtStatIslevel (i : Nat) : Fld := ⟨Reg.icuTgtStat i, 0, 4⟩
def icuTgtStatLine (i : Nat) : Fld := ⟨Reg.icuTgtStat i, 4, 1⟩
def icuTgtStatSpur (i : Nat) : Fld := ⟨Reg.icuTgtStat i, 8, 8⟩
def icuTgtStatBadcomp (i : Nat) : Fld := ⟨Reg.icuTgtStat i, 16, 16⟩
def icuTgtInservLevels (i : Nat) : Fld := ⟨Reg.icuTgtInserv i, 0, 16⟩
def icuTgtInservTop (i : Nat) : Fld := ⟨Reg.icuTgtInserv i, 16, 10⟩
def headCtlEn (i : Nat) : Fld := ⟨Reg.headCtl i, 0, 1⟩
def headCtlGroup (i : Nat) : Fld := ⟨Reg.headCtl i, 1, 2⟩
def headCtlClone (i : Nat) : Fld := ⟨Reg.headCtl i, 3, 1⟩
def headCtlTwiK (i : Nat) : Fld := ⟨Reg.headCtl i, 5, 3⟩
def headCtlPhmask (i : Nat) : Fld := ⟨Reg.headCtl i, 8, 8⟩
def headCtlCloneSrc (i : Nat) : Fld := ⟨Reg.headCtl i, 16, 7⟩
def headCtlTwiIdle (i : Nat) : Fld := ⟨Reg.headCtl i, 24, 8⟩
def headHtimingHtotal (i : Nat) : Fld := ⟨Reg.headHtiming i, 0, 14⟩
def headHtimingHact (i : Nat) : Fld := ⟨Reg.headHtiming i, 16, 14⟩
def headVtimingVtotal (i : Nat) : Fld := ⟨Reg.headVtiming i, 0, 14⟩
def headVtimingVact (i : Nat) : Fld := ⟨Reg.headVtiming i, 16, 14⟩
def headBandVstart (i : Nat) : Fld := ⟨Reg.headBand i, 0, 14⟩
def headBandBsize (i : Nat) : Fld := ⟨Reg.headBand i, 16, 2⟩
def headBandLead (i : Nat) : Fld := ⟨Reg.headBand i, 20, 2⟩
def headBandDepth (i : Nat) : Fld := ⟨Reg.headBand i, 24, 5⟩
def headLinkDiv (i : Nat) : Fld := ⟨Reg.headLink i, 0, 8⟩
def headLinkSynth (i : Nat) : Fld := ⟨Reg.headLink i, 8, 1⟩
def headLinkEnc (i : Nat) : Fld := ⟨Reg.headLink i, 10, 2⟩
def headLinkLane (i : Nat) : Fld := ⟨Reg.headLink i, 12, 2⟩
def headLinkSlots (i : Nat) : Fld := ⟨Reg.headLink i, 16, 8⟩
def headProgTable (i : Nat) : Fld := ⟨Reg.headProg i, 0, 18⟩
def headCalTable (i : Nat) : Fld := ⟨Reg.headCal i, 0, 8⟩
def headCalBypMat (i : Nat) : Fld := ⟨Reg.headCal i, 8, 1⟩
def headCalBypLut (i : Nat) : Fld := ⟨Reg.headCal i, 9, 1⟩
def headFillR (i : Nat) : Fld := ⟨Reg.headFill i, 0, 10⟩
def headFillG (i : Nat) : Fld := ⟨Reg.headFill i, 10, 10⟩
def headFillB (i : Nat) : Fld := ⟨Reg.headFill i, 20, 10⟩
def headRbctlArm (i : Nat) : Fld := ⟨Reg.headRbctl i, 0, 1⟩
def headRbctlCancel (i : Nat) : Fld := ⟨Reg.headRbctl i, 1, 1⟩
def headRbctlDone (i : Nat) : Fld := ⟨Reg.headRbctl i, 2, 1⟩
def headRbctlPhase (i : Nat) : Fld := ⟨Reg.headRbctl i, 3, 3⟩
def headRbctlBand (i : Nat) : Fld := ⟨Reg.headRbctl i, 8, 10⟩
def headRbctlTicklo (i : Nat) : Fld := ⟨Reg.headRbctl i, 20, 12⟩
def headStatusState (i : Nat) : Fld := ⟨Reg.headStatus i, 0, 3⟩
def headStatusArmed (i : Nat) : Fld := ⟨Reg.headStatus i, 3, 1⟩
def headStatusTwiBlock (i : Nat) : Fld := ⟨Reg.headStatus i, 4, 1⟩
def headStatusLattol (i : Nat) : Fld := ⟨Reg.headStatus i, 16, 16⟩
def headEventCommitApplied (i : Nat) : Fld := ⟨Reg.headEvent i, 0, 1⟩
def headEventCommitReject (i : Nat) : Fld := ⟨Reg.headEvent i, 1, 1⟩
def headEventCommitLate (i : Nat) : Fld := ⟨Reg.headEvent i, 2, 1⟩
def headEventCommitOverrun (i : Nat) : Fld := ⟨Reg.headEvent i, 3, 1⟩
def headEventBandLate (i : Nat) : Fld := ⟨Reg.headEvent i, 4, 1⟩
def headEventLayerNotReady (i : Nat) : Fld := ⟨Reg.headEvent i, 5, 1⟩
def headEventRetimeDone (i : Nat) : Fld := ⟨Reg.headEvent i, 6, 1⟩
def headEventTwilight (i : Nat) : Fld := ⟨Reg.headEvent i, 7, 1⟩
def headEventReadbackDone (i : Nat) : Fld := ⟨Reg.headEvent i, 8, 1⟩
def headEventClamp (i : Nat) : Fld := ⟨Reg.headEvent i, 9, 1⟩
def headEventNrlayer (i : Nat) : Fld := ⟨Reg.headEvent i, 16, 10⟩
def headCountLatecnt (i : Nat) : Fld := ⟨Reg.headCount i, 0, 16⟩
def headCountClampcnt (i : Nat) : Fld := ⟨Reg.headCount i, 16, 16⟩
def layerCtlEn (i : Nat) : Fld := ⟨Reg.layerCtl i, 0, 1⟩
def layerCtlKind (i : Nat) : Fld := ⟨Reg.layerCtl i, 1, 1⟩
def layerCtlStatic (i : Nat) : Fld := ⟨Reg.layerCtl i, 2, 1⟩
def layerCtlShed (i : Nat) : Fld := ⟨Reg.layerCtl i, 3, 1⟩
def layerCtlShedpri (i : Nat) : Fld := ⟨Reg.layerCtl i, 4, 3⟩
def layerCtlPhmask (i : Nat) : Fld := ⟨Reg.layerCtl i, 8, 8⟩
def layerCtlOwner (i : Nat) : Fld := ⟨Reg.layerCtl i, 16, 7⟩
def layerCtlPolicy (i : Nat) : Fld := ⟨Reg.layerCtl i, 24, 2⟩
def layerCtlWaitn (i : Nat) : Fld := ⟨Reg.layerCtl i, 26, 4⟩
def layerSrcType (i : Nat) : Fld := ⟨Reg.layerSrc i, 0, 2⟩
def layerSrcIdx (i : Nat) : Fld := ⟨Reg.layerSrc i, 8, 8⟩
def layerSrcFormat (i : Nat) : Fld := ⟨Reg.layerSrc i, 16, 5⟩
def layerSrcPal (i : Nat) : Fld := ⟨Reg.layerSrc i, 24, 4⟩
def layerPitchPitch (i : Nat) : Fld := ⟨Reg.layerPitch i, 0, 20⟩
def layerSrcorgSx (i : Nat) : Fld := ⟨Reg.layerSrcorg i, 0, 14⟩
def layerSrcorgSy (i : Nat) : Fld := ⟨Reg.layerSrcorg i, 16, 14⟩
def layerSrcsizeSw (i : Nat) : Fld := ⟨Reg.layerSrcsize i, 0, 14⟩
def layerSrcsizeSh (i : Nat) : Fld := ⟨Reg.layerSrcsize i, 16, 14⟩
def layerDstposX (i : Nat) : Fld := ⟨Reg.layerDstpos i, 0, 16⟩
def layerDstposY (i : Nat) : Fld := ⟨Reg.layerDstpos i, 16, 16⟩
def layerDstsizeDw (i : Nat) : Fld := ⟨Reg.layerDstsize i, 0, 14⟩
def layerDstsizeDh (i : Nat) : Fld := ⟨Reg.layerDstsize i, 16, 14⟩
def layerZblendZ (i : Nat) : Fld := ⟨Reg.layerZblend i, 0, 10⟩
def layerZblendDomain (i : Nat) : Fld := ⟨Reg.layerZblend i, 10, 1⟩
def layerZblendMode (i : Nat) : Fld := ⟨Reg.layerZblend i, 11, 3⟩
def layerZblendAsrc (i : Nat) : Fld := ⟨Reg.layerZblend i, 14, 2⟩
def layerZblendConst (i : Nat) : Fld := ⟨Reg.layerZblend i, 16, 16⟩
def layerRdyFidx (i : Nat) : Fld := ⟨Reg.layerRdy i, 0, 10⟩
def layerRdyFen (i : Nat) : Fld := ⟨Reg.layerRdy i, 10, 1⟩
def layerRdyFval (i : Nat) : Fld := ⟨Reg.layerRdy i, 16, 16⟩
def layerFillrgR (i : Nat) : Fld := ⟨Reg.layerFillrg i, 0, 16⟩
def layerFillrgG (i : Nat) : Fld := ⟨Reg.layerFillrg i, 16, 16⟩
def layerFillbaB (i : Nat) : Fld := ⟨Reg.layerFillba i, 0, 16⟩
def layerFillbaA (i : Nat) : Fld := ⟨Reg.layerFillba i, 16, 16⟩
def layerPbindEn (i : Nat) : Fld := ⟨Reg.layerPbind i, 0, 1⟩
def layerPbindMode (i : Nat) : Fld := ⟨Reg.layerPbind i, 1, 1⟩
def layerPbindSrc (i : Nat) : Fld := ⟨Reg.layerPbind i, 8, 7⟩
def layerPbindStale (i : Nat) : Fld := ⟨Reg.layerPbind i, 16, 16⟩
def layerWarpSkew (i : Nat) : Fld := ⟨Reg.layerWarp i, 0, 6⟩
def layerWarpRaden (i : Nat) : Fld := ⟨Reg.layerWarp i, 6, 1⟩
def layerWarpHmarg (i : Nat) : Fld := ⟨Reg.layerWarp i, 8, 8⟩
def layerWarpRadk (i : Nat) : Fld := ⟨Reg.layerWarp i, 16, 16⟩
def layerStatusReady (i : Nat) : Fld := ⟨Reg.layerStatus i, 0, 1⟩
def layerStatusShown (i : Nat) : Fld := ⟨Reg.layerStatus i, 1, 1⟩
def layerStatusFlat (i : Nat) : Fld := ⟨Reg.layerStatus i, 2, 1⟩
def layerStatusShedded (i : Nat) : Fld := ⟨Reg.layerStatus i, 3, 1⟩
def layerStatusWaiting (i : Nat) : Fld := ⟨Reg.layerStatus i, 4, 1⟩
def layerStatusNrcnt (i : Nat) : Fld := ⟨Reg.layerStatus i, 16, 16⟩
def layerDefxfCoef (i j : Nat) : Fld := ⟨Reg.layerDefxf i j, 0, 32⟩
def layerColorEotf (i : Nat) : Fld := ⟨Reg.layerColor i, 0, 3⟩
def layerColorRange (i : Nat) : Fld := ⟨Reg.layerColor i, 3, 1⟩
def layerColorMatEn (i : Nat) : Fld := ⟨Reg.layerColor i, 4, 1⟩
def layerColorTone (i : Nat) : Fld := ⟨Reg.layerColor i, 5, 2⟩
def layerColorElut (i : Nat) : Fld := ⟨Reg.layerColor i, 8, 4⟩
def layerColorTlut (i : Nat) : Fld := ⟨Reg.layerColor i, 12, 8⟩
def layerColorPrim (i : Nat) : Fld := ⟨Reg.layerColor i, 20, 4⟩
def layerGamutCoef (i j : Nat) : Fld := ⟨Reg.layerGamut i j, 0, 19⟩
def layerFenceValue (i : Nat) : Fld := ⟨Reg.layerFence i, 0, 16⟩
def layerPal0R (i j : Nat) : Fld := ⟨Reg.layerPal0 i j, 0, 16⟩
def layerPal0G (i j : Nat) : Fld := ⟨Reg.layerPal0 i j, 16, 16⟩
def layerPal1B (i j : Nat) : Fld := ⟨Reg.layerPal1 i j, 0, 16⟩
def layerPal1A (i j : Nat) : Fld := ⟨Reg.layerPal1 i j, 16, 16⟩
def grpStatusQdepth (i : Nat) : Fld := ⟨Reg.grpStatus i, 0, 7⟩
def grpStatusBusy (i : Nat) : Fld := ⟨Reg.grpStatus i, 7, 1⟩
def grpStatusRebuild (i : Nat) : Fld := ⟨Reg.grpStatus i, 8, 1⟩
def grpEventPstoreParity (i : Nat) : Fld := ⟨Reg.grpEvent i, 0, 1⟩
def grpEventPstoreInuse (i : Nat) : Fld := ⟨Reg.grpEvent i, 1, 1⟩
def grpEventStallLimit (i : Nat) : Fld := ⟨Reg.grpEvent i, 2, 1⟩
def grpEventHead (i : Nat) : Fld := ⟨Reg.grpEvent i, 16, 7⟩
def grpPaddrOffset (i : Nat) : Fld := ⟨Reg.grpPaddr i, 0, 18⟩
def grpPaddrKind (i : Nat) : Fld := ⟨Reg.grpPaddr i, 18, 1⟩
def grpPcheckIndex (i : Nat) : Fld := ⟨Reg.grpPcheck i, 0, 14⟩
def grpPcheckRule (i : Nat) : Fld := ⟨Reg.grpPcheck i, 14, 4⟩
def grpPcheckPhase (i : Nat) : Fld := ⟨Reg.grpPcheck i, 18, 3⟩
def grpPcheckHead (i : Nat) : Fld := ⟨Reg.grpPcheck i, 22, 7⟩
def grpStallthrCycles (i : Nat) : Fld := ⟨Reg.grpStallthr i, 0, 24⟩
def grpStallmaxCycles (i : Nat) : Fld := ⟨Reg.grpStallmax i, 0, 24⟩
def grpStallmaxHead (i : Nat) : Fld := ⟨Reg.grpStallmax i, 24, 7⟩
def grpAbandonCount (i : Nat) : Fld := ⟨Reg.grpAbandon i, 0, 16⟩
def sclStatusWarpLimit (i : Nat) : Fld := ⟨Reg.sclStatus i, 0, 1⟩
def sclStatusLayer (i : Nat) : Fld := ⟨Reg.sclStatus i, 16, 10⟩
def sclCountBands (i : Nat) : Fld := ⟨Reg.sclCount i, 0, 16⟩
def sclCountWlimcnt (i : Nat) : Fld := ⟨Reg.sclCount i, 16, 16⟩
def poseCtlEn : Fld := ⟨Reg.poseCtl, 0, 1⟩
def poseNetcfgUdpport : Fld := ⟨Reg.poseNetcfg, 0, 16⟩
def poseNetcfgPorts : Fld := ⟨Reg.poseNetcfg, 16, 8⟩
def poseStatPoseStale : Fld := ⟨Reg.poseStat, 0, 1⟩
def poseStatPoseFresh : Fld := ⟨Reg.poseStat, 1, 1⟩
def poseStatPoseBadref : Fld := ⟨Reg.poseStat, 2, 1⟩
def poseStatPoseSeq : Fld := ⟨Reg.poseStat, 3, 1⟩
def poseStatPoseMalformed : Fld := ⟨Reg.poseStat, 4, 1⟩
def poseStatSource : Fld := ⟨Reg.poseStat, 5, 7⟩
def poseStatLayer : Fld := ⟨Reg.poseStat, 16, 10⟩
def poseTrcctlLayer : Fld := ⟨Reg.poseTrcctl, 0, 10⟩
def poseTrcctlEn : Fld := ⟨Reg.poseTrcctl, 10, 1⟩
def poseTrcseqSeq : Fld := ⟨Reg.poseTrcseq, 0, 16⟩
def poseTrcseqFallback : Fld := ⟨Reg.poseTrcseq, 16, 1⟩
def poseTrcseqValid : Fld := ⟨Reg.poseTrcseq, 17, 1⟩
def poseStalemapStale (i : Nat) : Fld := ⟨Reg.poseStalemap i, 0, 32⟩
def poseSerCfgDiv (i : Nat) : Fld := ⟨Reg.poseSerCfg i, 0, 16⟩
def poseSerCfgEn (i : Nat) : Fld := ⟨Reg.poseSerCfg i, 16, 1⟩
def poseSerCfgDuplex (i : Nat) : Fld := ⟨Reg.poseSerCfg i, 17, 1⟩
def poseSerCfgPoll (i : Nat) : Fld := ⟨Reg.poseSerCfg i, 18, 1⟩
def poseSerCfgPolliv (i : Nat) : Fld := ⟨Reg.poseSerCfg i, 20, 12⟩
def poseSerStatFramerr (i : Nat) : Fld := ⟨Reg.poseSerStat i, 0, 16⟩
def poseSerStatSyncloss (i : Nat) : Fld := ⟨Reg.poseSerStat i, 16, 16⟩
def poseSrcCfgEn (i : Nat) : Fld := ⟨Reg.poseSrcCfg i, 0, 1⟩
def poseSrcCfgIpf (i : Nat) : Fld := ⟨Reg.poseSrcCfg i, 1, 1⟩
def poseSrcIpaddrAddr (i : Nat) : Fld := ⟨Reg.poseSrcIpaddr i, 0, 32⟩
def poseSrcStatSeq (i : Nat) : Fld := ⟨Reg.poseSrcStat i, 0, 16⟩
def poseSrcStatValid (i : Nat) : Fld := ⟨Reg.poseSrcStat i, 16, 1⟩
def poseSrcCountAccept (i : Nat) : Fld := ⟨Reg.poseSrcCount i, 0, 16⟩
def poseSrcCountOos (i : Nat) : Fld := ⟨Reg.poseSrcCount i, 16, 16⟩
def poseSrcBadMalf (i : Nat) : Fld := ⟨Reg.poseSrcBad i, 0, 16⟩
def poseSrcBadResync (i : Nat) : Fld := ⟨Reg.poseSrcBad i, 16, 16⟩
def poseSrcDistDist (i : Nat) : Fld := ⟨Reg.poseSrcDist i, 0, 32⟩
def poseSrcKCoef (i j : Nat) : Fld := ⟨Reg.poseSrcK i j, 0, 32⟩
def poseSrcKinvCoef (i j : Nat) : Fld := ⟨Reg.poseSrcKinv i j, 0, 32⟩
def poseSrcPmatCoef (i j : Nat) : Fld := ⟨Reg.poseSrcPmat i j, 0, 32⟩
def poseSrcLastData (i j : Nat) : Fld := ⟨Reg.poseSrcLast i j, 0, 32⟩
def dmcCtlSren : Fld := ⟨Reg.dmcCtl, 0, 1⟩
def dmcCtlDlyvalid1 : Fld := ⟨Reg.dmcCtl, 1, 1⟩
def dmcStatusFrozen : Fld := ⟨Reg.dmcStatus, 0, 1⟩
def dmcStatusFsp : Fld := ⟨Reg.dmcStatus, 1, 1⟩
def dmcStatusFreqbusy : Fld := ⟨Reg.dmcStatus, 2, 1⟩
def dmcStatusHot : Fld := ⟨Reg.dmcStatus, 3, 1⟩
def dmcStatusSrmap : Fld := ⟨Reg.dmcStatus, 16, 16⟩
def dmcFreqTarget : Fld := ⟨Reg.dmcFreq, 0, 1⟩
def dmcFreqReq : Fld := ⟨Reg.dmcFreq, 1, 1⟩
def dmcFreqCancel : Fld := ⟨Reg.dmcFreq, 2, 1⟩
def dmcMapOrder : Fld := ⟨Reg.dmcMap, 0, 2⟩
def dmcMapDensity : Fld := ⟨Reg.dmcMap, 4, 2⟩
def dmcSrexitNs : Fld := ⟨Reg.dmcSrexit, 0, 16⟩
def dmcMr4ivUs : Fld := ⟨Reg.dmcMr4iv, 0, 16⟩
def dmcRefcfgTrefipb : Fld := ⟨Reg.dmcRefcfg, 0, 12⟩
def dmcRefcfgTrfcpb : Fld := ⟨Reg.dmcRefcfg, 16, 8⟩
def dmcRefcfgTpbr : Fld := ⟨Reg.dmcRefcfg, 24, 8⟩
def dmcPanicmapPorts : Fld := ⟨Reg.dmcPanicmap, 0, 28⟩
def dmcTraincapStart : Fld := ⟨Reg.dmcTraincap, 0, 1⟩
def dmcTraincapBusy : Fld := ⟨Reg.dmcTraincap, 1, 1⟩
def dmcTraincapDone : Fld := ⟨Reg.dmcTraincap, 2, 1⟩
def dmcTraincapAborted : Fld := ⟨Reg.dmcTraincap, 3, 1⟩
def dmcTraincapCh : Fld := ⟨Reg.dmcTraincap, 4, 4⟩
def dmcTraincapLane : Fld := ⟨Reg.dmcTraincap, 8, 1⟩
def dmcTraincapAxis : Fld := ⟨Reg.dmcTraincap, 9, 1⟩
def dmcTraincapDwell : Fld := ⟨Reg.dmcTraincap, 16, 8⟩
def dmcTraincapPts : Fld := ⟨Reg.dmcTraincap, 24, 7⟩
def dmcTrainrngFrom : Fld := ⟨Reg.dmcTrainrng, 0, 10⟩
def dmcTrainrngStep : Fld := ⟨Reg.dmcTrainrng, 12, 4⟩
def dmcTrainrngTo : Fld := ⟨Reg.dmcTrainrng, 16, 10⟩
def dmcFreezeFrozen : Fld := ⟨Reg.dmcFreeze, 0, 1⟩
def dmcFreezeCause : Fld := ⟨Reg.dmcFreeze, 1, 2⟩
def dmcFreezeChvalid : Fld := ⟨Reg.dmcFreeze, 3, 1⟩
def dmcFreezeCh : Fld := ⟨Reg.dmcFreeze, 4, 4⟩
def dmcFreezeReq : Fld := ⟨Reg.dmcFreeze, 8, 6⟩
def dmcFreezeCmd : Fld := ⟨Reg.dmcFreeze, 16, 3⟩
def dmcCregBaseMib (i : Nat) : Fld := ⟨Reg.dmcCregBase i, 0, 17⟩
def dmcCregBaseEn (i : Nat) : Fld := ⟨Reg.dmcCregBase i, 31, 1⟩
def dmcCregSizeSize8 (i : Nat) : Fld := ⟨Reg.dmcCregSize i, 0, 13⟩
def dmcPortWmlo (i : Nat) : Fld := ⟨Reg.dmcPort i, 0, 10⟩
def dmcPortWmhi (i : Nat) : Fld := ⟨Reg.dmcPort i, 16, 10⟩
def dmcPortPanic (i : Nat) : Fld := ⟨Reg.dmcPort i, 31, 1⟩
def dmcTrainresErrs (i : Nat) : Fld := ⟨Reg.dmcTrainres i, 0, 16⟩
def dmcTrainresBits (i : Nat) : Fld := ⟨Reg.dmcTrainres i, 16, 8⟩
def dmcChStatusSelfref (i : Nat) : Fld := ⟨Reg.dmcChStatus i, 0, 1⟩
def dmcChStatusHot (i : Nat) : Fld := ⟨Reg.dmcChStatus i, 1, 1⟩
def dmcChStatusOwed (i : Nat) : Fld := ⟨Reg.dmcChStatus i, 2, 4⟩
def dmcChStatusSrdeny (i : Nat) : Fld := ⟨Reg.dmcChStatus i, 6, 1⟩
def dmcChEventEccCe (i : Nat) : Fld := ⟨Reg.dmcChEvent i, 0, 1⟩
def dmcChEventDmcFreeze (i : Nat) : Fld := ⟨Reg.dmcChEvent i, 1, 1⟩
def dmcChEventRefForced (i : Nat) : Fld := ⟨Reg.dmcChEvent i, 2, 1⟩
def dmcChEventTempHigh (i : Nat) : Fld := ⟨Reg.dmcChEvent i, 3, 1⟩
def dmcChEventActThrottle (i : Nat) : Fld := ⟨Reg.dmcChEvent i, 4, 1⟩
def dmcChEventTraincapDone (i : Nat) : Fld := ⟨Reg.dmcChEvent i, 5, 1⟩
def dmcChEventFreqDone (i : Nat) : Fld := ⟨Reg.dmcChEvent i, 6, 1⟩
def dmcChEventFreqReject (i : Nat) : Fld := ⟨Reg.dmcChEvent i, 7, 1⟩
def dmcChEccCe (i : Nat) : Fld := ⟨Reg.dmcChEcc i, 0, 16⟩
def dmcChSridleNs (i : Nat) : Fld := ⟨Reg.dmcChSridle i, 0, 16⟩
def dmcChRhcfgActthr (i : Nat) : Fld := ⟨Reg.dmcChRhcfg i, 0, 16⟩
def dmcChRhcfgThriv (i : Nat) : Fld := ⟨Reg.dmcChRhcfg i, 16, 16⟩
def dmcChRhwinUs (i : Nat) : Fld := ⟨Reg.dmcChRhwin i, 0, 16⟩
def dmcChRhstatBank (i : Nat) : Fld := ⟨Reg.dmcChRhstat i, 0, 4⟩
def dmcChRhstatReq (i : Nat) : Fld := ⟨Reg.dmcChRhstat i, 4, 6⟩
def dmcChRhstatRow (i : Nat) : Fld := ⟨Reg.dmcChRhstat i, 15, 17⟩
def dmcChDlyRdqs (i j k : Nat) : Fld := ⟨Reg.dmcChDly i j k, 0, 10⟩
def dmcChDlyWdq (i j k : Nat) : Fld := ⟨Reg.dmcChDly i j k, 16, 10⟩
def dmcChVrefRv0 (i j : Nat) : Fld := ⟨Reg.dmcChVref i j, 0, 7⟩
def dmcChVrefRv1 (i j : Nat) : Fld := ⟨Reg.dmcChVref i j, 8, 7⟩
def dmcChVrefWv (i j : Nat) : Fld := ⟨Reg.dmcChVref i j, 16, 7⟩
def dmcChCadlyCa (i j : Nat) : Fld := ⟨Reg.dmcChCadly i j, 0, 10⟩
def cxlLinkWidth : Fld := ⟨Reg.cxlLink, 0, 5⟩
def cxlLinkRate : Fld := ⟨Reg.cxlLink, 5, 2⟩
def cxlLinkL0 : Fld := ⟨Reg.cxlLink, 7, 1⟩
def cxlLinkFlit256 : Fld := ⟨Reg.cxlLink, 8, 1⟩
def cxlLinkRetrains : Fld := ⟨Reg.cxlLink, 16, 16⟩
def cxlRtcfgLat : Fld := ⟨Reg.cxlRtcfg, 0, 16⟩
def cxlRtstatLatmax : Fld := ⟨Reg.cxlRtstat, 0, 16⟩
def cxlRtstatClr : Fld := ⟨Reg.cxlRtstat, 31, 1⟩
def cxlBudgetRdshare : Fld := ⟨Reg.cxlBudget, 0, 16⟩
def cxlBudgetWrshare : Fld := ⟨Reg.cxlBudget, 16, 16⟩
def cxlLtrValue : Fld := ⟨Reg.cxlLtr, 0, 10⟩
def cxlLtrScale : Fld := ⟨Reg.cxlLtr, 10, 3⟩
def cxlLtrReq : Fld := ⟨Reg.cxlLtr, 13, 1⟩
def cxlLtrSent : Fld := ⟨Reg.cxlLtr, 16, 16⟩
def cxlEventLinkState : Fld := ⟨Reg.cxlEvent, 0, 1⟩
def cxlEventCxlDegraded : Fld := ⟨Reg.cxlEvent, 1, 1⟩
def cxlEventCxlLatexceed : Fld := ⟨Reg.cxlEvent, 2, 1⟩
def cxlEventCxlRderr : Fld := ⟨Reg.cxlEvent, 3, 1⟩
def cxlEventHdmPoison : Fld := ⟨Reg.cxlEvent, 4, 1⟩
def cxlRderrLayer : Fld := ⟨Reg.cxlRderr, 0, 10⟩
def cxlRderrLvalid : Fld := ⟨Reg.cxlRderr, 10, 1⟩
def cxlRderrKind : Fld := ⟨Reg.cxlRderr, 11, 2⟩
def cxlVgrpFunc (i : Nat) : Fld := ⟨Reg.cxlVgrp i, 0, 3⟩
def cxlVgrpEntry (i : Nat) : Fld := ⟨Reg.cxlVgrp i, 4, 2⟩
def dmaCtlReset : Fld := ⟨Reg.dmaCtl, 0, 1⟩
def dmaStatusHalted : Fld := ⟨Reg.dmaStatus, 0, 1⟩
def dmaStatusBusy : Fld := ⟨Reg.dmaStatus, 16, 16⟩
def dmaErrCh : Fld := ⟨Reg.dmaErr, 0, 4⟩
def dmaErrCause : Fld := ⟨Reg.dmaErr, 4, 3⟩
def dmaErrDir : Fld := ⟨Reg.dmaErr, 7, 1⟩
def dmaChCfgEn (i : Nat) : Fld := ⟨Reg.dmaChCfg i, 0, 1⟩
def dmaChCfgRingmem (i : Nat) : Fld := ⟨Reg.dmaChCfg i, 1, 1⟩
def dmaChCfgResume (i : Nat) : Fld := ⟨Reg.dmaChCfg i, 2, 1⟩
def dmaChCfgSkip (i : Nat) : Fld := ⟨Reg.dmaChCfg i, 3, 1⟩
def dmaChCfgRingsz (i : Nat) : Fld := ⟨Reg.dmaChCfg i, 8, 4⟩
def dmaChCfgFunc (i : Nat) : Fld := ⟨Reg.dmaChCfg i, 12, 3⟩
def dmaChCfgWeight (i : Nat) : Fld := ⟨Reg.dmaChCfg i, 16, 4⟩
def dmaChHeadidxIndex (i : Nat) : Fld := ⟨Reg.dmaChHeadidx i, 0, 12⟩
def dmaChTailidxIndex (i : Nat) : Fld := ⟨Reg.dmaChTailidx i, 0, 12⟩
def dmaChStatusHalted (i : Nat) : Fld := ⟨Reg.dmaChStatus i, 0, 1⟩
def dmaChStatusBusy (i : Nat) : Fld := ⟨Reg.dmaChStatus i, 1, 1⟩
def dmaChStatusErrcode (i : Nat) : Fld := ⟨Reg.dmaChStatus i, 4, 4⟩
def dmaChEventDmaDone (i : Nat) : Fld := ⟨Reg.dmaChEvent i, 0, 1⟩
def dmaChEventDmaError (i : Nat) : Fld := ⟨Reg.dmaChEvent i, 1, 1⟩
def dmaChEventDmaHalted (i : Nat) : Fld := ⟨Reg.dmaChEvent i, 2, 1⟩
def dmaChEventDmaIdle (i : Nat) : Fld := ⟨Reg.dmaChEvent i, 3, 1⟩
def dmaChDonecntCount (i : Nat) : Fld := ⟨Reg.dmaChDonecnt i, 0, 32⟩
def bltCtlEn : Fld := ⟨Reg.bltCtl, 0, 1⟩
def bltCtlResume : Fld := ⟨Reg.bltCtl, 1, 1⟩
def bltCtlSkip : Fld := ⟨Reg.bltCtl, 2, 1⟩
def bltCtlReset : Fld := ⟨Reg.bltCtl, 3, 1⟩
def bltCtlRingmem : Fld := ⟨Reg.bltCtl, 4, 1⟩
def bltCtlRingsz : Fld := ⟨Reg.bltCtl, 8, 4⟩
def bltStatusHalted : Fld := ⟨Reg.bltStatus, 0, 1⟩
def bltStatusBusy : Fld := ⟨Reg.bltStatus, 1, 1⟩
def bltStatusDir : Fld := ⟨Reg.bltStatus, 2, 1⟩
def bltStatusErrcode : Fld := ⟨Reg.bltStatus, 4, 4⟩
def bltHeadidxIndex : Fld := ⟨Reg.bltHeadidx, 0, 12⟩
def bltTailidxIndex : Fld := ⟨Reg.bltTailidx, 0, 12⟩
def bltWatermarkRows : Fld := ⟨Reg.bltWatermark, 0, 16⟩
def bltRowsRows : Fld := ⟨Reg.bltRows, 0, 16⟩
def bltEventBltDone : Fld := ⟨Reg.bltEvent, 0, 1⟩
def bltEventBltWatermark : Fld := ⟨Reg.bltEvent, 1, 1⟩
def bltEventBltError : Fld := ⟨Reg.bltEvent, 2, 1⟩
def bltEventBltIdle : Fld := ⟨Reg.bltEvent, 3, 1⟩
def bltClampcntCount : Fld := ⟨Reg.bltClampcnt, 0, 32⟩
def bltGamutCoef (i j : Nat) : Fld := ⟨Reg.bltGamut i j, 0, 19⟩
def netCfgMode : Fld := ⟨Reg.netCfg, 0, 2⟩
def netIbufYthr : Fld := ⟨Reg.netIbuf, 0, 10⟩
def netIbufFill : Fld := ⟨Reg.netIbuf, 16, 11⟩
def netIbstatYdrop : Fld := ⟨Reg.netIbstat, 0, 16⟩
def netIbstatOvf : Fld := ⟨Reg.netIbstat, 16, 16⟩
def netEvstatFlowLoss : Fld := ⟨Reg.netEvstat, 0, 1⟩
def netEvstatRingFull : Fld := ⟨Reg.netEvstat, 1, 1⟩
def netEvstatFlowMalf : Fld := ⟨Reg.netEvstat, 2, 1⟩
def netEvstatIngestOverflow : Fld := ⟨Reg.netEvstat, 3, 1⟩
def netEvstatHevcAuDrop : Fld := ⟨Reg.netEvstat, 4, 1⟩
def netEvstatFwrxAvail : Fld := ⟨Reg.netEvstat, 5, 1⟩
def netEvstatFlow : Fld := ⟨Reg.netEvstat, 16, 8⟩
def netEvstatLink : Fld := ⟨Reg.netEvstat, 24, 8⟩
def netDscpmapColor (i : Nat) : Fld := ⟨Reg.netDscpmap i, 0, 32⟩
def netFwrxctlEn : Fld := ⟨Reg.netFwrxctl, 0, 1⟩
def netFwrxctlAll : Fld := ⟨Reg.netFwrxctl, 1, 1⟩
def netFwrxctlRingsz : Fld := ⟨Reg.netFwrxctl, 8, 4⟩
def netFwrxctlDrop : Fld := ⟨Reg.netFwrxctl, 16, 16⟩
def netFwrxheadIndex : Fld := ⟨Reg.netFwrxhead, 0, 10⟩
def netFwrxtailIndex : Fld := ⟨Reg.netFwrxtail, 0, 10⟩
def netPortCfgEn (i : Nat) : Fld := ⟨Reg.netPortCfg i, 0, 1⟩
def netPortCfgMedia (i : Nat) : Fld := ⟨Reg.netPortCfg i, 1, 2⟩
def netPortCfgRxlat (i : Nat) : Fld := ⟨Reg.netPortCfg i, 16, 8⟩
def netPortCfgTxlat (i : Nat) : Fld := ⟨Reg.netPortCfg i, 24, 8⟩
def netPortStatLink (i : Nat) : Fld := ⟨Reg.netPortStat i, 0, 1⟩
def netPortStatFeclock (i : Nat) : Fld := ⟨Reg.netPortStat i, 1, 1⟩
def netPortStatTrained (i : Nat) : Fld := ⟨Reg.netPortStat i, 2, 1⟩
def netPortFcserrCount (i : Nat) : Fld := ⟨Reg.netPortFcserr i, 0, 32⟩
def netPortDropCount (i : Nat) : Fld := ⟨Reg.netPortDrop i, 0, 32⟩
def netPortPauseCount (i : Nat) : Fld := ⟨Reg.netPortPause i, 0, 32⟩
def netFlowCtlEn (i : Nat) : Fld := ⟨Reg.netFlowCtl i, 0, 1⟩
def netFlowCtlKind (i : Nat) : Fld := ⟨Reg.netFlowCtl i, 1, 2⟩
def netFlowCtlSrcen (i : Nat) : Fld := ⟨Reg.netFlowCtl i, 3, 1⟩
def netFlowCtlVlanen (i : Nat) : Fld := ⟨Reg.netFlowCtl i, 4, 1⟩
def netFlowCtlCaware (i : Nat) : Fld := ⟨Reg.netFlowCtl i, 5, 1⟩
def netFlowCtlLosspol (i : Nat) : Fld := ⟨Reg.netFlowCtl i, 6, 1⟩
def netFlowCtlPorts (i : Nat) : Fld := ⟨Reg.netFlowCtl i, 8, 8⟩
def netFlowCtlVlan (i : Nat) : Fld := ⟨Reg.netFlowCtl i, 16, 12⟩
def netFlowDstipAddr (i : Nat) : Fld := ⟨Reg.netFlowDstip i, 0, 32⟩
def netFlowSrcipAddr (i : Nat) : Fld := ⟨Reg.netFlowSrcip i, 0, 32⟩
def netFlowUdpDport (i : Nat) : Fld := ⟨Reg.netFlowUdp i, 0, 16⟩
def netFlowUdpPt (i : Nat) : Fld := ⟨Reg.netFlowUdp i, 16, 7⟩
def netFlowUdpPten (i : Nat) : Fld := ⟨Reg.netFlowUdp i, 23, 1⟩
def netFlowUdpCtx (i : Nat) : Fld := ⟨Reg.netFlowUdp i, 24, 5⟩
def netFlowCirValue (i : Nat) : Fld := ⟨Reg.netFlowCir i, 0, 24⟩
def netFlowPirValue (i : Nat) : Fld := ⟨Reg.netFlowPir i, 0, 24⟩
def netFlowCbsValue (i : Nat) : Fld := ⟨Reg.netFlowCbs i, 0, 24⟩
def netFlowPbsValue (i : Nat) : Fld := ⟨Reg.netFlowPbs i, 0, 24⟩
def netFlowGeomWidth (i : Nat) : Fld := ⟨Reg.netFlowGeom i, 0, 14⟩
def netFlowGeomHeight (i : Nat) : Fld := ⟨Reg.netFlowGeom i, 16, 14⟩
def netFlowPitchBytes (i : Nat) : Fld := ⟨Reg.netFlowPitch i, 0, 32⟩
def netFlowStrideBytes (i : Nat) : Fld := ⟨Reg.netFlowStride i, 0, 32⟩
def netFlowFmtSamp (i : Nat) : Fld := ⟨Reg.netFlowFmt i, 0, 2⟩
def netFlowFmtDepth (i : Nat) : Fld := ⟨Reg.netFlowFmt i, 2, 1⟩
def netFlowFmtNslot (i : Nat) : Fld := ⟨Reg.netFlowFmt i, 4, 4⟩
def netFlowFmtTmo (i : Nat) : Fld := ⟨Reg.netFlowFmt i, 16, 16⟩
def netFlowWofsOfs (i : Nat) : Fld := ⟨Reg.netFlowWofs i, 0, 32⟩
def netFcntGreenCount (i : Nat) : Fld := ⟨Reg.netFcntGreen i, 0, 32⟩
def netFcntYellowCount (i : Nat) : Fld := ⟨Reg.netFcntYellow i, 0, 32⟩
def netFcntRedCount (i : Nat) : Fld := ⟨Reg.netFcntRed i, 0, 32⟩
def netFcntLostCount (i : Nat) : Fld := ⟨Reg.netFcntLost i, 0, 32⟩
def netFlowStatLastslot (i : Nat) : Fld := ⟨Reg.netFlowStat i, 0, 4⟩
def netFlowStatOpen (i : Nat) : Fld := ⟨Reg.netFlowStat i, 4, 1⟩
def netFlowStatCfgerr (i : Nat) : Fld := ⟨Reg.netFlowStat i, 5, 1⟩
def netFlowStatFrames (i : Nat) : Fld := ⟨Reg.netFlowStat i, 16, 16⟩
def netFlowStatbMalf (i : Nat) : Fld := ⟨Reg.netFlowStatb i, 0, 8⟩
def netFlowStatbLatepkt (i : Nat) : Fld := ⟨Reg.netFlowStatb i, 8, 8⟩
def netFlowStatbRingfull (i : Nat) : Fld := ⟨Reg.netFlowStatb i, 16, 8⟩
def tspEvstatTxsDrop : Fld := ⟨Reg.tspEvstat, 0, 1⟩
def tspEvstatPixmapLate : Fld := ⟨Reg.tspEvstat, 1, 1⟩
def tspEvstatEchoDrop : Fld := ⟨Reg.tspEvstat, 2, 1⟩
def tspEvstatFwtxDone : Fld := ⟨Reg.tspEvstat, 3, 1⟩
def tspEvstatQcfg : Fld := ⟨Reg.tspEvstat, 4, 1⟩
def tspEvstatTmplerr : Fld := ⟨Reg.tspEvstat, 16, 16⟩
def tspPixcfgEn : Fld := ⟨Reg.tspPixcfg, 0, 1⟩
def tspPixcfgDiv : Fld := ⟨Reg.tspPixcfg, 1, 4⟩
def tspPixcfgClass : Fld := ⟨Reg.tspPixcfg, 5, 5⟩
def tspPixcfgSynctmpl : Fld := ⟨Reg.tspPixcfg, 10, 6⟩
def tspPixcfgSyncu : Fld := ⟨Reg.tspPixcfg, 16, 16⟩
def tspPixstatCfgerr : Fld := ⟨Reg.tspPixstat, 0, 16⟩
def tspPixstatSkipped : Fld := ⟨Reg.tspPixstat, 16, 16⟩
def tspEchocfgEn : Fld := ⟨Reg.tspEchocfg, 0, 1⟩
def tspEchocfgTmpl : Fld := ⟨Reg.tspEchocfg, 1, 6⟩
def tspEchocfgClass : Fld := ⟨Reg.tspEchocfg, 7, 5⟩
def tspEchomaskSrc (i : Nat) : Fld := ⟨Reg.tspEchomask i, 0, 32⟩
def tspFwtxctlEn : Fld := ⟨Reg.tspFwtxctl, 0, 1⟩
def tspFwtxctlRingsz : Fld := ⟨Reg.tspFwtxctl, 8, 4⟩
def tspFwtxctlDrop : Fld := ⟨Reg.tspFwtxctl, 16, 16⟩
def tspFwtxheadIndex : Fld := ⟨Reg.tspFwtxhead, 0, 10⟩
def tspFwtxtailIndex : Fld := ⟨Reg.tspFwtxtail, 0, 10⟩
def tspShaperCfgShape (i : Nat) : Fld := ⟨Reg.tspShaperCfg i, 0, 1⟩
def tspShaperCfgPort (i : Nat) : Fld := ⟨Reg.tspShaperCfg i, 1, 3⟩
def tspShaperCfgQdepth (i : Nat) : Fld := ⟨Reg.tspShaperCfg i, 8, 8⟩
def tspShaperRateValue (i : Nat) : Fld := ⟨Reg.tspShaperRate i, 0, 32⟩
def tspShaperHicreditValue (i : Nat) : Fld := ⟨Reg.tspShaperHicredit i, 0, 32⟩
def tspShaperLocreditValue (i : Nat) : Fld := ⟨Reg.tspShaperLocredit i, 0, 32⟩
def tspShaperCreditBytes (i : Nat) : Fld := ⟨Reg.tspShaperCredit i, 0, 32⟩
def tspShaperClrdebtClr (i : Nat) : Fld := ⟨Reg.tspShaperClrdebt i, 0, 1⟩
def tspTxsEn (i : Nat) : Fld := ⟨Reg.tspTxs i, 0, 1⟩
def tspTxsTmpl (i : Nat) : Fld := ⟨Reg.tspTxs i, 1, 6⟩
def tspTxsClass (i : Nat) : Fld := ⟨Reg.tspTxs i, 7, 5⟩
def tspTxsMaxpay (i : Nat) : Fld := ⟨Reg.tspTxs i, 16, 14⟩
def tspTmpl0Hlen (i : Nat) : Fld := ⟨Reg.tspTmpl0 i, 0, 8⟩
def tspTmpl0Mcast (i : Nat) : Fld := ⟨Reg.tspTmpl0 i, 8, 1⟩
def tspPmap0En (i : Nat) : Fld := ⟨Reg.tspPmap0 i, 0, 1⟩
def tspPmap0Head (i : Nat) : Fld := ⟨Reg.tspPmap0 i, 1, 7⟩
def tspPmap0Phase (i : Nat) : Fld := ⟨Reg.tspPmap0 i, 8, 3⟩
def tspPmap0Order (i : Nat) : Fld := ⟨Reg.tspPmap0 i, 11, 2⟩
def tspPmap0Wide (i : Nat) : Fld := ⟨Reg.tspPmap0 i, 13, 1⟩
def tspPmap0Tmpl (i : Nat) : Fld := ⟨Reg.tspPmap0 i, 14, 6⟩
def tspPmap1X (i : Nat) : Fld := ⟨Reg.tspPmap1 i, 0, 14⟩
def tspPmap1Y (i : Nat) : Fld := ⟨Reg.tspPmap1 i, 16, 14⟩
def tspPmap2Count (i : Nat) : Fld := ⟨Reg.tspPmap2 i, 0, 9⟩
def tspPmap2Dx (i : Nat) : Fld := ⟨Reg.tspPmap2 i, 16, 8⟩
def tspPmap2Dy (i : Nat) : Fld := ⟨Reg.tspPmap2 i, 24, 8⟩
def tspPmap3Univ (i : Nat) : Fld := ⟨Reg.tspPmap3 i, 0, 16⟩
def tspPmap3Start (i : Nat) : Fld := ⟨Reg.tspPmap3 i, 16, 9⟩
def cdcCtlPipeen : Fld := ⟨Reg.cdcCtl, 0, 4⟩
def cdcStatusBusy : Fld := ⟨Reg.cdcStatus, 0, 4⟩
def cdcStatusPipectx : Fld := ⟨Reg.cdcStatus, 8, 20⟩
def cdcPrivCtx0 : Fld := ⟨Reg.cdcPriv, 0, 5⟩
def cdcPrivEn0 : Fld := ⟨Reg.cdcPriv, 5, 1⟩
def cdcPrivCtx1 : Fld := ⟨Reg.cdcPriv, 8, 5⟩
def cdcPrivEn1 : Fld := ⟨Reg.cdcPriv, 13, 1⟩
def cdcCtxCfgEn (i : Nat) : Fld := ⟨Reg.cdcCtxCfg i, 0, 1⟩
def cdcCtxCfgDir (i : Nat) : Fld := ⟨Reg.cdcCtxCfg i, 1, 1⟩
def cdcCtxCfgLive (i : Nat) : Fld := ⟨Reg.cdcCtxCfg i, 2, 1⟩
def cdcCtxCfgPipes (i : Nat) : Fld := ⟨Reg.cdcCtxCfg i, 4, 4⟩
def cdcCtxCfgChroma (i : Nat) : Fld := ⟨Reg.cdcCtxCfg i, 8, 1⟩
def cdcCtxCfgMatrix (i : Nat) : Fld := ⟨Reg.cdcCtxCfg i, 9, 1⟩
def cdcCtxCfgNsurf (i : Nat) : Fld := ⟨Reg.cdcCtxCfg i, 12, 4⟩
def cdcCtxCfgNout (i : Nat) : Fld := ⟨Reg.cdcCtxCfg i, 16, 4⟩
def cdcCtxCfgCmdsz (i : Nat) : Fld := ⟨Reg.cdcCtxCfg i, 20, 4⟩
def cdcCtxGeomW (i : Nat) : Fld := ⟨Reg.cdcCtxGeom i, 0, 14⟩
def cdcCtxGeomH (i : Nat) : Fld := ⟨Reg.cdcCtxGeom i, 16, 14⟩
def cdcCtxCmdheadIndex (i : Nat) : Fld := ⟨Reg.cdcCtxCmdhead i, 0, 12⟩
def cdcCtxCmdtailIndex (i : Nat) : Fld := ⟨Reg.cdcCtxCmdtail i, 0, 12⟩
def cdcCtxInsizeBytes (i : Nat) : Fld := ⟨Reg.cdcCtxInsize i, 0, 32⟩
def cdcCtxOutpitchBytes (i : Nat) : Fld := ⟨Reg.cdcCtxOutpitch i, 0, 32⟩
def cdcCtxOutstrideBytes (i : Nat) : Fld := ⟨Reg.cdcCtxOutstride i, 0, 32⟩
def cdcCtxRdofsBytes (i : Nat) : Fld := ⟨Reg.cdcCtxRdofs i, 0, 32⟩
def cdcCtxWofsBytes (i : Nat) : Fld := ⟨Reg.cdcCtxWofs i, 0, 32⟩
def cdcCtxStatusHalted (i : Nat) : Fld := ⟨Reg.cdcCtxStatus i, 0, 1⟩
def cdcCtxStatusRunning (i : Nat) : Fld := ⟨Reg.cdcCtxStatus i, 1, 1⟩
def cdcCtxStatusPipe (i : Nat) : Fld := ⟨Reg.cdcCtxStatus i, 2, 2⟩
def cdcCtxStatusErrcode (i : Nat) : Fld := ⟨Reg.cdcCtxStatus i, 4, 4⟩
def cdcCtxStatusCfgerr (i : Nat) : Fld := ⟨Reg.cdcCtxStatus i, 8, 1⟩
def cdcCtxStatusResume (i : Nat) : Fld := ⟨Reg.cdcCtxStatus i, 9, 1⟩
def cdcCtxStatusSkip (i : Nat) : Fld := ⟨Reg.cdcCtxStatus i, 10, 1⟩
def cdcCtxStatusOutdrop (i : Nat) : Fld := ⟨Reg.cdcCtxStatus i, 12, 4⟩
def cdcCtxStatusPics (i : Nat) : Fld := ⟨Reg.cdcCtxStatus i, 16, 16⟩
def cdcCtxEventPicDone (i : Nat) : Fld := ⟨Reg.cdcCtxEvent i, 0, 1⟩
def cdcCtxEventConcealed (i : Nat) : Fld := ⟨Reg.cdcCtxEvent i, 1, 1⟩
def cdcCtxEventOutDrop (i : Nat) : Fld := ⟨Reg.cdcCtxEvent i, 2, 1⟩
def cdcCtxEventRcFloor (i : Nat) : Fld := ⟨Reg.cdcCtxEvent i, 3, 1⟩
def cdcCtxEventCdcError (i : Nat) : Fld := ⟨Reg.cdcCtxEvent i, 4, 1⟩
def cdcCtxRccfgMode (i : Nat) : Fld := ⟨Reg.cdcCtxRccfg i, 0, 1⟩
def cdcCtxRccfgTfill (i : Nat) : Fld := ⟨Reg.cdcCtxRccfg i, 8, 8⟩
def cdcCtxRccfgIfill (i : Nat) : Fld := ⟨Reg.cdcCtxRccfg i, 16, 8⟩
def cdcCtxRccfgCtbmax (i : Nat) : Fld := ⟨Reg.cdcCtxRccfg i, 24, 8⟩
def cdcCtxRateValue (i : Nat) : Fld := ⟨Reg.cdcCtxRate i, 0, 32⟩
def cdcCtxCpbValue (i : Nat) : Fld := ⟨Reg.cdcCtxCpb i, 0, 32⟩
def cdcCtxPeriodValue (i : Nat) : Fld := ⟨Reg.cdcCtxPeriod i, 0, 32⟩
def cdcCtxRcstatRows (i : Nat) : Fld := ⟨Reg.cdcCtxRcstat i, 0, 16⟩
def cdcCtxRcstatPics (i : Nat) : Fld := ⟨Reg.cdcCtxRcstat i, 16, 16⟩
def cdcCtxMisspocPoc (i : Nat) : Fld := ⟨Reg.cdcCtxMisspoc i, 0, 32⟩
def wlkCtlStandby : Fld := ⟨Reg.wlkCtl, 0, 1⟩
def wlkStatusRxlock : Fld := ⟨Reg.wlkStatus, 0, 16⟩
def wlkStatusStby : Fld := ⟨Reg.wlkStatus, 16, 1⟩
def wlkLaneCfgEn (i : Nat) : Fld := ⟨Reg.wlkLaneCfg i, 0, 1⟩
def wlkLaneCfgMedia (i : Nat) : Fld := ⟨Reg.wlkLaneCfg i, 1, 1⟩
def wlkLaneCfgPrecode (i : Nat) : Fld := ⟨Reg.wlkLaneCfg i, 2, 1⟩
def wlkLaneStatRxlock (i : Nat) : Fld := ⟨Reg.wlkLaneStat i, 0, 1⟩
def wlkLaneStatTrained (i : Nat) : Fld := ⟨Reg.wlkLaneStat i, 1, 1⟩
def wlkLaneStatHubstate (i : Nat) : Fld := ⟨Reg.wlkLaneStat i, 8, 2⟩
def wlkLaneEventLaneState (i : Nat) : Fld := ⟨Reg.wlkLaneEvent i, 0, 1⟩
def wlkLaneEventHubStatus (i : Nat) : Fld := ⟨Reg.wlkLaneEvent i, 1, 1⟩
def wlkLaneEventCreditShort (i : Nat) : Fld := ⟨Reg.wlkLaneEvent i, 2, 1⟩
def wlkLaneEventRxCrc (i : Nat) : Fld := ⟨Reg.wlkLaneEvent i, 3, 1⟩
def wlkLaneFecCorr (i : Nat) : Fld := ⟨Reg.wlkLaneFec i, 0, 16⟩
def wlkLaneFecUncorr (i : Nat) : Fld := ⟨Reg.wlkLaneFec i, 16, 16⟩
def wlkLaneCtrlerrBad (i : Nat) : Fld := ⟨Reg.wlkLaneCtrlerr i, 0, 16⟩
def wlkLaneCtrlerrPolls (i : Nat) : Fld := ⟨Reg.wlkLaneCtrlerr i, 16, 16⟩
def wlkLanePollTag (i : Nat) : Fld := ⟨Reg.wlkLanePoll i, 0, 16⟩
def wlkLanePollTurnmax (i : Nat) : Fld := ⟨Reg.wlkLanePoll i, 16, 16⟩
def wlkLaneCreditSlota (i j : Nat) : Fld := ⟨Reg.wlkLaneCredit i j, 0, 14⟩
def wlkLaneCreditSlotb (i j : Nat) : Fld := ⟨Reg.wlkLaneCredit i j, 16, 14⟩
def wlkLaneHubstatData (i j : Nat) : Fld := ⟨Reg.wlkLaneHubstat i j, 0, 32⟩
def wlkLaneShortCount (i : Nat) : Fld := ⟨Reg.wlkLaneShort i, 0, 16⟩
def mirCtlEn : Fld := ⟨Reg.mirCtl, 0, 1⟩
def mirCtlRole : Fld := ⟨Reg.mirCtl, 1, 1⟩
def mirCtlSwap : Fld := ⟨Reg.mirCtl, 2, 1⟩
def mirCfgHbhead : Fld := ⟨Reg.mirCfg, 0, 7⟩
def mirCfgPdly : Fld := ⟨Reg.mirCfg, 8, 12⟩
def mirCfgLanes : Fld := ⟨Reg.mirCfg, 24, 4⟩
def mirStatLock : Fld := ⟨Reg.mirStat, 0, 4⟩
def mirStatPeer : Fld := ⟨Reg.mirStat, 4, 1⟩
def mirStatSync : Fld := ⟨Reg.mirStat, 5, 1⟩
def mirStatMissed : Fld := ⟨Reg.mirStat, 6, 2⟩
def mirStatOwd : Fld := ⟨Reg.mirStat, 16, 16⟩
def mirEventMirLink : Fld := ⟨Reg.mirEvent, 0, 1⟩
def mirEventMirPeerlost : Fld := ⟨Reg.mirEvent, 1, 1⟩
def mirEventMirTakeover : Fld := ⟨Reg.mirEvent, 2, 1⟩
def mirEventMirSwap : Fld := ⟨Reg.mirEvent, 3, 1⟩
def mirEventSwapIgn : Fld := ⟨Reg.mirEvent, 4, 1⟩
def mirEventMirDesync : Fld := ⟨Reg.mirEvent, 5, 1⟩
def mirEventMirDiverge : Fld := ⟨Reg.mirEvent, 6, 1⟩
def mirEventMirPlate : Fld := ⟨Reg.mirEvent, 7, 1⟩
def mirEventMirLocalwr : Fld := ⟨Reg.mirEvent, 8, 1⟩
def mirTerrNs : Fld := ⟨Reg.mirTerr, 0, 16⟩
def mirCountPlate : Fld := ⟨Reg.mirCount, 0, 16⟩
def mirCountLocalwr : Fld := ⟨Reg.mirCount, 16, 16⟩
def mirDivergeSeq : Fld := ⟨Reg.mirDiverge, 0, 16⟩
def mirDivergePcode : Fld := ⟨Reg.mirDiverge, 16, 4⟩
def mirDivergeScode : Fld := ⟨Reg.mirDiverge, 20, 4⟩
def fltCtlEn : Fld := ⟨Reg.fltCtl, 0, 1⟩
def fltCtlFlush : Fld := ⟨Reg.fltCtl, 1, 1⟩
def fltSizeRegion : Fld := ⟨Reg.fltSize, 0, 13⟩
def fltSizeUsed : Fld := ⟨Reg.fltSize, 16, 13⟩
def fltStatFlattenDone : Fld := ⟨Reg.fltStat, 0, 1⟩
def fltStatFlattenFull : Fld := ⟨Reg.fltStat, 1, 1⟩
def fltStatPending : Fld := ⟨Reg.fltStat, 8, 8⟩
def fltStatHead : Fld := ⟨Reg.fltStat, 16, 7⟩
def fltWbCtlEn (i : Nat) : Fld := ⟨Reg.fltWbCtl i, 0, 1⟩
def fltWbCtlHead (i : Nat) : Fld := ⟨Reg.fltWbCtl i, 1, 7⟩
def fltWbCtlPhase (i : Nat) : Fld := ⟨Reg.fltWbCtl i, 8, 3⟩
def fltWbCtlAllph (i : Nat) : Fld := ⟨Reg.fltWbCtl i, 11, 1⟩
def fltWbCtlNbuf (i : Nat) : Fld := ⟨Reg.fltWbCtl i, 12, 4⟩
def fltWbCtlDest (i : Nat) : Fld := ⟨Reg.fltWbCtl i, 16, 1⟩
def fltWbPitchPitch (i : Nat) : Fld := ⟨Reg.fltWbPitch i, 0, 20⟩
def fltWbStrideStride (i : Nat) : Fld := ⟨Reg.fltWbStride i, 0, 32⟩
def fltWbStatusLastbuf (i : Nat) : Fld := ⟨Reg.fltWbStatus i, 0, 3⟩
def fltWbStatusIncomplete (i : Nat) : Fld := ⟨Reg.fltWbStatus i, 3, 1⟩
def fltWbStatusWbDone (i : Nat) : Fld := ⟨Reg.fltWbStatus i, 4, 1⟩
def fltWbStatusWbIncomplete (i : Nat) : Fld := ⟨Reg.fltWbStatus i, 5, 1⟩
def fltWbStatusTicklo (i : Nat) : Fld := ⟨Reg.fltWbStatus i, 16, 12⟩
def fltWbStatusPhase (i : Nat) : Fld := ⟨Reg.fltWbStatus i, 28, 3⟩
def finjCtlEn : Fld := ⟨Reg.finjCtl, 0, 1⟩
def finjEventFinjDone : Fld := ⟨Reg.finjEvent, 0, 4⟩
def finjEventLink : Fld := ⟨Reg.finjEvent, 16, 6⟩
def finjLinkCfgEn (i : Nat) : Fld := ⟨Reg.finjLinkCfg i, 0, 1⟩
def finjLinkCfgAction (i : Nat) : Fld := ⟨Reg.finjLinkCfg i, 1, 2⟩
def finjLinkCfgDir (i : Nat) : Fld := ⟨Reg.finjLinkCfg i, 3, 1⟩
def finjLinkCfgRate (i : Nat) : Fld := ⟨Reg.finjLinkCfg i, 16, 16⟩
def finjLinkSeedSeed (i : Nat) : Fld := ⟨Reg.finjLinkSeed i, 0, 32⟩
def finjLinkCountCount (i : Nat) : Fld := ⟨Reg.finjLinkCount i, 0, 16⟩
def finjLinkCountLimit (i : Nat) : Fld := ⟨Reg.finjLinkCount i, 16, 16⟩
def psMatCoef (i j k : Nat) : Fld := ⟨Reg.psMat i j k, 0, 19⟩

end F

/-- The register rows of the TOP block. -/
def rowsTop : List RegRow := [
  ⟨0x10, 1, 0x0, 1, 0x0, 1, 0x0, 0x0, 0x1FFFFFFF, 0x0, 0x0, 0x0, 0x0, 0x18C46080⟩,
  ⟨0x14, 1, 0x0, 1, 0x0, 1, 0x0, 0x0, 0x7F, 0x0, 0x0, 0x0, 0x0, 0x74⟩,
  ⟨0x18, 1, 0x0, 1, 0x0, 1, 0x0, 0x0, 0xFFF1F1F, 0x0, 0x0, 0x0, 0x0, 0x8481010⟩,
  ⟨0x1C, 1, 0x0, 1, 0x0, 1, 0x0, 0x0, 0xFFFFF, 0x0, 0x0, 0x0, 0x0, 0x14128⟩,
  ⟨0x20, 1, 0x0, 1, 0x0, 1, 0x0, 0x0, 0x3FFFFFF, 0x0, 0x0, 0x0, 0x0, 0x0⟩,
  ⟨0x24, 1, 0x0, 1, 0x0, 1, 0x0, 0x0, 0x3FFFF, 0x0, 0x0, 0x0, 0x0, 0x0⟩,
  ⟨0x28, 1, 0x0, 1, 0x0, 1, 0x0, 0x0, 0x3FFFFFF, 0x0, 0x0, 0x0, 0x0, 0x0⟩,
  ⟨0x40, 4, 0x4, 1, 0x0, 1, 0x0, 0x0, 0xFFFFFFFF, 0x0, 0x0, 0x0, 0x0, 0x0⟩]

/-- The register rows of the BOOT block. -/
def rowsBoot : List RegRow := [
  ⟨0x10000, 1, 0x0, 1, 0x0, 1, 0x0, 0x0, 0xFFFFFFF7, 0x0, 0x0, 0x0, 0x0, 0x0⟩,
  ⟨0x10004, 1, 0x0, 1, 0x0, 1, 0x0, 0x0, 0x7, 0x0, 0x0, 0x0, 0x0, 0x1⟩,
  ⟨0x10008, 1, 0x0, 1, 0x0, 1, 0x0, 0x0, 0x0, 0x0, 0x0, 0xF, 0x0, 0x0⟩,
  ⟨0x1000C, 1, 0x0, 1, 0x0, 1, 0x0, 0x0, 0xFFFFFFFF, 0x0, 0x0, 0x0, 0x0, 0x0⟩,
  ⟨0x10010, 1, 0x0, 1, 0x0, 1, 0x0, 0x0, 0xFFFFFFFF, 0x0, 0x0, 0x0, 0x0, 0x0⟩,
  ⟨0x10014, 1, 0x0, 1, 0x0, 1, 0x0, 0x0, 0xFFFFFFFF, 0x0, 0x0, 0x0, 0x0, 0x0⟩,
  ⟨0x10018, 1, 0x0, 1, 0x0, 1, 0x0, 0x0, 0x0, 0x0, 0x7, 0x0, 0x0, 0x0⟩,
  ⟨0x10020, 1, 0x0, 1, 0x0, 1, 0x0, 0x1FFFF, 0x0, 0x0, 0x0, 0x80000000, 0x0, 0x0⟩,
  ⟨0x10024, 1, 0x0, 1, 0x0, 1, 0x0, 0xFFFFFFFF, 0x0, 0x0, 0x0, 0x0, 0x0, 0x0⟩,
  ⟨0x10040, 16, 0x4, 1, 0x0, 1, 0x0, 0xFFFFFFFF, 0x0, 0x0, 0x0, 0x0, 0x0, 0x0⟩,
  ⟨0x10084, 3, 0x4, 1, 0x0, 1, 0x0, 0xFFFFFFFF, 0x0, 0x0, 0x0, 0x0, 0x0, 0x800000⟩]

/-- The register rows of the PROT block. -/
def rowsProt : List RegRow := [
  ⟨0x20000, 1, 0x0, 1, 0x0, 1, 0x0, 0x1, 0x0, 0x0, 0x0, 0x0, 0x0, 0x0⟩,
  ⟨0x20004, 1, 0x0, 1, 0x0, 1, 0x0, 0x0, 0xFFFF00FF, 0x0, 0x0, 0x0, 0x0, 0x0⟩,
  ⟨0x20008, 1, 0x0, 1, 0x0, 1, 0x0, 0x0, 0xFFFFFFFF, 0x0, 0x0, 0x0, 0x0, 0x0⟩,
  ⟨0x2000C, 1, 0x0, 1, 0x0, 1, 0x0, 0x0, 0xFFFFFFFF, 0x0, 0x0, 0x0, 0x0, 0x0⟩,
  ⟨0x20010, 1, 0x0, 1, 0x0, 1, 0x0, 0x0, 0x0, 0x0, 0x1, 0x0, 0x0, 0x0⟩,
  ⟨0x20100, 13, 0x100, 1, 0x0, 1, 0x0, 0xFFFFFF, 0x0, 0x0, 0x0, 0x0, 0x0, 0xFFFFFF⟩,
  ⟨0x20104, 13, 0x100, 1, 0x0, 1, 0x0, 0xFFFFFF, 0x0, 0x0, 0x0, 0x0, 0x0, 0xFFFFFF⟩,
  ⟨0x20110, 13, 0x100, 4, 0x4, 1, 0x0, 0xFFFFFFFF, 0x0, 0x0, 0x0, 0x0, 0x0, 0xFFFFFFFF⟩,
  ⟨0x20180, 13, 0x100, 32, 0x4, 1, 0x0, 0xFFFFFFFF, 0x0, 0x0, 0x0, 0x0, 0x0, 0xFFFFFFFF⟩,
  ⟨0x22000, 16, 0x10, 1, 0x0, 1, 0x0, 0xFFFFFFFF, 0x0, 0x0, 0x0, 0x0, 0x0, 0x0⟩,
  ⟨0x22004, 16, 0x10, 1, 0x0, 1, 0x0, 0xFFFFFFFF, 0x0, 0x0, 0x0, 0x0, 0x0, 0x0⟩,
  ⟨0x22008, 16, 0x10, 1, 0x0, 1, 0x0, 0x1FFFFF, 0x0, 0x0, 0x0, 0x0, 0x0, 0x100000⟩,
  ⟨0x2200C, 16, 0x10, 1, 0x0, 1, 0x0, 0xFFFFFFF, 0x0, 0x0, 0x0, 0x0, 0x0, 0xF807D⟩]

/-- The register rows of the CLK block. -/
def rowsClk : List RegRow := [
  ⟨0x30000, 1, 0x0, 1, 0x0, 1, 0x0, 0x3, 0x0, 0x0, 0x0, 0x4, 0x0, 0x0⟩,
  ⟨0x30004, 1, 0x0, 1, 0x0, 1, 0x0, 0x0, 0xFF, 0x0, 0x0, 0x0, 0x0, 0xD⟩,
  ⟨0x30008, 1, 0x0, 1, 0x0, 1, 0x0, 0x1FFFFFF, 0x0, 0x0, 0x0, 0x0, 0x0, 0x1000001⟩,
  ⟨0x3000C, 1, 0x0, 1, 0x0, 1, 0x0, 0xE, 0xFFFF0000, 0x0, 0x10, 0x1, 0x0, 0x6⟩,
  ⟨0x30020, 2, 0x10, 1, 0x0, 1, 0x0, 0x7F, 0x0, 0x0, 0x0, 0x0, 0x0, 0x20⟩,
  ⟨0x30024, 2, 0x10, 1, 0x0, 1, 0x0, 0xFFFFFF, 0x0, 0x0, 0x0, 0x0, 0x0, 0x0⟩,
  ⟨0x30028, 2, 0x10, 1, 0x0, 1, 0x0, 0x0, 0xFFFFFFFF, 0x0, 0x0, 0x0, 0x0, 0x0⟩]

/-- The register rows of the TICK block. -/
def rowsTick : List RegRow := [
  ⟨0x40000, 1, 0x0, 1, 0x0, 1, 0x0, 0x0, 0xFFFFFFFF, 0x0, 0x0, 0x0, 0x0, 0x0⟩,
  ⟨0x40004, 1, 0x0, 1, 0x0, 1, 0x0, 0x0, 0xFFFFFFFF, 0x0, 0x0, 0x0, 0x0, 0x0⟩,
  ⟨0x40008, 1, 0x0, 1, 0x0, 1, 0x0, 0x0, 0xFFFFFFFF, 0x0, 0x0, 0x0, 0x0, 0x0⟩,
  ⟨0x4000C, 1, 0x0, 1, 0x0, 1, 0x0, 0x0, 0xFFFFFFFF, 0x0, 0x0, 0x0, 0x0, 0x0⟩,
  ⟨0x40010, 1, 0x0, 1, 0x0, 1, 0x0, 0xFF03, 0x0, 0x0, 0x0, 0x0, 0x0, 0x3C00⟩,
  ⟨0x40014, 1, 0x0, 1, 0x0, 1, 0x0, 0x0, 0xFFF0F1F, 0x0, 0x0, 0x0, 0x0, 0xC⟩,
  ⟨0x40018, 1, 0x0, 1, 0x0, 1, 0x0, 0xFFFFFFFF, 0x0, 0x0, 0x0, 0x0, 0x0, 0x0⟩,
  ⟨0x4001C, 1, 0x0, 1, 0x0, 1, 0x0, 0x0, 0x0, 0x0, 0x0, 0x3, 0x0, 0x0⟩,
  ⟨0x40020, 1, 0x0, 1, 0x0, 1, 0x0, 0x0, 0x0, 0x0, 0x0, 0x0, 0xF, 0x9⟩,
  ⟨0x40024, 1, 0x0, 1, 0x0, 1, 0x0, 0x0, 0x0, 0x0, 0x0, 0x0, 0xF, 0x1⟩,
  ⟨0x40028, 1, 0x0, 1, 0x0, 1, 0x0, 0x0, 0x7F00FF, 0x0, 0x0, 0x0, 0x0, 0x0⟩,
  ⟨0x4002C, 1, 0x0, 1, 0x0, 1, 0x0, 0xFFFFFF07, 0x0, 0x0, 0x0, 0x0, 0x0, 0x0⟩,
  ⟨0x40030, 1, 0x0, 1, 0x0, 1, 0x0, 0x0, 0xFFFFFF03, 0x0, 0x0, 0x0, 0x0, 0x0⟩,
  ⟨0x40034, 1, 0x0, 1, 0x0, 1, 0x0, 0xFF0F7F, 0x0, 0x0, 0x0, 0x0, 0x0, 0x37F⟩,
  ⟨0x40038, 1, 0x0, 1, 0x0, 1, 0x0, 0x0, 0xFFFFFFFF, 0x0, 0x0, 0x0, 0x0, 0x0⟩,
  ⟨0x4003C, 1, 0x0, 1, 0x0, 1, 0x0, 0x0, 0xFFFFFFFF, 0x0, 0x0, 0x0, 0x0, 0x0⟩,
  ⟨0x40040, 8, 0x4, 1, 0x0, 1, 0x0, 0x0, 0x0, 0x0, 0x0, 0x0, 0xFFFFFFFF, 0x0⟩,
  ⟨0x40060, 1, 0x0, 1, 0x0, 1, 0x0, 0x0, 0xFF, 0x0, 0x0, 0x0, 0x0, 0x0⟩,
  ⟨0x40064, 1, 0x0, 1, 0x0, 1, 0x0, 0x0, 0xFFFFFFFF, 0x0, 0x0, 0x0, 0x0, 0x0⟩,
  ⟨0x40100, 8, 0x10, 1, 0x0, 1, 0x0, 0xFFF07, 0x0, 0x0, 0x0, 0x0, 0x0, 0x0⟩,
  ⟨0x40104, 8, 0x10, 1, 0x0, 1, 0x0, 0xFFFFFFFF, 0x0, 0x0, 0x0, 0x0, 0x0, 0x0⟩,
  ⟨0x40108, 8, 0x10, 1, 0x0, 1, 0x0, 0xFFFFFFFF, 0x0, 0x0, 0x0, 0x0, 0x0, 0x3E8⟩,
  ⟨0x40200, 1, 0x0, 1, 0x0, 1, 0x0, 0x0, 0x0, 0xFFFF, 0x0, 0x0, 0x0, 0x0⟩,
  ⟨0x40204, 1, 0x0, 1, 0x0, 1, 0x0, 0x0, 0x7FFFFF, 0x0, 0x0, 0x0, 0x0, 0x0⟩,
  ⟨0x40208, 1, 0x0, 1, 0x0, 1, 0x0, 0x0, 0xFF07FF, 0x0, 0x0, 0x0, 0x0, 0x0⟩,
  ⟨0x4020C, 1, 0x0, 1, 0x0, 1, 0x0, 0x0, 0xFFFF, 0x0, 0x0, 0x0, 0x0, 0xFFFF⟩,
  ⟨0x40210, 4, 0x4, 1, 0x0, 1, 0x0, 0xFFFFFFFF, 0x0, 0x0, 0x0, 0x0, 0x0, 0x0⟩]

/-- The register rows of the PWR block. -/
def rowsPwr : List RegRow := [
  ⟨0x50000, 1, 0x0, 1, 0x0, 1, 0x0, 0x0, 0xFF, 0x0, 0x0, 0x0, 0x0, 0x0⟩,
  ⟨0x50004, 1, 0x0, 1, 0x0, 1, 0x0, 0x0, 0x0, 0x0, 0x3F, 0x0, 0x0, 0x0⟩,
  ⟨0x50008, 1, 0x0, 1, 0x0, 1, 0x0, 0x3F01, 0x7000000, 0x0, 0x0, 0x0, 0x0, 0x400⟩,
  ⟨0x5000C, 1, 0x0, 1, 0x0, 1, 0x0, 0x0, 0xFFFF, 0x0, 0x0, 0x0, 0x0, 0x84D0⟩,
  ⟨0x50010, 1, 0x0, 1, 0x0, 1, 0x0, 0x0, 0xFFF0FFF, 0x0, 0x0, 0x80000000, 0x0, 0x0⟩,
  ⟨0x50014, 1, 0x0, 1, 0x0, 1, 0x0, 0x0, 0xF0, 0x0, 0x0, 0x3, 0x0, 0x0⟩,
  ⟨0x50018, 1, 0x0, 1, 0x0, 1, 0x0, 0xFFFF0003, 0x0, 0x0, 0x0, 0x0, 0x0, 0x1⟩,
  ⟨0x5001C, 1, 0x0, 1, 0x0, 1, 0x0, 0xFFFFFFFF, 0x0, 0x0, 0x0, 0x0, 0x0, 0x0⟩,
  ⟨0x50020, 1, 0x0, 1, 0x0, 1, 0x0, 0xFFFFFFFF, 0x0, 0x0, 0x0, 0x0, 0x0, 0x0⟩,
  ⟨0x50024, 1, 0x0, 1, 0x0, 1, 0x0, 0xFFFFFFFF, 0x0, 0x0, 0x0, 0x0, 0x0, 0x0⟩,
  ⟨0x50028, 1, 0x0, 1, 0x0, 1, 0x0, 0x0, 0xF7F, 0x0, 0x0, 0x0, 0x0, 0x0⟩,
  ⟨0x5002C, 1, 0x0, 1, 0x0, 1, 0x0, 0x0, 0x7FFFFF, 0x0, 0x0, 0x0, 0x0, 0x0⟩,
  ⟨0x50030, 2, 0x4, 1, 0x0, 1, 0x0, 0xFFFFFFFF, 0x0, 0x0, 0x0, 0x0, 0x0, 0xFFFFFFFF⟩,
  ⟨0x50038, 1, 0x0, 1, 0x0, 1, 0x0, 0xFFFFF, 0x0, 0x0, 0x0, 0x0, 0x0, 0xFFFFF⟩,
  ⟨0x50040, 2, 0x4, 1, 0x0, 1, 0x0, 0x0, 0xFFFFFFFF, 0x0, 0x0, 0x0, 0x0, 0xFFFFFFFF⟩,
  ⟨0x50048, 1, 0x0, 1, 0x0, 1, 0x0, 0x0, 0xFFFFF, 0x0, 0x0, 0x0, 0x0, 0xFFFFF⟩]

/-- The register rows of the THM block. -/
def rowsThm : List RegRow := [
  ⟨0x60000, 1, 0x0, 1, 0x0, 1, 0x0, 0x0, 0x3, 0x0, 0x0, 0x0, 0x0, 0x0⟩,
  ⟨0x60004, 1, 0x0, 1, 0x0, 1, 0x0, 0x0, 0xFFF0FFF, 0x0, 0x0, 0x80000000, 0x0, 0x0⟩,
  ⟨0x60008, 1, 0x0, 1, 0x0, 1, 0x0, 0xFFFFFFF, 0x0, 0x0, 0x0, 0x0, 0x0, 0x5736E69⟩,
  ⟨0x6000C, 1, 0x0, 1, 0x0, 1, 0x0, 0xFF0F, 0xF0000, 0x0, 0x0, 0x0, 0x0, 0xA00⟩,
  ⟨0x60010, 1, 0x0, 1, 0x0, 1, 0x0, 0x0, 0x0, 0x0, 0x0, 0x1, 0x0, 0x0⟩,
  ⟨0x60014, 1, 0x0, 1, 0x0, 1, 0x0, 0x0, 0xF00, 0x0, 0x3, 0x0, 0x0, 0x0⟩,
  ⟨0x60018, 1, 0x0, 1, 0x0, 1, 0x0, 0x0, 0xFFFF, 0x0, 0x0, 0x0, 0x0, 0x0⟩,
  ⟨0x6001C, 1, 0x0, 1, 0x0, 1, 0x0, 0x0, 0xFFF0000, 0x0, 0x1, 0x0, 0x0, 0x0⟩,
  ⟨0x60040, 16, 0x4, 1, 0x0, 1, 0x0, 0x0, 0xFFF, 0x0, 0x0, 0x0, 0x0, 0x0⟩]

/-- The register rows of the ICU block. -/
def rowsIcu : List RegRow := [
  ⟨0x80000, 1, 0x0, 1, 0x0, 1, 0x0, 0x0, 0x0, 0x3FF, 0x0, 0x0, 0x0, 0x0⟩,
  ⟨0x80004, 1, 0x0, 1, 0x0, 1, 0x0, 0x0, 0xFFFF03FF, 0x0, 0x0, 0x0, 0x0, 0x0⟩,
  ⟨0x80100, 1, 0x0, 1, 0x0, 1, 0x0, 0xFFFFFFFE, 0x0, 0x0, 0x0, 0x0, 0x0, 0x0⟩,
  ⟨0x80104, 30, 0x4, 1, 0x0, 1, 0x0, 0xFFFFFFFF, 0x0, 0x0, 0x0, 0x0, 0x0, 0x0⟩,
  ⟨0x8017C, 1, 0x0, 1, 0x0, 1, 0x0, 0x1FFFFFFF, 0x0, 0x0, 0x0, 0x0, 0x0, 0x0⟩,
  ⟨0x80200, 1, 0x0, 1, 0x0, 1, 0x0, 0xFFFFFFFE, 0x0, 0x0, 0x0, 0x0, 0x0, 0x0⟩,
  ⟨0x80204, 30, 0x4, 1, 0x0, 1, 0x0, 0xFFFFFFFF, 0x0, 0x0, 0x0, 0x0, 0x0, 0x0⟩,
  ⟨0x8027C, 1, 0x0, 1, 0x0, 1, 0x0, 0x1FFFFFFF, 0x0, 0x0, 0x0, 0x0, 0x0, 0x0⟩,
  ⟨0x81004, 1020, 0x4, 1, 0x0, 1, 0x0, 0xFF0F, 0x0, 0x0, 0x0, 0x0, 0x0, 0x0⟩,
  ⟨0x82000, 8, 0x20, 1, 0x0, 1, 0x0, 0xF, 0x0, 0x0, 0x0, 0x0, 0x0, 0x0⟩,
  ⟨0x82004, 8, 0x20, 1, 0x0, 1, 0x0, 0x0, 0x800F03FF, 0x0, 0x0, 0x0, 0x0, 0x0⟩,
  ⟨0x82008, 8, 0x20, 1, 0x0, 1, 0x0, 0x0, 0x0, 0x3FF, 0x0, 0x0, 0x0, 0x0⟩,
  ⟨0x8200C, 8, 0x20, 1, 0x0, 1, 0x0, 0x0, 0xFFFFFF1F, 0x0, 0x0, 0x0, 0x0, 0x0⟩,
  ⟨0x82010, 8, 0x20, 1, 0x0, 1, 0x0, 0x0, 0x3FFFFFF, 0x0, 0x0, 0x0, 0x0, 0x0⟩]

/-- The register rows of the HEAD block. -/
def rowsHead : List RegRow := [
  ⟨0x100000, 128, 0x1000, 1, 0x0, 1, 0x0, 0x0, 0x0, 0x0, 0x0, 0x0, 0xFF7FFFEF, 0x100⟩,
  ⟨0x100004, 128, 0x1000, 1, 0x0, 1, 0x0, 0x0, 0x0, 0x0, 0x0, 0x0, 0x3FFF3FFF, 0x7800898⟩,
  ⟨0x100008, 128, 0x1000, 1, 0x0, 1, 0x0, 0x0, 0x0, 0x0, 0x0, 0x0, 0x3FFF3FFF, 0x4380465⟩,
  ⟨0x10000C, 128, 0x1000, 1, 0x0, 1, 0x0, 0x0, 0x0, 0x0, 0x0, 0x0, 0x1F333FFF, 0x4110029⟩,
  ⟨0x100010, 128, 0x1000, 1, 0x0, 1, 0x0, 0x0, 0x0, 0x0, 0x0, 0x0, 0xFF3DFF, 0x10014⟩,
  ⟨0x100014, 128, 0x1000, 1, 0x0, 1, 0x0, 0x0, 0x0, 0x0, 0x0, 0x0, 0x3FFFF, 0x0⟩,
  ⟨0x100018, 128, 0x1000, 1, 0x0, 1, 0x0, 0x0, 0x0, 0x0, 0x0, 0x0, 0x3FF, 0x300⟩,
  ⟨0x10001C, 128, 0x1000, 1, 0x0, 1, 0x0, 0x0, 0x0, 0x0, 0x0, 0x0, 0x3FFFFFFF, 0x0⟩,
  ⟨0x100020, 128, 0x1000, 1, 0x0, 1, 0x0, 0x3FF38, 0xFFF00004, 0x0, 0x0, 0x3, 0x0, 0x0⟩,
  ⟨0x100024, 128, 0x1000, 1, 0x0, 1, 0x0, 0x0, 0xFFFFFFFF, 0x0, 0x0, 0x0, 0x0, 0x0⟩,
  ⟨0x100028, 128, 0x1000, 1, 0x0, 1, 0x0, 0x0, 0xFFFFFFFF, 0x0, 0x0, 0x0, 0x0, 0x0⟩,
  ⟨0x10002C, 128, 0x1000, 1, 0x0, 1, 0x0, 0x0, 0xFFFF001F, 0x0, 0x0, 0x0, 0x0, 0xFFFF0000⟩,
  ⟨0x100030, 128, 0x1000, 1, 0x0, 1, 0x0, 0x0, 0x3FF0000, 0x0, 0x3FF, 0x0, 0x0, 0x0⟩,
  ⟨0x100034, 128, 0x1000, 1, 0x0, 1, 0x0, 0x0, 0xFFFFFFFF, 0x0, 0x0, 0x0, 0x0, 0x0⟩]

/-- The register rows of the LAYER block. -/
def rowsLayer : List RegRow := [
  ⟨0x200000, 1024, 0x100, 1, 0x0, 1, 0x0, 0x0, 0x0, 0x0, 0x0, 0x0, 0x3F7FFF7F, 0x0⟩,
  ⟨0x200004, 1024, 0x100, 1, 0x0, 1, 0x0, 0x0, 0x0, 0x0, 0x0, 0x0, 0xF1FFF03, 0x0⟩,
  ⟨0x200008, 1024, 0x100, 1, 0x0, 1, 0x0, 0x0, 0x0, 0x0, 0x0, 0x0, 0xFFFFFFFF, 0x0⟩,
  ⟨0x20000C, 1024, 0x100, 1, 0x0, 1, 0x0, 0x0, 0x0, 0x0, 0x0, 0x0, 0xFFFFFFFF, 0x0⟩,
  ⟨0x200010, 1024, 0x100, 1, 0x0, 1, 0x0, 0x0, 0x0, 0x0, 0x0, 0x0, 0xFFFFF, 0x0⟩,
  ⟨0x200014, 1024, 0x100, 1, 0x0, 1, 0x0, 0x0, 0x0, 0x0, 0x0, 0x0, 0x3FFF3FFF, 0x0⟩,
  ⟨0x200018, 1024, 0x100, 1, 0x0, 1, 0x0, 0x0, 0x0, 0x0, 0x0, 0x0, 0x3FFF3FFF, 0x10001⟩,
  ⟨0x20001C, 1024, 0x100, 1, 0x0, 1, 0x0, 0x0, 0x0, 0x0, 0x0, 0x0, 0xFFFFFFFF, 0x0⟩,
  ⟨0x200020, 1024, 0x100, 1, 0x0, 1, 0x0, 0x0, 0x0, 0x0, 0x0, 0x0, 0x3FFF3FFF, 0x10001⟩,
  ⟨0x200024, 1024, 0x100, 1, 0x0, 1, 0x0, 0x0, 0x0, 0x0, 0x0, 0x0, 0xFFFFFFFF, 0xFFFF0000⟩,
  ⟨0x200028, 1024, 0x100, 1, 0x0, 1, 0x0, 0x0, 0x0, 0x0, 0x0, 0x0, 0xFFFF07FF, 0x0⟩,
  ⟨0x20002C, 1024, 0x100, 1, 0x0, 1, 0x0, 0x0, 0x0, 0x0, 0x0, 0x0, 0xFFFFFFFF, 0x0⟩,
  ⟨0x200030, 1024, 0x100, 1, 0x0, 1, 0x0, 0x0, 0x0, 0x0, 0x0, 0x0, 0xFFFFFFFF, 0xFFFF0000⟩,
  ⟨0x200034, 1024, 0x100, 1, 0x0, 1, 0x0, 0x0, 0x0, 0x0, 0x0, 0x0, 0xFFFF7F03, 0x0⟩,
  ⟨0x200038, 1024, 0x100, 1, 0x0, 1, 0x0, 0x0, 0x0, 0x0, 0x0, 0x0, 0xFFFFFF7F, 0x0⟩,
  ⟨0x20003C, 1024, 0x100, 1, 0x0, 1, 0x0, 0x0, 0xFFFF001F, 0x0, 0x0, 0x0, 0x0, 0x0⟩,
  ⟨0x200040, 1024, 0x100, 9, 0x4, 1, 0x0, 0x0, 0x0, 0x0, 0x0, 0x0, 0xFFFFFFFF, 0x0⟩,
  ⟨0x200080, 1024, 0x100, 1, 0x0, 1, 0x0, 0x0, 0x0, 0x0, 0x0, 0x0, 0xFFFF7F, 0x0⟩,
  ⟨0x200084, 1024, 0x100, 9, 0x4, 1, 0x0, 0x0, 0x0, 0x0, 0x0, 0x0, 0x7FFFF, 0x10000⟩,
  ⟨0x240000, 1024, 0x4, 1, 0x0, 1, 0x0, 0xFFFF, 0x0, 0x0, 0x0, 0x0, 0x0, 0x0⟩,
  ⟨0x250000, 16, 0x800, 256, 0x8, 1, 0x0, 0xFFFFFFFF, 0x0, 0x0, 0x0, 0x0, 0x0, 0x0⟩,
  ⟨0x250004, 16, 0x800, 256, 0x8, 1, 0x0, 0xFFFFFFFF, 0x0, 0x0, 0x0, 0x0, 0x0, 0xFFFF0000⟩,
  ⟨0x260000, 16, 0x800, 512, 0x4, 1, 0x0, 0xFFFFFFFF, 0x0, 0x0, 0x0, 0x0, 0x0, 0x0⟩,
  ⟨0x270000, 5, 0x800, 512, 0x4, 1, 0x0, 0x0, 0xFFFFFFFF, 0x0, 0x0, 0x0, 0x0, 0x0⟩,
  ⟨0x280000, 32, 0x2000, 2048, 0x4, 1, 0x0, 0xFFFFFFFF, 0x0, 0x0, 0x0, 0x0, 0x0, 0x0⟩]

/-- The register rows of the GRP block. -/
def rowsGrp : List RegRow := [
  ⟨0x300000, 12, 0x1000, 1, 0x0, 1, 0x0, 0x0, 0x1FF, 0x0, 0x0, 0x0, 0x0, 0x0⟩,
  ⟨0x300004, 12, 0x1000, 1, 0x0, 1, 0x0, 0x0, 0x7F0000, 0x0, 0x7, 0x0, 0x0, 0x0⟩,
  ⟨0x300008, 12, 0x1000, 1, 0x0, 1, 0x0, 0x0, 0x7FFFF, 0x0, 0x0, 0x0, 0x0, 0x0⟩,
  ⟨0x30000C, 12, 0x1000, 1, 0x0, 1, 0x0, 0x0, 0x1FDFFFFF, 0x0, 0x0, 0x0, 0x0, 0x0⟩,
  ⟨0x300010, 12, 0x1000, 1, 0x0, 1, 0x0, 0xFFFFFF, 0x0, 0x0, 0x0, 0x0, 0x0, 0xFFFFFF⟩,
  ⟨0x300014, 12, 0x1000, 1, 0x0, 1, 0x0, 0x0, 0x7FFFFFFF, 0x0, 0x0, 0x0, 0x0, 0x0⟩,
  ⟨0x300018, 12, 0x1000, 1, 0x0, 1, 0x0, 0x0, 0xFFFFFFFF, 0x0, 0x0, 0x0, 0x0, 0x0⟩,
  ⟨0x30001C, 12, 0x1000, 1, 0x0, 1, 0x0, 0x0, 0xFFFFFFFF, 0x0, 0x0, 0x0, 0x0, 0x0⟩,
  ⟨0x300020, 12, 0x1000, 1, 0x0, 1, 0x0, 0x0, 0xFFFFFFFF, 0x0, 0x0, 0x0, 0x0, 0x0⟩,
  ⟨0x300024, 12, 0x1000, 1, 0x0, 1, 0x0, 0x0, 0xFFFFFFFF, 0x0, 0x0, 0x0, 0x0, 0x0⟩,
  ⟨0x300028, 12, 0x1000, 1, 0x0, 1, 0x0, 0x0, 0xFFFF, 0x0, 0x0, 0x0, 0x0, 0x0⟩]

/-- The register rows of the SCL block. -/
def rowsScl : List RegRow := [
  ⟨0x310000, 24, 0x400, 1, 0x0, 1, 0x0, 0x0, 0x3FF0000, 0x0, 0x1, 0x0, 0x0, 0x0⟩,
  ⟨0x310004, 24, 0x400, 1, 0x0, 1, 0x0, 0x0, 0xFFFFFFFF, 0x0, 0x0, 0x0, 0x0, 0x0⟩,
  ⟨0x310080, 24, 0x400, 128, 0x4, 1, 0x0, 0xFFFFFFFF, 0x0, 0x0, 0x0, 0x0, 0x0, 0x0⟩,
  ⟨0x310280, 24, 0x400, 96, 0x4, 1, 0x0, 0xFFFFFFFF, 0x0, 0x0, 0x0, 0x0, 0x0, 0x0⟩]

/-- The register rows of the POSE block. -/
def rowsPose : List RegRow := [
  ⟨0x400000, 1, 0x0, 1, 0x0, 1, 0x0, 0x1, 0x0, 0x0, 0x0, 0x0, 0x0, 0x0⟩,
  ⟨0x400004, 1, 0x0, 1, 0x0, 1, 0x0, 0xFFFFFF, 0x0, 0x0, 0x0, 0x0, 0x0, 0x1F40⟩,
  ⟨0x400008, 1, 0x0, 1, 0x0, 1, 0x0, 0x0, 0x3FF0FE0, 0x0, 0x1F, 0x0, 0x0, 0x0⟩,
  ⟨0x400010, 1, 0x0, 1, 0x0, 1, 0x0, 0x7FF, 0x0, 0x0, 0x0, 0x0, 0x0, 0x0⟩,
  ⟨0x400014, 1, 0x0, 1, 0x0, 1, 0x0, 0x0, 0x3FFFF, 0x0, 0x0, 0x0, 0x0, 0x0⟩,
  ⟨0x400018, 1, 0x0, 1, 0x0, 1, 0x0, 0x0, 0xFFFFFFFF, 0x0, 0x0, 0x0, 0x0, 0x0⟩,
  ⟨0x40001C, 1, 0x0, 1, 0x0, 1, 0x0, 0x0, 0xFFFFFFFF, 0x0, 0x0, 0x0, 0x0, 0x0⟩,
  ⟨0x400020, 1, 0x0, 1, 0x0, 1, 0x0, 0x0, 0xFFFFFFFF, 0x0, 0x0, 0x0, 0x0, 0x0⟩,
  ⟨0x400024, 1, 0x0, 1, 0x0, 1, 0x0, 0x0, 0xFFFFFFFF, 0x0, 0x0, 0x0, 0x0, 0x0⟩,
  ⟨0x400080, 32, 0x4, 1, 0x0, 1, 0x0, 0x0, 0xFFFFFFFF, 0x0, 0x0, 0x0, 0x0, 0x0⟩,
  ⟨0x400100, 8, 0x10, 1, 0x0, 1, 0x0, 0xFFF7FFFF, 0x0, 0x0, 0x0, 0x0, 0x0, 0x3E800008⟩,
  ⟨0x400104, 8, 0x10, 1, 0x0, 1, 0x0, 0x0, 0xFFFFFFFF, 0x0, 0x0, 0x0, 0x0, 0x0⟩,
  ⟨0x401000, 72, 0x100, 1, 0x0, 1, 0x0, 0x3, 0x0, 0x0, 0x0, 0x0, 0x0, 0x0⟩,
  ⟨0x401004, 72, 0x100, 1, 0x0, 1, 0x0, 0xFFFFFFFF, 0x0, 0x0, 0x0, 0x0, 0x0, 0x0⟩,
  ⟨0x401008, 72, 0x100, 1, 0x0, 1, 0x0, 0x0, 0x1FFFF, 0x0, 0x0, 0x0, 0x0, 0x0⟩,
  ⟨0x40100C, 72, 0x100, 1, 0x0, 1, 0x0, 0x0, 0xFFFFFFFF, 0x0, 0x0, 0x0, 0x0, 0x0⟩,
  ⟨0x401010, 72, 0x100, 1, 0x0, 1, 0x0, 0x0, 0xFFFFFFFF, 0x0, 0x0, 0x0, 0x0, 0x0⟩,
  ⟨0x401018, 72, 0x100, 1, 0x0, 1, 0x0, 0x0, 0xFFFFFFFF, 0x0, 0x0, 0x0, 0x0, 0x0⟩,
  ⟨0x40101C, 72, 0x100, 1, 0x0, 1, 0x0, 0x0, 0xFFFFFFFF, 0x0, 0x0, 0x0, 0x0, 0x0⟩,
  ⟨0x401020, 72, 0x100, 1, 0x0, 1, 0x0, 0xFFFFFFFF, 0x0, 0x0, 0x0, 0x0, 0x0, 0x0⟩,
  ⟨0x401040, 72, 0x100, 9, 0x4, 1, 0x0, 0xFFFFFFFF, 0x0, 0x0, 0x0, 0x0, 0x0, 0x3F800000⟩,
  ⟨0x401064, 72, 0x100, 9, 0x4, 1, 0x0, 0xFFFFFFFF, 0x0, 0x0, 0x0, 0x0, 0x0, 0x3F800000⟩,
  ⟨0x401088, 72, 0x100, 8, 0x4, 1, 0x0, 0xFFFFFFFF, 0x0, 0x0, 0x0, 0x0, 0x0, 0x0⟩,
  ⟨0x4010C0, 72, 0x100, 16, 0x4, 1, 0x0, 0x0, 0xFFFFFFFF, 0x0, 0x0, 0x0, 0x0, 0x0⟩]

/-- The register rows of the DMC block. -/
def rowsDmc : List RegRow := [
  ⟨0x500000, 1, 0x0, 1, 0x0, 1, 0x0, 0x1, 0x0, 0x0, 0x0, 0x2, 0x0, 0x1⟩,
  ⟨0x500004, 1, 0x0, 1, 0x0, 1, 0x0, 0x0, 0xFFFF000F, 0x0, 0x0, 0x0, 0x0, 0x0⟩,
  ⟨0x500008, 1, 0x0, 1, 0x0, 1, 0x0, 0x1, 0x0, 0x0, 0x0, 0x6, 0x0, 0x0⟩,
  ⟨0x50000C, 1, 0x0, 1, 0x0, 1, 0x0, 0x0, 0x33, 0x0, 0x0, 0x0, 0x0, 0x0⟩,
  ⟨0x500010, 1, 0x0, 1, 0x0, 1, 0x0, 0xFFFF, 0x0, 0x0, 0x0, 0x0, 0x0, 0xBB8⟩,
  ⟨0x500014, 1, 0x0, 1, 0x0, 1, 0x0, 0xFFFF, 0x0, 0x0, 0x0, 0x0, 0x0, 0x100⟩,
  ⟨0x500018, 1, 0x0, 1, 0x0, 1, 0x0, 0x0, 0xFFFF0FFF, 0x0, 0x0, 0x0, 0x0, 0x5A8C01E8⟩,
  ⟨0x50001C, 1, 0x0, 1, 0x0, 1, 0x0, 0x0, 0xFFFFFFF, 0x0, 0x0, 0x0, 0x0, 0x0⟩,
  ⟨0x500020, 1, 0x0, 1, 0x0, 1, 0x0, 0xFF03F0, 0x7F00000E, 0x0, 0x0, 0x1, 0x0, 0x100000⟩,
  ⟨0x500024, 1, 0x0, 1, 0x0, 1, 0x0, 0x3FFF3FF, 0x0, 0x0, 0x0, 0x0, 0x0, 0x3FF1000⟩,
  ⟨0x500030, 1, 0x0, 1, 0x0, 1, 0x0, 0x0, 0x73FFF, 0x0, 0x0, 0x0, 0x0, 0x0⟩,
  ⟨0x500034, 1, 0x0, 1, 0x0, 1, 0x0, 0x0, 0xFFFFFFFF, 0x0, 0x0, 0x0, 0x0, 0x0⟩,
  ⟨0x500038, 1, 0x0, 1, 0x0, 1, 0x0, 0x0, 0xFFFFFFFF, 0x0, 0x0, 0x0, 0x0, 0x0⟩,
  ⟨0x50003C, 1, 0x0, 1, 0x0, 1, 0x0, 0x0, 0xFFFFFFFF, 0x0, 0x0, 0x0, 0x0, 0x0⟩,
  ⟨0x500040, 1, 0x0, 1, 0x0, 1, 0x0, 0x0, 0xFFFFFFFF, 0x0, 0x0, 0x0, 0x0, 0x0⟩,
  ⟨0x500080, 8, 0x8, 1, 0x0, 1, 0x0, 0x0, 0x8001FFFF, 0x0, 0x0, 0x0, 0x0, 0x0⟩,
  ⟨0x500084, 8, 0x8, 1, 0x0, 1, 0x0, 0x0, 0x1FFF, 0x0, 0x0, 0x0, 0x0, 0x0⟩,
  ⟨0x500100, 28, 0x4, 1, 0x0, 1, 0x0, 0x3FF03FF, 0x80000000, 0x0, 0x0, 0x0, 0x0, 0x800040⟩,
  ⟨0x500200, 64, 0x4, 1, 0x0, 1, 0x0, 0x0, 0xFFFFFF, 0x0, 0x0, 0x0, 0x0, 0x0⟩,
  ⟨0x501000, 16, 0x800, 1, 0x0, 1, 0x0, 0x0, 0x7F, 0x0, 0x0, 0x0, 0x0, 0x0⟩,
  ⟨0x501004, 16, 0x800, 1, 0x0, 1, 0x0, 0x0, 0x0, 0x0, 0xFF, 0x0, 0x0, 0x0⟩,
  ⟨0x501008, 16, 0x800, 1, 0x0, 1, 0x0, 0x0, 0xFFFF, 0x0, 0x0, 0x0, 0x0, 0x0⟩,
  ⟨0x50100C, 16, 0x800, 1, 0x0, 1, 0x0, 0x0, 0xFFFFFFFF, 0x0, 0x0, 0x0, 0x0, 0x0⟩,
  ⟨0x501010, 16, 0x800, 1, 0x0, 1, 0x0, 0x0, 0xFFFFFFFF, 0x0, 0x0, 0x0, 0x0, 0x0⟩,
  ⟨0x501014, 16, 0x800, 1, 0x0, 1, 0x0, 0xFFFF, 0x0, 0x0, 0x0, 0x0, 0x0, 0x2710⟩,
  ⟨0x501018, 16, 0x800, 1, 0x0, 1, 0x0, 0xFFFFFFFF, 0x0, 0x0, 0x0, 0x0, 0x0, 0x1000200⟩,
  ⟨0x50101C, 16, 0x800, 1, 0x0, 1, 0x0, 0xFFFF, 0x0, 0x0, 0x0, 0x0, 0x0, 0x3E8⟩,
  ⟨0x501020, 16, 0x800, 1, 0x0, 1, 0x0, 0x0, 0xFFFF83FF, 0x0, 0x0, 0x0, 0x0, 0x0⟩,
  ⟨0x501040, 16, 0x800, 2, 0x10, 2, 0x4, 0x3FF03FF, 0x0, 0x0, 0x0, 0x0, 0x0, 0x0⟩,
  ⟨0x501048, 16, 0x800, 2, 0x10, 1, 0x0, 0x7F7F7F, 0x0, 0x0, 0x0, 0x0, 0x0, 0x404040⟩,
  ⟨0x50104C, 16, 0x800, 2, 0x10, 1, 0x0, 0x3FF, 0x0, 0x0, 0x0, 0x0, 0x0, 0x0⟩]

/-- The register rows of the CXL block. -/
def rowsCxl : List RegRow := [
  ⟨0x600000, 1, 0x0, 1, 0x0, 1, 0x0, 0x0, 0xFFFF01FF, 0x0, 0x0, 0x0, 0x0, 0x0⟩,
  ⟨0x600004, 1, 0x0, 1, 0x0, 1, 0x0, 0xFFFF, 0x0, 0x0, 0x0, 0x0, 0x0, 0x320⟩,
  ⟨0x600008, 1, 0x0, 1, 0x0, 1, 0x0, 0x0, 0xFFFF, 0x0, 0x0, 0x80000000, 0x0, 0x0⟩,
  ⟨0x60000C, 1, 0x0, 1, 0x0, 1, 0x0, 0x0, 0xFFFFFFFF, 0x0, 0x0, 0x0, 0x0, 0x0⟩,
  ⟨0x600010, 1, 0x0, 1, 0x0, 1, 0x0, 0x0, 0xFFFF3FFF, 0x0, 0x0, 0x0, 0x0, 0x0⟩,
  ⟨0x600014, 1, 0x0, 1, 0x0, 1, 0x0, 0x0, 0x0, 0x0, 0x1F, 0x0, 0x0, 0x0⟩,
  ⟨0x600018, 1, 0x0, 1, 0x0, 1, 0x0, 0x0, 0x1FFF, 0x0, 0x0, 0x0, 0x0, 0x0⟩,
  ⟨0x600020, 1, 0x0, 1, 0x0, 1, 0x0, 0x0, 0xFFFFFFFF, 0x0, 0x0, 0x0, 0x0, 0x0⟩,
  ⟨0x600024, 1, 0x0, 1, 0x0, 1, 0x0, 0x0, 0xFFFFFFFF, 0x0, 0x0, 0x0, 0x0, 0x0⟩,
  ⟨0x600040, 4, 0x4, 1, 0x0, 1, 0x0, 0x37, 0x0, 0x0, 0x0, 0x0, 0x0, 0x0⟩]

/-- The register rows of the DMA block. -/
def rowsDma : List RegRow := [
  ⟨0x610000, 1, 0x0, 1, 0x0, 1, 0x0, 0x0, 0x0, 0x0, 0x0, 0x1, 0x0, 0x0⟩,
  ⟨0x610004, 1, 0x0, 1, 0x0, 1, 0x0, 0x0, 0xFFFF0001, 0x0, 0x0, 0x0, 0x0, 0x0⟩,
  ⟨0x610008, 1, 0x0, 1, 0x0, 1, 0x0, 0x0, 0xFF, 0x0, 0x0, 0x0, 0x0, 0x0⟩,
  ⟨0x61000C, 1, 0x0, 1, 0x0, 1, 0x0, 0x0, 0xFFFFFFFF, 0x0, 0x0, 0x0, 0x0, 0x0⟩,
  ⟨0x610010, 1, 0x0, 1, 0x0, 1, 0x0, 0x0, 0xFFFFFFFF, 0x0, 0x0, 0x0, 0x0, 0x0⟩,
  ⟨0x610100, 16, 0x20, 1, 0x0, 1, 0x0, 0xF7F03, 0x0, 0x0, 0x0, 0xC, 0x0, 0x40400⟩,
  ⟨0x610104, 16, 0x20, 1, 0x0, 1, 0x0, 0xFFFFFFFF, 0x0, 0x0, 0x0, 0x0, 0x0, 0x0⟩,
  ⟨0x610108, 16, 0x20, 1, 0x0, 1, 0x0, 0xFFFFFFFF, 0x0, 0x0, 0x0, 0x0, 0x0, 0x0⟩,
  ⟨0x61010C, 16, 0x20, 1, 0x0, 1, 0x0, 0xFFF, 0x0, 0x0, 0x0, 0x0, 0x0, 0x0⟩,
  ⟨0x610110, 16, 0x20, 1, 0x0, 1, 0x0, 0xFFF, 0x0, 0x0, 0x0, 0x0, 0x0, 0x0⟩,
  ⟨0x610114, 16, 0x20, 1, 0x0, 1, 0x0, 0x0, 0xF3, 0x0, 0x0, 0x0, 0x0, 0x0⟩,
  ⟨0x610118, 16, 0x20, 1, 0x0, 1, 0x0, 0x0, 0x0, 0x0, 0xF, 0x0, 0x0, 0x0⟩,
  ⟨0x61011C, 16, 0x20, 1, 0x0, 1, 0x0, 0x0, 0xFFFFFFFF, 0x0, 0x0, 0x0, 0x0, 0x0⟩]

/-- The register rows of the BLT block. -/
def rowsBlt : List RegRow := [
  ⟨0x700000, 1, 0x0, 1, 0x0, 1, 0x0, 0xF11, 0x0, 0x0, 0x0, 0xE, 0x0, 0x400⟩,
  ⟨0x700004, 1, 0x0, 1, 0x0, 1, 0x0, 0x0, 0xF7, 0x0, 0x0, 0x0, 0x0, 0x0⟩,
  ⟨0x700008, 1, 0x0, 1, 0x0, 1, 0x0, 0xFFFFFFFF, 0x0, 0x0, 0x0, 0x0, 0x0, 0x0⟩,
  ⟨0x70000C, 1, 0x0, 1, 0x0, 1, 0x0, 0xFFFFFFFF, 0x0, 0x0, 0x0, 0x0, 0x0, 0x0⟩,
  ⟨0x700010, 1, 0x0, 1, 0x0, 1, 0x0, 0x0, 0xFFF, 0x0, 0x0, 0x0, 0x0, 0x0⟩,
  ⟨0x700014, 1, 0x0, 1, 0x0, 1, 0x0, 0xFFF, 0x0, 0x0, 0x0, 0x0, 0x0, 0x0⟩,
  ⟨0x700018, 1, 0x0, 1, 0x0, 1, 0x0, 0xFFFF, 0x0, 0x0, 0x0, 0x0, 0x0, 0x0⟩,
  ⟨0x70001C, 1, 0x0, 1, 0x0, 1, 0x0, 0x0, 0xFFFF, 0x0, 0x0, 0x0, 0x0, 0x0⟩,
  ⟨0x700020, 1, 0x0, 1, 0x0, 1, 0x0, 0x0, 0x0, 0x0, 0xF, 0x0, 0x0, 0x0⟩,
  ⟨0x700024, 1, 0x0, 1, 0x0, 1, 0x0, 0x0, 0x0, 0x0, 0xFFFFFFFF, 0x0, 0x0, 0x0⟩,
  ⟨0x700028, 1, 0x0, 1, 0x0, 1, 0x0, 0x0, 0xFFFFFFFF, 0x0, 0x0, 0x0, 0x0, 0x0⟩,
  ⟨0x70002C, 1, 0x0, 1, 0x0, 1, 0x0, 0x0, 0xFFFFFFFF, 0x0, 0x0, 0x0, 0x0, 0x0⟩,
  ⟨0x700040, 4, 0x40, 9, 0x4, 1, 0x0, 0x7FFFF, 0x0, 0x0, 0x0, 0x0, 0x0, 0x0⟩]

/-- The register rows of the NET block. -/
def rowsNet : List RegRow := [
  ⟨0x800000, 1, 0x0, 1, 0x0, 1, 0x0, 0x3, 0x0, 0x0, 0x0, 0x0, 0x0, 0x0⟩,
  ⟨0x800004, 1, 0x0, 1, 0x0, 1, 0x0, 0x3FF, 0x7FF0000, 0x0, 0x0, 0x0, 0x0, 0x300⟩,
  ⟨0x800008, 1, 0x0, 1, 0x0, 1, 0x0, 0x0, 0xFFFFFFFF, 0x0, 0x0, 0x0, 0x0, 0x0⟩,
  ⟨0x80000C, 1, 0x0, 1, 0x0, 1, 0x0, 0x0, 0xFFFF0000, 0x0, 0x3F, 0x0, 0x0, 0x0⟩,
  ⟨0x800010, 4, 0x4, 1, 0x0, 1, 0x0, 0xFFFFFFFF, 0x0, 0x0, 0x0, 0x0, 0x0, 0x0⟩,
  ⟨0x800020, 1, 0x0, 1, 0x0, 1, 0x0, 0xFFFFFFFF, 0x0, 0x0, 0x0, 0x0, 0x0, 0x0⟩,
  ⟨0x800024, 1, 0x0, 1, 0x0, 1, 0x0, 0xFFFFFFFF, 0x0, 0x0, 0x0, 0x0, 0x0, 0x0⟩,
  ⟨0x800028, 1, 0x0, 1, 0x0, 1, 0x0, 0xF03, 0xFFFF0000, 0x0, 0x0, 0x0, 0x0, 0x400⟩,
  ⟨0x80002C, 1, 0x0, 1, 0x0, 1, 0x0, 0x3FF, 0x0, 0x0, 0x0, 0x0, 0x0, 0x0⟩,
  ⟨0x800030, 1, 0x0, 1, 0x0, 1, 0x0, 0x0, 0x3FF, 0x0, 0x0, 0x0, 0x0, 0x0⟩,
  ⟨0x800100, 8, 0x20, 1, 0x0, 1, 0x0, 0xFFFF0007, 0x0, 0x0, 0x0, 0x0, 0x0, 0x0⟩,
  ⟨0x800104, 8, 0x20, 1, 0x0, 1, 0x0, 0x0, 0x7, 0x0, 0x0, 0x0, 0x0, 0x0⟩,
  ⟨0x800108, 8, 0x20, 1, 0x0, 1, 0x0, 0x0, 0xFFFFFFFF, 0x0, 0x0, 0x0, 0x0, 0x0⟩,
  ⟨0x80010C, 8, 0x20, 1, 0x0, 1, 0x0, 0x0, 0xFFFFFFFF, 0x0, 0x0, 0x0, 0x0, 0x0⟩,
  ⟨0x800110, 8, 0x20, 1, 0x0, 1, 0x0, 0x0, 0xFFFFFFFF, 0x0, 0x0, 0x0, 0x0, 0x0⟩,
  ⟨0x801000, 256, 0x40, 1, 0x0, 1, 0x0, 0xFFFFF7F, 0x0, 0x0, 0x0, 0x0, 0x0, 0x0⟩,
  ⟨0x801004, 256, 0x40, 1, 0x0, 1, 0x0, 0xFFFFFFFF, 0x0, 0x0, 0x0, 0x0, 0x0, 0x0⟩,
  ⟨0x801008, 256, 0x40, 1, 0x0, 1, 0x0, 0xFFFFFFFF, 0x0, 0x0, 0x0, 0x0, 0x0, 0x0⟩,
  ⟨0x80100C, 256, 0x40, 1, 0x0, 1, 0x0, 0x1FFFFFFF, 0x0, 0x0, 0x0, 0x0, 0x0, 0x0⟩,
  ⟨0x801010, 256, 0x40, 1, 0x0, 1, 0x0, 0xFFFFFF, 0x0, 0x0, 0x0, 0x0, 0x0, 0x0⟩,
  ⟨0x801014, 256, 0x40, 1, 0x0, 1, 0x0, 0xFFFFFF, 0x0, 0x0, 0x0, 0x0, 0x0, 0x0⟩,
  ⟨0x801018, 256, 0x40, 1, 0x0, 1, 0x0, 0xFFFFFF, 0x0, 0x0, 0x0, 0x0, 0x0, 0x0⟩,
  ⟨0x80101C, 256, 0x40, 1, 0x0, 1, 0x0, 0xFFFFFF, 0x0, 0x0, 0x0, 0x0, 0x0, 0x0⟩,
  ⟨0x801020, 256, 0x40, 1, 0x0, 1, 0x0, 0xFFFFFFFF, 0x0, 0x0, 0x0, 0x0, 0x0, 0x0⟩,
  ⟨0x801024, 256, 0x40, 1, 0x0, 1, 0x0, 0xFFFFFFFF, 0x0, 0x0, 0x0, 0x0, 0x0, 0x0⟩,
  ⟨0x801028, 256, 0x40, 1, 0x0, 1, 0x0, 0x3FFF3FFF, 0x0, 0x0, 0x0, 0x0, 0x0, 0x10001⟩,
  ⟨0x80102C, 256, 0x40, 1, 0x0, 1, 0x0, 0xFFFFFFFF, 0x0, 0x0, 0x0, 0x0, 0x0, 0x0⟩,
  ⟨0x801030, 256, 0x40, 1, 0x0, 1, 0x0, 0xFFFFFFFF, 0x0, 0x0, 0x0, 0x0, 0x0, 0x0⟩,
  ⟨0x801038, 256, 0x40, 1, 0x0, 1, 0x0, 0xFFFF00F7, 0x0, 0x0, 0x0, 0x0, 0x0, 0x4E200030⟩,
  ⟨0x80103C, 256, 0x40, 1, 0x0, 1, 0x0, 0x0, 0xFFFFFFFF, 0x0, 0x0, 0x0, 0x0, 0x0⟩,
  ⟨0x808000, 256, 0x10, 1, 0x0, 1, 0x0, 0x0, 0xFFFFFFFF, 0x0, 0x0, 0x0, 0x0, 0x0⟩,
  ⟨0x808004, 256, 0x10, 1, 0x0, 1, 0x0, 0x0, 0xFFFFFFFF, 0x0, 0x0, 0x0, 0x0, 0x0⟩,
  ⟨0x808008, 256, 0x10, 1, 0x0, 1, 0x0, 0x0, 0xFFFFFFFF, 0x0, 0x0, 0x0, 0x0, 0x0⟩,
  ⟨0x80800C, 256, 0x10, 1, 0x0, 1, 0x0, 0x0, 0xFFFFFFFF, 0x0, 0x0, 0x0, 0x0, 0x0⟩,
  ⟨0x80C000, 256, 0x8, 1, 0x0, 1, 0x0, 0x0, 0xFFFF001F, 0x0, 0x20, 0x0, 0x0, 0x0⟩,
  ⟨0x80C004, 256, 0x8, 1, 0x0, 1, 0x0, 0x0, 0xFFFFFF, 0x0, 0x0, 0x0, 0x0, 0x0⟩]

/-- The register rows of the TSP block. -/
def rowsTsp : List RegRow := [
  ⟨0x810004, 1, 0x0, 1, 0x0, 1, 0x0, 0x0, 0xFFFF0010, 0x0, 0xF, 0x0, 0x0, 0x0⟩,
  ⟨0x810008, 1, 0x0, 1, 0x0, 1, 0x0, 0xFFFFFFFF, 0x0, 0x0, 0x0, 0x0, 0x0, 0x20⟩,
  ⟨0x81000C, 1, 0x0, 1, 0x0, 1, 0x0, 0x0, 0xFFFFFFFF, 0x0, 0x0, 0x0, 0x0, 0x0⟩,
  ⟨0x810010, 1, 0x0, 1, 0x0, 1, 0x0, 0xFFF, 0x0, 0x0, 0x0, 0x0, 0x0, 0x80⟩,
  ⟨0x810014, 2, 0x4, 1, 0x0, 1, 0x0, 0xFFFFFFFF, 0x0, 0x0, 0x0, 0x0, 0x0, 0x0⟩,
  ⟨0x81001C, 1, 0x0, 1, 0x0, 1, 0x0, 0xFF, 0x0, 0x0, 0x0, 0x0, 0x0, 0x0⟩,
  ⟨0x810020, 1, 0x0, 1, 0x0, 1, 0x0, 0xFFFFFFFF, 0x0, 0x0, 0x0, 0x0, 0x0, 0x0⟩,
  ⟨0x810024, 1, 0x0, 1, 0x0, 1, 0x0, 0xFFFFFFFF, 0x0, 0x0, 0x0, 0x0, 0x0, 0x0⟩,
  ⟨0x810028, 1, 0x0, 1, 0x0, 1, 0x0, 0xF01, 0xFFFF0000, 0x0, 0x0, 0x0, 0x0, 0x400⟩,
  ⟨0x81002C, 1, 0x0, 1, 0x0, 1, 0x0, 0x0, 0x3FF, 0x0, 0x0, 0x0, 0x0, 0x0⟩,
  ⟨0x810030, 1, 0x0, 1, 0x0, 1, 0x0, 0x3FF, 0x0, 0x0, 0x0, 0x0, 0x0, 0x0⟩,
  ⟨0x810200, 32, 0x20, 1, 0x0, 1, 0x0, 0xFF0F, 0x0, 0x0, 0x0, 0x0, 0x0, 0x1000⟩,
  ⟨0x810204, 32, 0x20, 1, 0x0, 1, 0x0, 0xFFFFFFFF, 0x0, 0x0, 0x0, 0x0, 0x0, 0x0⟩,
  ⟨0x810208, 32, 0x20, 1, 0x0, 1, 0x0, 0xFFFFFFFF, 0x0, 0x0, 0x0, 0x0, 0x0, 0x0⟩,
  ⟨0x81020C, 32, 0x20, 1, 0x0, 1, 0x0, 0xFFFFFFFF, 0x0, 0x0, 0x0, 0x0, 0x0, 0x0⟩,
  ⟨0x810210, 32, 0x20, 1, 0x0, 1, 0x0, 0x0, 0xFFFFFFFF, 0x0, 0x0, 0x0, 0x0, 0x0⟩,
  ⟨0x810214, 32, 0x20, 1, 0x0, 1, 0x0, 0x0, 0x0, 0x0, 0x0, 0x1, 0x0, 0x0⟩,
  ⟨0x810600, 32, 0x4, 1, 0x0, 1, 0x0, 0x3FFF0FFF, 0x0, 0x0, 0x0, 0x0, 0x0, 0x5780080⟩,
  ⟨0x814000, 64, 0x100, 1, 0x0, 1, 0x0, 0x1FF, 0x0, 0x0, 0x0, 0x0, 0x0, 0x0⟩,
  ⟨0x814004, 64, 0x100, 63, 0x4, 1, 0x0, 0xFFFFFFFF, 0x0, 0x0, 0x0, 0x0, 0x0, 0x0⟩,
  ⟨0x818000, 2048, 0x10, 1, 0x0, 1, 0x0, 0xFFFFF, 0x0, 0x0, 0x0, 0x0, 0x0, 0x0⟩,
  ⟨0x818004, 2048, 0x10, 1, 0x0, 1, 0x0, 0x3FFF3FFF, 0x0, 0x0, 0x0, 0x0, 0x0, 0x0⟩,
  ⟨0x818008, 2048, 0x10, 1, 0x0, 1, 0x0, 0xFFFF01FF, 0x0, 0x0, 0x0, 0x0, 0x0, 0x10000⟩,
  ⟨0x81800C, 2048, 0x10, 1, 0x0, 1, 0x0, 0x1FFFFFF, 0x0, 0x0, 0x0, 0x0, 0x0, 0x10001⟩]

/-- The register rows of the CDC block. -/
def rowsCdc : List RegRow := [
  ⟨0x900000, 1, 0x0, 1, 0x0, 1, 0x0, 0xF, 0x0, 0x0, 0x0, 0x0, 0x0, 0xF⟩,
  ⟨0x900004, 1, 0x0, 1, 0x0, 1, 0x0, 0x0, 0xFFFFF0F, 0x0, 0x0, 0x0, 0x0, 0x0⟩,
  ⟨0x900008, 1, 0x0, 1, 0x0, 1, 0x0, 0x3F3F, 0x0, 0x0, 0x0, 0x0, 0x0, 0x0⟩,
  ⟨0x901000, 32, 0x80, 1, 0x0, 1, 0x0, 0xFFF3F7, 0x0, 0x0, 0x0, 0x0, 0x0, 0x4470F0⟩,
  ⟨0x901004, 32, 0x80, 1, 0x0, 1, 0x0, 0x3FFF3FFF, 0x0, 0x0, 0x0, 0x0, 0x0, 0x8700F00⟩,
  ⟨0x901008, 32, 0x80, 1, 0x0, 1, 0x0, 0xFFFFFFFF, 0x0, 0x0, 0x0, 0x0, 0x0, 0x0⟩,
  ⟨0x90100C, 32, 0x80, 1, 0x0, 1, 0x0, 0xFFFFFFFF, 0x0, 0x0, 0x0, 0x0, 0x0, 0x0⟩,
  ⟨0x901010, 32, 0x80, 1, 0x0, 1, 0x0, 0x0, 0xFFF, 0x0, 0x0, 0x0, 0x0, 0x0⟩,
  ⟨0x901014, 32, 0x80, 1, 0x0, 1, 0x0, 0xFFF, 0x0, 0x0, 0x0, 0x0, 0x0, 0x0⟩,
  ⟨0x901018, 32, 0x80, 1, 0x0, 1, 0x0, 0xFFFFFFFF, 0x0, 0x0, 0x0, 0x0, 0x0, 0x0⟩,
  ⟨0x90101C, 32, 0x80, 1, 0x0, 1, 0x0, 0xFFFFFFFF, 0x0, 0x0, 0x0, 0x0, 0x0, 0x0⟩,
  ⟨0x901020, 32, 0x80, 1, 0x0, 1, 0x0, 0xFFFFFFFF, 0x0, 0x0, 0x0, 0x0, 0x0, 0x0⟩,
  ⟨0x901024, 32, 0x80, 1, 0x0, 1, 0x0, 0xFFFFFFFF, 0x0, 0x0, 0x0, 0x0, 0x0, 0x0⟩,
  ⟨0x901028, 32, 0x80, 1, 0x0, 1, 0x0, 0xFFFFFFFF, 0x0, 0x0, 0x0, 0x0, 0x0, 0x0⟩,
  ⟨0x90102C, 32, 0x80, 1, 0x0, 1, 0x0, 0xFFFFFFFF, 0x0, 0x0, 0x0, 0x0, 0x0, 0x0⟩,
  ⟨0x901030, 32, 0x80, 1, 0x0, 1, 0x0, 0xFFFFFFFF, 0x0, 0x0, 0x0, 0x0, 0x0, 0x0⟩,
  ⟨0x901034, 32, 0x80, 1, 0x0, 1, 0x0, 0xFFFFFFFF, 0x0, 0x0, 0x0, 0x0, 0x0, 0x0⟩,
  ⟨0x901038, 32, 0x80, 1, 0x0, 1, 0x0, 0xFFFFFFFF, 0x0, 0x0, 0x0, 0x0, 0x0, 0x0⟩,
  ⟨0x90103C, 32, 0x80, 1, 0x0, 1, 0x0, 0xFFFFFFFF, 0x0, 0x0, 0x0, 0x0, 0x0, 0x0⟩,
  ⟨0x901040, 32, 0x80, 1, 0x0, 1, 0x0, 0x0, 0xFFFFFFFF, 0x0, 0x0, 0x0, 0x0, 0x0⟩,
  ⟨0x901044, 32, 0x80, 1, 0x0, 1, 0x0, 0x0, 0xFFFFF0FF, 0x0, 0x100, 0x600, 0x0, 0x0⟩,
  ⟨0x901048, 32, 0x80, 1, 0x0, 1, 0x0, 0x0, 0x0, 0x0, 0x1F, 0x0, 0x0, 0x0⟩,
  ⟨0x90104C, 32, 0x80, 1, 0x0, 1, 0x0, 0xFFFFFF01, 0x0, 0x0, 0x0, 0x0, 0x0, 0x40808000⟩,
  ⟨0x901050, 32, 0x80, 1, 0x0, 1, 0x0, 0xFFFFFFFF, 0x0, 0x0, 0x0, 0x0, 0x0, 0x0⟩,
  ⟨0x901054, 32, 0x80, 1, 0x0, 1, 0x0, 0xFFFFFFFF, 0x0, 0x0, 0x0, 0x0, 0x0, 0x0⟩,
  ⟨0x901058, 32, 0x80, 1, 0x0, 1, 0x0, 0xFFFFFFFF, 0x0, 0x0, 0x0, 0x0, 0x0, 0x0⟩,
  ⟨0x90105C, 32, 0x80, 1, 0x0, 1, 0x0, 0x0, 0xFFFFFFFF, 0x0, 0x0, 0x0, 0x0, 0x0⟩,
  ⟨0x901060, 32, 0x80, 1, 0x0, 1, 0x0, 0x0, 0xFFFFFFFF, 0x0, 0x0, 0x0, 0x0, 0x0⟩]

/-- The register rows of the WLK block. -/
def rowsWlk : List RegRow := [
  ⟨0xA00000, 1, 0x0, 1, 0x0, 1, 0x0, 0x1, 0x0, 0x0, 0x0, 0x0, 0x0, 0x0⟩,
  ⟨0xA00004, 1, 0x0, 1, 0x0, 1, 0x0, 0x0, 0x1FFFF, 0x0, 0x0, 0x0, 0x0, 0x0⟩,
  ⟨0xA00100, 16, 0x40, 1, 0x0, 1, 0x0, 0x7, 0x0, 0x0, 0x0, 0x0, 0x0, 0x0⟩,
  ⟨0xA00104, 16, 0x40, 1, 0x0, 1, 0x0, 0x0, 0x303, 0x0, 0x0, 0x0, 0x0, 0x0⟩,
  ⟨0xA00108, 16, 0x40, 1, 0x0, 1, 0x0, 0x0, 0x0, 0x0, 0xF, 0x0, 0x0, 0x0⟩,
  ⟨0xA0010C, 16, 0x40, 1, 0x0, 1, 0x0, 0x0, 0xFFFFFFFF, 0x0, 0x0, 0x0, 0x0, 0x0⟩,
  ⟨0xA00110, 16, 0x40, 1, 0x0, 1, 0x0, 0x0, 0xFFFFFFFF, 0x0, 0x0, 0x0, 0x0, 0x0⟩,
  ⟨0xA00114, 16, 0x40, 1, 0x0, 1, 0x0, 0x0, 0xFFFFFFFF, 0x0, 0x0, 0x0, 0x0, 0x0⟩,
  ⟨0xA00118, 16, 0x40, 4, 0x4, 1, 0x0, 0x0, 0x3FFF3FFF, 0x0, 0x0, 0x0, 0x0, 0x0⟩,
  ⟨0xA00128, 16, 0x40, 4, 0x4, 1, 0x0, 0x0, 0xFFFFFFFF, 0x0, 0x0, 0x0, 0x0, 0x0⟩,
  ⟨0xA00138, 16, 0x40, 1, 0x0, 1, 0x0, 0x0, 0xFFFF, 0x0, 0x0, 0x0, 0x0, 0x0⟩]

/-- The register rows of the MIR block. -/
def rowsMir : List RegRow := [
  ⟨0xB00000, 1, 0x0, 1, 0x0, 1, 0x0, 0x3, 0x0, 0x0, 0x0, 0x4, 0x0, 0x0⟩,
  ⟨0xB00004, 1, 0x0, 1, 0x0, 1, 0x0, 0xF0FFF7F, 0x0, 0x0, 0x0, 0x0, 0x0, 0xF032000⟩,
  ⟨0xB00008, 1, 0x0, 1, 0x0, 1, 0x0, 0x0, 0xFFFF00FF, 0x0, 0x0, 0x0, 0x0, 0x0⟩,
  ⟨0xB0000C, 1, 0x0, 1, 0x0, 1, 0x0, 0x0, 0x0, 0x0, 0x1FF, 0x0, 0x0, 0x0⟩,
  ⟨0xB00010, 1, 0x0, 1, 0x0, 1, 0x0, 0x0, 0xFFFF, 0x0, 0x0, 0x0, 0x0, 0x0⟩,
  ⟨0xB00014, 1, 0x0, 1, 0x0, 1, 0x0, 0x0, 0xFFFFFFFF, 0x0, 0x0, 0x0, 0x0, 0x0⟩,
  ⟨0xB00018, 1, 0x0, 1, 0x0, 1, 0x0, 0x0, 0xFFFFFF, 0x0, 0x0, 0x0, 0x0, 0x0⟩]

/-- The register rows of the FLT block. -/
def rowsFlt : List RegRow := [
  ⟨0xC00000, 1, 0x0, 1, 0x0, 1, 0x0, 0x1, 0x0, 0x0, 0x0, 0x2, 0x0, 0x0⟩,
  ⟨0xC00004, 1, 0x0, 1, 0x0, 1, 0x0, 0x0, 0x1FFF1FFF, 0x0, 0x0, 0x0, 0x0, 0x100⟩,
  ⟨0xC00008, 1, 0x0, 1, 0x0, 1, 0x0, 0x0, 0x7FFF00, 0x0, 0x3, 0x0, 0x0, 0x0⟩,
  ⟨0xC00100, 16, 0x20, 1, 0x0, 1, 0x0, 0x0, 0x0, 0x0, 0x0, 0x0, 0x1FFFF, 0x1000⟩,
  ⟨0xC00104, 16, 0x20, 1, 0x0, 1, 0x0, 0x0, 0x0, 0x0, 0x0, 0x0, 0xFFFFFFFF, 0x0⟩,
  ⟨0xC00108, 16, 0x20, 1, 0x0, 1, 0x0, 0x0, 0x0, 0x0, 0x0, 0x0, 0xFFFFFFFF, 0x0⟩,
  ⟨0xC0010C, 16, 0x20, 1, 0x0, 1, 0x0, 0x0, 0x0, 0x0, 0x0, 0x0, 0xFFFFF, 0x0⟩,
  ⟨0xC00110, 16, 0x20, 1, 0x0, 1, 0x0, 0x0, 0x0, 0x0, 0x0, 0x0, 0xFFFFFFFF, 0x0⟩,
  ⟨0xC00114, 16, 0x20, 1, 0x0, 1, 0x0, 0x0, 0x7FFF000F, 0x0, 0x30, 0x0, 0x0, 0x0⟩]

/-- The register rows of the FINJ block. -/
def rowsFinj : List RegRow := [
  ⟨0xD00000, 1, 0x0, 1, 0x0, 1, 0x0, 0x1, 0x0, 0x0, 0x0, 0x0, 0x0, 0x0⟩,
  ⟨0xD00004, 1, 0x0, 1, 0x0, 1, 0x0, 0x0, 0x3F0000, 0x0, 0xF, 0x0, 0x0, 0x0⟩,
  ⟨0xD00100, 36, 0x10, 1, 0x0, 1, 0x0, 0xFFFF000F, 0x0, 0x0, 0x0, 0x0, 0x0, 0x0⟩,
  ⟨0xD00104, 36, 0x10, 1, 0x0, 1, 0x0, 0xFFFFFFFF, 0x0, 0x0, 0x0, 0x0, 0x0, 0x1⟩,
  ⟨0xD00108, 36, 0x10, 1, 0x0, 1, 0x0, 0xFFFF0000, 0xFFFF, 0x0, 0x0, 0x0, 0x0, 0x0⟩]

/-- The register rows of the PSTORE block. -/
def rowsPstore : List RegRow := [
  ⟨0x1000000, 12, 0x100000, 65536, 0x4, 1, 0x0, 0xFFFFFFFF, 0x0, 0x0, 0x0, 0x0, 0x0, 0x0⟩,
  ⟨0x1040000, 12, 0x100000, 3, 0x40000, 9, 0x4, 0x7FFFF, 0x0, 0x0, 0x0, 0x0, 0x0, 0x10000⟩,
  ⟨0x1040100, 12, 0x100000, 3, 0x40000, 2048, 0x4, 0xFFFFFFFF, 0x0, 0x0, 0x0, 0x0, 0x0, 0x0⟩,
  ⟨0x1044000, 12, 0x100000, 3, 0x40000, 53905, 0x4, 0xFFFFFFFF, 0x0, 0x0, 0x0, 0x0, 0x0, 0x0⟩,
  ⟨0x1078A44, 12, 0x100000, 3, 0x40000, 1, 0x0, 0xFFFF, 0x0, 0x0, 0x0, 0x0, 0x0, 0x0⟩]

/-- The _LO word of every register pair (R9). -/
def pairRows : List RegRow := [
  ⟨0x20008, 1, 0x0, 1, 0x0, 1, 0x0, 0x0, 0xFFFFFFFF, 0x0, 0x0, 0x0, 0x0, 0x0⟩,
  ⟨0x22000, 16, 0x10, 1, 0x0, 1, 0x0, 0xFFFFFFFF, 0x0, 0x0, 0x0, 0x0, 0x0, 0x0⟩,
  ⟨0x40000, 1, 0x0, 1, 0x0, 1, 0x0, 0x0, 0xFFFFFFFF, 0x0, 0x0, 0x0, 0x0, 0x0⟩,
  ⟨0x40008, 1, 0x0, 1, 0x0, 1, 0x0, 0x0, 0xFFFFFFFF, 0x0, 0x0, 0x0, 0x0, 0x0⟩,
  ⟨0x40038, 1, 0x0, 1, 0x0, 1, 0x0, 0x0, 0xFFFFFFFF, 0x0, 0x0, 0x0, 0x0, 0x0⟩,
  ⟨0x50020, 1, 0x0, 1, 0x0, 1, 0x0, 0xFFFFFFFF, 0x0, 0x0, 0x0, 0x0, 0x0, 0x0⟩,
  ⟨0x100024, 128, 0x1000, 1, 0x0, 1, 0x0, 0x0, 0xFFFFFFFF, 0x0, 0x0, 0x0, 0x0, 0x0⟩,
  ⟨0x200008, 1024, 0x100, 1, 0x0, 1, 0x0, 0x0, 0x0, 0x0, 0x0, 0x0, 0xFFFFFFFF, 0x0⟩,
  ⟨0x300018, 12, 0x1000, 1, 0x0, 1, 0x0, 0x0, 0xFFFFFFFF, 0x0, 0x0, 0x0, 0x0, 0x0⟩,
  ⟨0x300020, 12, 0x1000, 1, 0x0, 1, 0x0, 0x0, 0xFFFFFFFF, 0x0, 0x0, 0x0, 0x0, 0x0⟩,
  ⟨0x400018, 1, 0x0, 1, 0x0, 1, 0x0, 0x0, 0xFFFFFFFF, 0x0, 0x0, 0x0, 0x0, 0x0⟩,
  ⟨0x400020, 1, 0x0, 1, 0x0, 1, 0x0, 0x0, 0xFFFFFFFF, 0x0, 0x0, 0x0, 0x0, 0x0⟩,
  ⟨0x401018, 72, 0x100, 1, 0x0, 1, 0x0, 0x0, 0xFFFFFFFF, 0x0, 0x0, 0x0, 0x0, 0x0⟩,
  ⟨0x500034, 1, 0x0, 1, 0x0, 1, 0x0, 0x0, 0xFFFFFFFF, 0x0, 0x0, 0x0, 0x0, 0x0⟩,
  ⟨0x50003C, 1, 0x0, 1, 0x0, 1, 0x0, 0x0, 0xFFFFFFFF, 0x0, 0x0, 0x0, 0x0, 0x0⟩,
  ⟨0x50100C, 16, 0x800, 1, 0x0, 1, 0x0, 0x0, 0xFFFFFFFF, 0x0, 0x0, 0x0, 0x0, 0x0⟩,
  ⟨0x600020, 1, 0x0, 1, 0x0, 1, 0x0, 0x0, 0xFFFFFFFF, 0x0, 0x0, 0x0, 0x0, 0x0⟩,
  ⟨0x61000C, 1, 0x0, 1, 0x0, 1, 0x0, 0x0, 0xFFFFFFFF, 0x0, 0x0, 0x0, 0x0, 0x0⟩,
  ⟨0x610104, 16, 0x20, 1, 0x0, 1, 0x0, 0xFFFFFFFF, 0x0, 0x0, 0x0, 0x0, 0x0, 0x0⟩,
  ⟨0x700008, 1, 0x0, 1, 0x0, 1, 0x0, 0xFFFFFFFF, 0x0, 0x0, 0x0, 0x0, 0x0, 0x0⟩,
  ⟨0x700028, 1, 0x0, 1, 0x0, 1, 0x0, 0x0, 0xFFFFFFFF, 0x0, 0x0, 0x0, 0x0, 0x0⟩,
  ⟨0x800020, 1, 0x0, 1, 0x0, 1, 0x0, 0xFFFFFFFF, 0x0, 0x0, 0x0, 0x0, 0x0, 0x0⟩,
  ⟨0x801020, 256, 0x40, 1, 0x0, 1, 0x0, 0xFFFFFFFF, 0x0, 0x0, 0x0, 0x0, 0x0, 0x0⟩,
  ⟨0x810020, 1, 0x0, 1, 0x0, 1, 0x0, 0xFFFFFFFF, 0x0, 0x0, 0x0, 0x0, 0x0, 0x0⟩,
  ⟨0x901008, 32, 0x80, 1, 0x0, 1, 0x0, 0xFFFFFFFF, 0x0, 0x0, 0x0, 0x0, 0x0, 0x0⟩,
  ⟨0x901018, 32, 0x80, 1, 0x0, 1, 0x0, 0xFFFFFFFF, 0x0, 0x0, 0x0, 0x0, 0x0, 0x0⟩,
  ⟨0x901024, 32, 0x80, 1, 0x0, 1, 0x0, 0xFFFFFFFF, 0x0, 0x0, 0x0, 0x0, 0x0, 0x0⟩,
  ⟨0x90102C, 32, 0x80, 1, 0x0, 1, 0x0, 0xFFFFFFFF, 0x0, 0x0, 0x0, 0x0, 0x0, 0x0⟩,
  ⟨0xC00104, 16, 0x20, 1, 0x0, 1, 0x0, 0x0, 0x0, 0x0, 0x0, 0x0, 0xFFFFFFFF, 0x0⟩]

end Sys2Proof.Machine
end

