-- ==== Sys2Proof/Machine/RegReset.lean ====
section
/-! DEFINITION. The reset value of every word of the register space (R463 and the register tables), for each part of the
family (R2): what a register that nothing has written holds. -/

namespace Sys2Proof.Machine

/-- The three parts of the family (R2). DESIGN CHOICE, log entry 1. -/
inductive Part where
  | tx4128
  | tx4064
  | tx4032
  deriving DecidableEq, Repr

/-- Sectors present (R2). -/
def Part.sectors : Part → Nat
  | .tx4128 => 4
  | .tx4064 => 2
  | .tx4032 => 1

/-- Heads present (R2). -/
def Part.heads (p : Part) : Nat := 32 * p.sectors

/-- Groups present (R2). -/
def Part.groups (p : Part) : Nat := 3 * p.sectors

/-- Scaler/warp units present (R2). -/
def Part.scalers (p : Part) : Nat := 6 * p.sectors

/-- Wall Link lanes present (R2). -/
def Part.lanes (p : Part) : Nat := 4 * p.sectors

/-- Local DRAM channels present (R2). -/
def Part.channels (p : Part) : Nat := 4 * p.sectors

/-- The picture codec is present (R2). -/
def Part.hasCodec : Part → Bool
  | .tx4032 => false
  | _ => true

/-- The mirror link is present (R2). -/
def Part.hasMirror : Part → Bool
  | .tx4128 => true
  | _ => false

/-- The part code (R7). -/
def Part.code : Part → Nat
  | .tx4128 => 0x4128
  | .tx4064 => 0x4064
  | .tx4032 => 0x4032

/-- The unit that power domain `d` powers is present on the part (R6, R396). -/
def Part.domainPresent (p : Part) (d : Nat) : Bool :=
  if d = 0 then true
  else if d ≤ 12 then d - 1 < p.groups
  else if d ≤ 28 then (d - 13) * 8 < p.heads
  else if d ≤ 44 then d - 29 < p.lanes
  else if d ≤ 52 then true
  else if d ≤ 56 then p.hasMirror
  else if d ≤ 60 then p.hasCodec
  else if d ≤ 68 then 2 * (d - 61) < p.channels
  else d < 84

/-- Reset word `w` of PWR.DOMCTL and PWR.DOMSTAT: every present domain on, every absent one off (R6, R463). -/
def domReset (p : Part) (w : Nat) : Nat :=
  (List.range 32).foldl (fun a i => if p.domainPresent (32 * w + i) && 32 * w + i < 84 then a + 2 ^ i else a) 0

/-- The reset value of the first row that holds the word, or 0. -/
def rowsReset : List RegRow → Nat → Nat
  | [], _ => 0
  | r :: rs, off =>
    match r.index off with
    | some _ => r.reset
    | none => rowsReset rs off

/-- Registers with a reset value other than 0: Sys part of the space. -/
def resetsSys : List RegRow := [
  ⟨0x10004, 1, 0x0, 1, 0x0, 1, 0x0, 0, 0, 0, 0, 0, 0, 0x1⟩,
  ⟨0x10084, 3, 0x4, 1, 0x0, 1, 0x0, 0, 0, 0, 0, 0, 0, 0x800000⟩,
  ⟨0x20100, 5, 0x100, 1, 0x0, 1, 0x0, 0, 0, 0, 0, 0, 0, 0xFFFFFF⟩,
  ⟨0x20104, 5, 0x100, 1, 0x0, 1, 0x0, 0, 0, 0, 0, 0, 0, 0xFFFFFF⟩,
  ⟨0x20110, 5, 0x100, 4, 0x4, 1, 0x0, 0, 0, 0, 0, 0, 0, 0xFFFFFFFF⟩,
  ⟨0x20180, 5, 0x100, 32, 0x4, 1, 0x0, 0, 0, 0, 0, 0, 0, 0xFFFFFFFF⟩,
  ⟨0x22000, 1, 0x0, 1, 0x0, 1, 0x0, 0, 0, 0, 0, 0, 0, 0x0⟩,
  ⟨0x22004, 1, 0x0, 1, 0x0, 1, 0x0, 0, 0, 0, 0, 0, 0, 0x0⟩,
  ⟨0x22008, 1, 0x0, 1, 0x0, 1, 0x0, 0, 0, 0, 0, 0, 0, 0x100000⟩,
  ⟨0x2200C, 1, 0x0, 1, 0x0, 1, 0x0, 0, 0, 0, 0, 0, 0, 0xF807D⟩,
  ⟨0x30004, 1, 0x0, 1, 0x0, 1, 0x0, 0, 0, 0, 0, 0, 0, 0xD⟩,
  ⟨0x30008, 1, 0x0, 1, 0x0, 1, 0x0, 0, 0, 0, 0, 0, 0, 0x1000001⟩,
  ⟨0x3000C, 1, 0x0, 1, 0x0, 1, 0x0, 0, 0, 0, 0, 0, 0, 0x6⟩,
  ⟨0x30020, 2, 0x10, 1, 0x0, 1, 0x0, 0, 0, 0, 0, 0, 0, 0x20⟩,
  ⟨0x40010, 1, 0x0, 1, 0x0, 1, 0x0, 0, 0, 0, 0, 0, 0, 0x3C00⟩,
  ⟨0x40014, 1, 0x0, 1, 0x0, 1, 0x0, 0, 0, 0, 0, 0, 0, 0xC⟩,
  ⟨0x40020, 1, 0x0, 1, 0x0, 1, 0x0, 0, 0, 0, 0, 0, 0, 0x9⟩,
  ⟨0x40024, 1, 0x0, 1, 0x0, 1, 0x0, 0, 0, 0, 0, 0, 0, 0x1⟩,
  ⟨0x40034, 1, 0x0, 1, 0x0, 1, 0x0, 0, 0, 0, 0, 0, 0, 0x37F⟩,
  ⟨0x40108, 8, 0x10, 1, 0x0, 1, 0x0, 0, 0, 0, 0, 0, 0, 0x3E8⟩,
  ⟨0x4020C, 1, 0x0, 1, 0x0, 1, 0x0, 0, 0, 0, 0, 0, 0, 0xFFFF⟩,
  ⟨0x50008, 1, 0x0, 1, 0x0, 1, 0x0, 0, 0, 0, 0, 0, 0, 0x400⟩,
  ⟨0x5000C, 1, 0x0, 1, 0x0, 1, 0x0, 0, 0, 0, 0, 0, 0, 0x84D0⟩,
  ⟨0x50018, 1, 0x0, 1, 0x0, 1, 0x0, 0, 0, 0, 0, 0, 0, 0x1⟩,
  ⟨0x60008, 1, 0x0, 1, 0x0, 1, 0x0, 0, 0, 0, 0, 0, 0, 0x5736E69⟩,
  ⟨0x6000C, 1, 0x0, 1, 0x0, 1, 0x0, 0, 0, 0, 0, 0, 0, 0xA00⟩]

/-- Registers with a reset value other than 0: Head part of the space. -/
def resetsHead : List RegRow := [
  ⟨0x100000, 128, 0x1000, 1, 0x0, 1, 0x0, 0, 0, 0, 0, 0, 0, 0x100⟩,
  ⟨0x100004, 128, 0x1000, 1, 0x0, 1, 0x0, 0, 0, 0, 0, 0, 0, 0x7800898⟩,
  ⟨0x100008, 128, 0x1000, 1, 0x0, 1, 0x0, 0, 0, 0, 0, 0, 0, 0x4380465⟩,
  ⟨0x10000C, 128, 0x1000, 1, 0x0, 1, 0x0, 0, 0, 0, 0, 0, 0, 0x4110029⟩,
  ⟨0x100010, 128, 0x1000, 1, 0x0, 1, 0x0, 0, 0, 0, 0, 0, 0, 0x10014⟩,
  ⟨0x100018, 128, 0x1000, 1, 0x0, 1, 0x0, 0, 0, 0, 0, 0, 0, 0x300⟩,
  ⟨0x10002C, 128, 0x1000, 1, 0x0, 1, 0x0, 0, 0, 0, 0, 0, 0, 0xFFFF0000⟩]

/-- Registers with a reset value other than 0: Layer part of the space. -/
def resetsLayer : List RegRow := [
  ⟨0x200018, 1024, 0x100, 1, 0x0, 1, 0x0, 0, 0, 0, 0, 0, 0, 0x10001⟩,
  ⟨0x200020, 1024, 0x100, 1, 0x0, 1, 0x0, 0, 0, 0, 0, 0, 0, 0x10001⟩,
  ⟨0x200024, 1024, 0x100, 1, 0x0, 1, 0x0, 0, 0, 0, 0, 0, 0, 0xFFFF0000⟩,
  ⟨0x200030, 1024, 0x100, 1, 0x0, 1, 0x0, 0, 0, 0, 0, 0, 0, 0xFFFF0000⟩,
  ⟨0x200084, 1024, 0x100, 1, 0x0, 1, 0x0, 0, 0, 0, 0, 0, 0, 0x10000⟩,
  ⟨0x200094, 1024, 0x100, 1, 0x0, 1, 0x0, 0, 0, 0, 0, 0, 0, 0x10000⟩,
  ⟨0x2000A4, 1024, 0x100, 1, 0x0, 1, 0x0, 0, 0, 0, 0, 0, 0, 0x10000⟩,
  ⟨0x250004, 16, 0x800, 256, 0x8, 1, 0x0, 0, 0, 0, 0, 0, 0, 0xFFFF0000⟩]

/-- Registers with a reset value other than 0: Unit part of the space. -/
def resetsUnit : List RegRow := [
  ⟨0x300010, 12, 0x1000, 1, 0x0, 1, 0x0, 0, 0, 0, 0, 0, 0, 0xFFFFFF⟩,
  ⟨0x400004, 1, 0x0, 1, 0x0, 1, 0x0, 0, 0, 0, 0, 0, 0, 0x1F40⟩,
  ⟨0x400100, 8, 0x10, 1, 0x0, 1, 0x0, 0, 0, 0, 0, 0, 0, 0x3E800008⟩,
  ⟨0x401040, 72, 0x100, 1, 0x0, 1, 0x0, 0, 0, 0, 0, 0, 0, 0x3F800000⟩,
  ⟨0x401050, 72, 0x100, 1, 0x0, 1, 0x0, 0, 0, 0, 0, 0, 0, 0x3F800000⟩,
  ⟨0x401060, 72, 0x100, 1, 0x0, 1, 0x0, 0, 0, 0, 0, 0, 0, 0x3F800000⟩,
  ⟨0x401064, 72, 0x100, 1, 0x0, 1, 0x0, 0, 0, 0, 0, 0, 0, 0x3F800000⟩,
  ⟨0x401074, 72, 0x100, 1, 0x0, 1, 0x0, 0, 0, 0, 0, 0, 0, 0x3F800000⟩,
  ⟨0x401084, 72, 0x100, 1, 0x0, 1, 0x0, 0, 0, 0, 0, 0, 0, 0x3F800000⟩,
  ⟨0x500000, 1, 0x0, 1, 0x0, 1, 0x0, 0, 0, 0, 0, 0, 0, 0x1⟩,
  ⟨0x500010, 1, 0x0, 1, 0x0, 1, 0x0, 0, 0, 0, 0, 0, 0, 0xBB8⟩,
  ⟨0x500014, 1, 0x0, 1, 0x0, 1, 0x0, 0, 0, 0, 0, 0, 0, 0x100⟩,
  ⟨0x500018, 1, 0x0, 1, 0x0, 1, 0x0, 0, 0, 0, 0, 0, 0, 0x5A8C01E8⟩,
  ⟨0x500020, 1, 0x0, 1, 0x0, 1, 0x0, 0, 0, 0, 0, 0, 0, 0x100000⟩,
  ⟨0x500024, 1, 0x0, 1, 0x0, 1, 0x0, 0, 0, 0, 0, 0, 0, 0x3FF1000⟩,
  ⟨0x500100, 28, 0x4, 1, 0x0, 1, 0x0, 0, 0, 0, 0, 0, 0, 0x800040⟩,
  ⟨0x501014, 16, 0x800, 1, 0x0, 1, 0x0, 0, 0, 0, 0, 0, 0, 0x2710⟩,
  ⟨0x501018, 16, 0x800, 1, 0x0, 1, 0x0, 0, 0, 0, 0, 0, 0, 0x1000200⟩,
  ⟨0x50101C, 16, 0x800, 1, 0x0, 1, 0x0, 0, 0, 0, 0, 0, 0, 0x3E8⟩,
  ⟨0x501048, 16, 0x800, 2, 0x10, 1, 0x0, 0, 0, 0, 0, 0, 0, 0x404040⟩,
  ⟨0x600004, 1, 0x0, 1, 0x0, 1, 0x0, 0, 0, 0, 0, 0, 0, 0x320⟩,
  ⟨0x600044, 1, 0x0, 1, 0x0, 1, 0x0, 0, 0, 0, 0, 0, 0, 0x10⟩,
  ⟨0x600048, 1, 0x0, 1, 0x0, 1, 0x0, 0, 0, 0, 0, 0, 0, 0x20⟩,
  ⟨0x60004C, 1, 0x0, 1, 0x0, 1, 0x0, 0, 0, 0, 0, 0, 0, 0x30⟩,
  ⟨0x610100, 16, 0x20, 1, 0x0, 1, 0x0, 0, 0, 0, 0, 0, 0, 0x40400⟩,
  ⟨0x700000, 1, 0x0, 1, 0x0, 1, 0x0, 0, 0, 0, 0, 0, 0, 0x400⟩,
  ⟨0x700040, 4, 0x40, 1, 0x0, 1, 0x0, 0, 0, 0, 0, 0, 0, 0x10000⟩,
  ⟨0x700050, 4, 0x40, 1, 0x0, 1, 0x0, 0, 0, 0, 0, 0, 0, 0x10000⟩,
  ⟨0x700060, 4, 0x40, 1, 0x0, 1, 0x0, 0, 0, 0, 0, 0, 0, 0x10000⟩,
  ⟨0x800004, 1, 0x0, 1, 0x0, 1, 0x0, 0, 0, 0, 0, 0, 0, 0x300⟩,
  ⟨0x800028, 1, 0x0, 1, 0x0, 1, 0x0, 0, 0, 0, 0, 0, 0, 0x400⟩,
  ⟨0x801028, 256, 0x40, 1, 0x0, 1, 0x0, 0, 0, 0, 0, 0, 0, 0x10001⟩,
  ⟨0x801038, 256, 0x40, 1, 0x0, 1, 0x0, 0, 0, 0, 0, 0, 0, 0x4E200030⟩,
  ⟨0x810008, 1, 0x0, 1, 0x0, 1, 0x0, 0, 0, 0, 0, 0, 0, 0x20⟩,
  ⟨0x810010, 1, 0x0, 1, 0x0, 1, 0x0, 0, 0, 0, 0, 0, 0, 0x80⟩,
  ⟨0x810028, 1, 0x0, 1, 0x0, 1, 0x0, 0, 0, 0, 0, 0, 0, 0x400⟩,
  ⟨0x810200, 32, 0x20, 1, 0x0, 1, 0x0, 0, 0, 0, 0, 0, 0, 0x1000⟩,
  ⟨0x810600, 32, 0x4, 1, 0x0, 1, 0x0, 0, 0, 0, 0, 0, 0, 0x5780080⟩,
  ⟨0x818008, 2048, 0x10, 1, 0x0, 1, 0x0, 0, 0, 0, 0, 0, 0, 0x10000⟩,
  ⟨0x81800C, 2048, 0x10, 1, 0x0, 1, 0x0, 0, 0, 0, 0, 0, 0, 0x10001⟩,
  ⟨0x900000, 1, 0x0, 1, 0x0, 1, 0x0, 0, 0, 0, 0, 0, 0, 0xF⟩,
  ⟨0x901000, 32, 0x80, 1, 0x0, 1, 0x0, 0, 0, 0, 0, 0, 0, 0x4470F0⟩,
  ⟨0x901004, 32, 0x80, 1, 0x0, 1, 0x0, 0, 0, 0, 0, 0, 0, 0x8700F00⟩,
  ⟨0x90104C, 32, 0x80, 1, 0x0, 1, 0x0, 0, 0, 0, 0, 0, 0, 0x40808000⟩,
  ⟨0xB00004, 1, 0x0, 1, 0x0, 1, 0x0, 0, 0, 0, 0, 0, 0, 0xF032000⟩,
  ⟨0xC00004, 1, 0x0, 1, 0x0, 1, 0x0, 0, 0, 0, 0, 0, 0, 0x100⟩,
  ⟨0xC00100, 16, 0x20, 1, 0x0, 1, 0x0, 0, 0, 0, 0, 0, 0, 0x1000⟩,
  ⟨0xD00104, 36, 0x10, 1, 0x0, 1, 0x0, 0, 0, 0, 0, 0, 0, 0x1⟩]

/-- Registers with a reset value other than 0: Pstore part of the space. -/
def resetsPstore : List RegRow := [
  ⟨0x1040000, 12, 0x100000, 3, 0x40000, 1, 0x0, 0, 0, 0, 0, 0, 0, 0x10000⟩,
  ⟨0x1040010, 12, 0x100000, 3, 0x40000, 1, 0x0, 0, 0, 0, 0, 0, 0, 0x10000⟩,
  ⟨0x1040020, 12, 0x100000, 3, 0x40000, 1, 0x0, 0, 0, 0, 0, 0, 0, 0x10000⟩]

/-- Preset EOTF ROM 0 (R150): 1,024 binary16 entries, entry e in bits [16e + 15 : 16e]. -/
def presetLinear : Nat :=
  0x3C003BFE3BFC3BFA3BF83BF63BF43BF23BF03BEE3BEC3BEA3BE83BE63BE43BE23BE03BDE3BDC3BDA3BD83BD63BD43BD23BD03BCE3BCC3BCA3BC83BC63BC43BC23BC03BBE3BBC3BBA3BB83BB63BB43BB23BB03BAE3BAC3BAA3BA83BA63BA43BA23BA03B9E3B9C3B9A3B983B963B943B923B903B8E3B8C3B8A3B883B863B843B823B803B7E3B7C3B7A3B783B763B743B723B703B6E3B6C3B6A3B683B663B643B623B603B5E3B5C3B5A3B583B563B543B523B503B4E3B4C3B4A3B483B463B443B423B403B3E3B3C3B3A3B383B363B343B323B303B2E3B2C3B2A3B283B263B243B223B203B1E3B1C3B1A3B183B163B143B123B103B0E3B0C3B0A3B083B063B043B023B003AFE3AFC3AFA3AF83AF63AF43AF23AF03AEE3AEC3AEA3AE83AE63AE43AE23AE03ADE3ADC3ADA3AD83AD63AD43AD23AD03ACE3ACC3ACA3AC83AC63AC43AC23AC03ABE3ABC3ABA3AB83AB63AB43AB23AB03AAE3AAC3AAA3AA83AA63AA43AA23AA03A9E3A9C3A9A3A983A963A943A923A903A8E3A8C3A8A3A883A863A843A823A803A7E3A7C3A7A3A783A763A743A723A703A6E3A6C3A6A3A683A663A643A623A603A5E3A5C3A5A3A583A563A543A523A503A4E3A4C3A4A3A483A463A443A423A403A3E3A3C3A3A3A383A363A343A323A303A2E3A2C3A2A3A283A263A243A223A203A1E3A1C3A1A3A183A163A143A123A103A0E3A0C3A0A3A083A063A043A0239FF39FD39FB39F939F739F539F339F139EF39ED39EB39E939E739E539E339E139DF39DD39DB39D939D739D539D339D139CF39CD39CB39C939C739C539C339C139BF39BD39BB39B939B739B539B339B139AF39AD39AB39A939A739A539A339A1399F399D399B39993997399539933991398F398D398B39893987398539833981397F397D397B39793977397539733971396F396D396B39693967396539633961395F395D395B39593957395539533951394F394D394B39493947394539433941393F393D393B39393937393539333931392F392D392B39293927392539233921391F391D391B39193917391539133911390F390D390B3909390739053903390138FF38FD38FB38F938F738F538F338F138EF38ED38EB38E938E738E538E338E138DF38DD38DB38D938D738D538D338D138CF38CD38CB38C938C738C538C338C138BF38BD38BB38B938B738B538B338B138AF38AD38AB38A938A738A538A338A1389F389D389B38993897389538933891388F388D388B38893887388538833881387F387D387B38793877387538733871386F386D386B38693867386538633861385F385D385B38593857385538533851384F384D384B38493847384538433841383F383D383B38393837383538333831382F382D382B38293827382538233821381F381D381B38193817381538133811380F380D380B3809380738053803380137FE37FA37F637F237EE37EA37E637E237DE37DA37D637D237CE37CA37C637C237BE37BA37B637B237AE37AA37A637A2379E379A37963792378E378A37863782377E377A37763772376E376A37663762375E375A37563752374E374A37463742373E373A37363732372E372A37263722371E371A37163712370E370A3706370236FE36FA36F636F236EE36EA36E636E236DE36DA36D636D236CE36CA36C636C236BE36BA36B636B236AE36AA36A636A2369E369A36963692368E368A36863682367E367A36763672366E366A36663662365E365A36563652364E364A36463642363E363A36363632362E362A36263622361E361A36163612360E360A3606360235FD35F935F535F135ED35E935E535E135DD35D935D535D135CD35C935C535C135BD35B935B535B135AD35A935A535A1359D359935953591358D358935853581357D357935753571356D356935653561355D355935553551354D354935453541353D353935353531352D352935253521351D351935153511350D35093505350134FD34F934F534F134ED34E934E534E134DD34D934D534D134CD34C934C534C134BD34B934B534B134AD34A934A534A1349D349934953491348D348934853481347D347934753471346D346934653461345D345934553451344D344934453441343D343934353431342D342934253421341D341934153411340D34093405340133FA33F233EA33E233DA33D233CA33C233BA33B233AA33A2339A3392338A3382337A3372336A3362335A3352334A3342333A3332332A3322331A3312330A330232FA32F232EA32E232DA32D232CA32C232BA32B232AA32A2329A3292328A3282327A3272326A3262325A3252324A3242323A3232322A3222321A3212320A320231F931F131E931E131D931D131C931C131B931B131A931A13199319131893181317931713169316131593151314931413139313131293121311931113109310130F930F130E930E130D930D130C930C130B930B130A930A1309930913089308130793071306930613059305130493041303930313029302130193011300930012FF22FE22FD22FC22FB22FA22F922F822F722F622F522F422F322F222F122F022EF22EE22ED22EC22EB22EA22E922E822E722E622E522E422E322E222E122E022DF12DE12DD12DC12DB12DA12D912D812D712D612D512D412D312D212D112D012CF12CE12CD12CC12CB12CA12C912C812C712C612C512C412C312C212C112C012BE22BC22BA22B822B622B422B222B022AE22AC22AA22A822A622A422A222A0229E129C129A12981296129412921290128E128C128A12881286128412821280127C227822742270226C226822642260225C125812541250124C1248124412401238223022282220221812101208120011F021E021D011C011A02180114010000

/-- Preset EOTF ROM 1 (R150): 1,024 binary16 entries, entry e in bits [16e + 15 : 16e]. -/
def presetSrgb : Nat :=
  0x3C003BFB3BF73BF23BEE3BE93BE53BE03BDC3BD73BD33BCE3BCA3BC53BC13BBC3BB83BB33BAF3BAB3BA63BA23B9D3B993B943B903B8C3B873B833B7E3B7A3B763B713B6D3B693B643B603B5C3B573B533B4F3B4A3B463B423B3D3B393B353B303B2C3B283B243B1F3B1B3B173B133B0E3B0A3B063B023AFE3AF93AF53AF13AED3AE93AE43AE03ADC3AD83AD43AD03ACB3AC73AC33ABF3ABB3AB73AB33AAF3AAA3AA63AA23A9E3A9A3A963A923A8E3A8A3A863A823A7E3A7A3A763A723A6E3A6A3A663A623A5E3A5A3A563A523A4E3A4A3A463A423A3E3A3A3A363A323A2E3A2A3A263A233A1F3A1B3A173A133A0F3A0B3A073A043A0039FC39F839F439F039EC39E939E539E139DD39D939D639D239CE39CA39C739C339BF39BB39B839B439B039AC39A939A539A1399D399A39963992398F398B398739843980397C397939753971396E396A39673963395F395C395839543951394D394A39463943393F393B393839343931392D392A39263923391F391C391839153911390E390A39073903390038FC38F938F538F238EF38EB38E838E438E138DD38DA38D738D338D038CD38C938C638C238BF38BC38B838B538B238AE38AB38A838A438A1389E389A389738943891388D388A388738833880387D387A387638733870386D386A386638633860385D385A385638533850384D384A384638433840383D383A383738343830382D382A382738243821381E381B381838153812380E380B38083805380237FE37F837F237EC37E637E037DA37D437CE37C837C237BC37B637B037AA37A4379E37993793378D37873781377B37753770376A3764375E37583753374D37473741373C37363730372A3725371F37193714370E3708370336FD36F836F236EC36E736E136DC36D636D036CB36C536C036BA36B536AF36AA36A5369F369A3694368F36893684367F36793674366F36693664365E36593654364F36493644363F36393634362F362A3625361F361A36153610360B3605360035FB35F635F135EC35E735E235DD35D835D235CD35C835C335BE35B935B435AF35AA35A535A0359C35973592358D35883583357E35793574356F356B35663561355C35573553354E35493544353F353B35363531352C35283523351E351A35153510350C3507350234FE34F934F534F034EB34E734E234DE34D934D534D034CC34C734C334BE34BA34B534B134AC34A834A3349F349B34963492348D348934853480347C34783473346F346B34663462345E345A34553451344D344934443440343C34383434342F342B34273423341F341B34173413340E340A3406340233FC33F433EC33E433DC33D433CC33C433BC33B433AC33A4339C3395338D3385337D3375336D3366335E3356334F3347333F333833303328332133193312330A330232FB32F332EC32E532DD32D632CE32C732C032B832B132AA32A2329B3294328D3285327E3277327032693262325B3253324C3245323E3237323032293222321B3214320E3207320031F931F231EB31E531DE31D731D031C931C331BC31B531AF31A831A1319B3194318E31873181317A3174316D31673160315A3153314D31473140313A3134312D31273121311B3114310E3108310230FC30F530EF30E930E330DD30D730D130CB30C530BF30B930B330AD30A730A1309B30953090308A3084307E30783073306D30673061305C30563050304B3045303F303A3034302F30293024301E30183013300E300830032FFA2FF02FE52FDA2FCF2FC52FBA2FB02FA52F9A2F902F862F7B2F712F662F5C2F522F472F3D2F332F292F1F2F152F0B2F002EF62EEC2EE32ED92ECF2EC52EBB2EB12EA82E9E2E942E8B2E812E772E6E2E642E5B2E512E482E3F2E352E2C2E232E192E102E072DFE2DF52DEB2DE22DD92DD02DC72DBE2DB62DAD2DA42D9B2D922D892D812D782D6F2D672D5E2D562D4D2D452D3C2D342D2B2D232D1A2D122D0A2D022CF92CF12CE92CE12CD92CD12CC92CC12CB92CB12CA92CA12C992C912C892C822C7A2C722C6B2C632C5B2C542C4C2C452C3D2C362C2E2C272C1F2C182C112C0A2C022BF62BE82BD92BCB2BBD2BAF2BA12B932B852B772B692B5B2B4D2B402B322B252B172B0A2AFC2AEF2AE22AD42AC72ABA2AAD2AA02A932A862A7A2A6D2A602A532A472A3A2A2E2A212A152A0929FD29F029E429D829CC29C029B429A8299D29912985297A296E29632957294C29402935292A291F2914290928FE28F328E828DD28D228C728BD28B228A7289D28932888287E28732869285F2855284B28412837282D28232819280F280627F827E527D227BF27AC2799278727742761274F273D272B2719270726F526E326D126C026AF269D268C267B266A26592648263726272616260625F625E525D525C525B525A6259625862577256725582549253A252B251C250D24FE24F024E124D324C424B624A8249A248C247E2471246324552448243B242D24202413240623F323D923C023A6238D2375235C2343232B231322FB22E422CC22B5229E2287227022592243222D2216220121EB21D521C021AB21962181216C215821442130211C210820F420E120CE20BB20A8209520832070205E204C203A2029201720061FE91FC71FA61F841F631F431F221F021EE31EC31EA41E861E671E491E2B1E0E1DF11DD41DB81D9C1D801D641D491D2E1D141CFA1CE01CC61CAD1C941C7B1C631C4B1C331C1B1C041BDB1BAE1B811B551B2A1AFF1AD51AAC1A831A5A1A331A0B19E319BC1994196C1945191D18F518CE18A6187E1857182F180717BF1770172116D11682163315E31594154514F514A614571407137012D11233119410F510570F700E330CF50B7008F504F50000

/-- Preset EOTF ROM 2 (R150): 1,024 binary16 entries, entry e in bits [16e + 15 : 16e]. -/
def presetBt1886 : Nat :=
  0x3C003BFB3BF63BF23BED3BE83BE33BDF3BDA3BD53BD03BCC3BC73BC23BBD3BB93BB43BAF3BAB3BA63BA13B9D3B983B933B8F3B8A3B853B813B7C3B773B733B6E3B6A3B653B603B5C3B573B533B4E3B4A3B453B413B3C3B373B333B2E3B2A3B253B213B1C3B183B133B0F3B0B3B063B023AFD3AF93AF43AF03AEB3AE73AE33ADE3ADA3AD53AD13ACD3AC83AC43AC03ABB3AB73AB33AAE3AAA3AA63AA13A9D3A993A943A903A8C3A883A833A7F3A7B3A773A723A6E3A6A3A663A613A5D3A593A553A513A4C3A483A443A403A3C3A383A343A2F3A2B3A273A233A1F3A1B3A173A133A0F3A0A3A063A0239FE39FA39F639F239EE39EA39E639E239DE39DA39D639D239CE39CA39C639C239BE39BA39B639B239AE39AA39A639A2399F399B39973993398F398B39873983397F397C397839743970396C396839653961395D395939553952394E394A39463943393F393B393739343930392C392839253921391D391A39163912390E390B39073903390038FC38F838F538F138EE38EA38E638E338DF38DC38D838D438D138CD38CA38C638C338BF38BB38B838B438B138AD38AA38A638A3389F389C389838953891388E388B388738843880387D387938763873386F386C386838653862385E385B385738543851384D384A384738433840383D383938363833382F382C382938263822381F381C381938153812380F380C38083805380237FE37F737F137EA37E437DE37D737D137CB37C437BE37B837B137AB37A5379F37983792378C37863780377A3773376D37673761375B3755374F37493743373C37363730372A3724371E37183712370C3706370136FB36F536EF36E936E336DD36D736D136CC36C636C036BA36B436AF36A936A3369D36983692368C36863681367B36753670366A3664365F36593654364E36483643363D36383632362D36273622361C36173611360C3606360135FC35F635F135EB35E635E135DB35D635D135CB35C635C135BB35B635B135AC35A635A1359C35973592358C35873582357D35783573356D35683563355E35593554354F354A35453540353B35363531352C35273522351D35183513350E35093504350034FB34F634F134EC34E734E334DE34D934D434CF34CB34C634C134BC34B834B334AE34AA34A534A0349C34973492348E348934853480347B34773472346E346934653460345C34573453344E344A34453441343C34383434342F342B34263422341E341934153411340C3408340433FF33F633EE33E533DD33D433CC33C333BB33B333AA33A2339A3391338933813379337033683360335833503348333F3337332F3327331F3317330F330732FF32F832F032E832E032D832D032C932C132B932B132AA32A2329A3293328B3283327C3274326D3265325E3256324F3247324032383231322A3222321B3214320C320531FE31F731F031E831E131DA31D331CC31C531BE31B731B031A931A2319B3194318D3186317F31783171316A3164315D3156314F31493142313B3135312E31273121311A3113310D3106310030F930F330EC30E630E030D930D330CC30C630C030B930B330AD30A730A0309A3094308E30883082307B3075306F30693063305D30573051304B3045303F30393033302E30283022301C30163011300B30052FFF2FF32FE82FDD2FD12FC62FBB2FB02FA42F992F8E2F832F782F6D2F622F572F4D2F422F372F2C2F222F172F0C2F022EF72EED2EE22ED82ECD2EC32EB92EAE2EA42E9A2E902E852E7B2E712E672E5D2E532E492E3F2E352E2C2E222E182E0E2E052DFB2DF12DE82DDE2DD52DCB2DC22DB82DAF2DA62D9C2D932D8A2D802D772D6E2D652D5C2D532D4A2D412D382D2F2D262D1E2D152D0C2D032CFB2CF22CE92CE12CD82CD02CC72CBF2CB62CAE2CA62C9D2C952C8D2C852C7C2C742C6C2C642C5C2C542C4C2C442C3C2C342C2D2C252C1D2C152C0E2C062BFD2BED2BDE2BCF2BC02BB12BA22B942B852B762B672B592B4A2B3C2B2E2B1F2B112B032AF52AE72AD92ACB2ABD2AAF2AA22A942A872A792A6C2A5E2A512A442A362A292A1C2A0F2A0229F529E929DC29CF29C229B629A9299D299129842978296C296029542948293C293029242918290D290128F528EA28DE28D328C828BC28B128A6289B28902885287A286F2865285A284F2845283A28302825281B2810280627F827E427D027BC27A827942780276D2759274627332720270D26FA26E726D426C226AF269D268B267926672655264426322620260F25FE25ED25DC25CB25BA25A9259925882578256825572547253725282518250824F924E924DA24CB24BC24AD249E2490248124722464245624472439242B241E2410240223E923CE23B42399237F2365234B2331231822FF22E622CD22B4229C2284226C2254223C2225220D21F621E021C921B3219D21872171215B21462130211B210720F220DE20C920B520A1208E207A206720542041202E201C20091FEF1FCB1FA71F841F611F3F1F1D1EFB1EDA1EB91E981E781E581E391E191DFB1DDC1DBE1DA01D831D661D491D2D1D111CF51CDA1CBF1CA51C8A1C711C571C3E1C251C0C1BE81BB81B891B5B1B2D1B001AD31AA81A7C1A521A2819FF19D619AE19871960193A191518F018CC18A8188518621841181F17FE17BE177F1741170516C9168F1656161E15E815B2157E154A151814E714B71488145A142D140213AE135B130A12BB126E122311DA1193114E110B10CA108B104E10130FB30F450ED90E720E0E0DAE0D520CF90CA30C510C020B6E0ADE0A5509D2095508DF086F08050743068605D60531049704080384030A029A023501D90186013C00FC00C40093006B004A0030001C000E000500010000

/-- Preset EOTF ROM 3 (R150): 1,024 binary16 entries, entry e in bits [16e + 15 : 16e]. -/
def presetPq : Nat :=
  0x5640563156225614560555F755E955DB55CD55BF55B255A455975589557C556F556355565549553D553055245518550C550054F454E854DD54D154C654BB54B054A5549A548F5484547A546F5465545A54505446543C54325428541E5415540B540253F153DE53CC53B953A753955384537253615350533E532E531D530C52FC52EB52DB52CB52BC52AC529C528D527E526F526052515242523452255217520951FB51ED51DF51D151C451B751A9519C518F518251755169515C515051445137512B511F5114510850FC50F150E550DA50CF50C450B950AE50A35098508E50835079506E5064505A50505046503C50325029501F5016500C50034FF34FE14FCF4FBD4FAB4F9A4F884F774F664F554F444F334F234F124F024EF24EE24ED24EC24EB34EA44E944E854E764E674E594E4A4E3C4E2E4E1F4E114E034DF64DE84DDA4DCD4DC04DB34DA64D994D8C4D7F4D734D664D5A4D4D4D414D354D294D1E4D124D064CFB4CEF4CE44CD94CCE4CC34CB84CAD4CA24C984C8D4C834C794C6E4C644C5A4C504C474C3D4C334C294C204C174C0D4C044BF64BE34BD14BC04BAE4B9C4B8B4B7A4B694B584B474B364B264B164B054AF54AE54AD64AC64AB74AA74A984A894A7A4A6B4A5D4A4E4A404A314A234A154A0749FA49EC49DF49D149C449B749AA499D499049834977496A495E495149454939492D49214916490A48FF48F348E848DD48D248C748BC48B148A6489B48914886487C48724868485E4854484A48404836482D4823481A4810480747FB47E947D747C547B347A14790477F476D475C474C473B472A471A470A46F946E946DA46CA46BA46AB469B468C467D466E466046514642463446264618460A45FC45EE45E045D345C545B845AB459E459145844577456B455E45524546453A452D45224516450A44FE44F344E744DC44D144C644BB44B044A5449A448F4485447A44704466445C44524447443E4434442A44204417440D440443F543E343D043BE43AC439A43894377436643544343433243224311430142F042E042D042C042B042A142914282427342644255424642374229421A420C41FE41F041E241D441C641B941AB419E419141844177416A415D415041444137412B411F4113410740FB40EF40E440D840CD40C140B640AB40A04095408A407F4075406A405F4055404B40414036402C40234019400F40053FF73FE43FD13FBF3FAC3F9A3F883F763F643F523F413F2F3F1E3F0D3EFC3EEB3EDB3ECA3EBA3EAA3E9A3E8A3E7A3E6A3E5B3E4C3E3C3E2D3E1E3E103E013DF23DE43DD63DC83DBA3DAC3D9E3D903D833D753D683D5B3D4E3D413D343D273D1B3D0E3D023CF63CEA3CDE3CD23CC63CBA3CAE3CA33C983C8C3C813C763C6B3C603C553C4B3C403C353C2B3C213C173C0C3C023BF13BDD3BCA3BB63BA33B903B7D3B6A3B583B463B333B213B103AFE3AEC3ADB3ACA3AB93AA83A973A873A763A663A563A463A363A263A173A0739F839E939DA39CB39BC39AE399F39913983397539673959394B393E393039233916390938FC38EF38E238D638C938BD38B138A53899388D38813875386A385E38533848383C38313826381C3811380637F737E337CE37B937A53791377D376937563742372F371C370936F736E436D236C036AE369C368A3679366836573646363536243614360335F335E335D335C335B435A435953586357735683559354B353D352E35203512350434F634E934DB34CE34C134B434A7349A348D348034743468345B344F34433437342C34203414340933FB33E533CF33B933A3338D33783363334E33393325331032FC32E832D532C132AE329B3288327532623250323E322C321A320831F731E531D431C331B231A2319131813171316131513141313231223113310430F530E630D830C930BB30AD309F3091308330763068305B304E304130343027301A300E30012FEA2FD22FBA2FA22F8B2F742F5D2F462F2F2F192F032EED2ED72EC22EAD2E982E832E6F2E5A2E462E322E1F2E0B2DF82DE52DD22DC02DAD2D9B2D892D772D652D542D432D322D212D102CFF2CEF2CDF2CCF2CBF2CAF2CA02C902C812C722C632C552C462C382C2A2C1C2C0E2C002BE52BCA2BB02B952B7C2B622B492B2F2B172AFE2AE62ACE2AB62A9F2A882A712A5A2A442A2E2A182A0229ED29D729C329AE299A29852971295E294A29372924291128FF28EC28DA28C828B628A5289428832872286128512840283028202811280127E327C527A7278A276C27502733271726FB26E026C526AA268F2675265C26422629261025F825DF25C825B025992582256B2555253F2529251324FE24E924D424C024AC249824842471245E244B243824262414240223E023BD239B237923582337231622F622D622B72299227A225C223F2222220521E921CD21B22196217C21612148212E211520FC20E420CC20B4209C2085206F20582042202D201720021FDB1FB21F8A1F621F3C1F151EEF1ECA1EA61E821E5E1E3B1E191DF71DD61DB51D951D761D571D381D1A1CFC1CDF1CC31CA71C8B1C701C551C3B1C211C081BDD1BAC1B7C1B4D1B1F1AF11AC41A991A6D1A431A1A19F119C919A2197B19551930190C18E818C518A31881186118401821180217C7178B1751171816E016AA16741640160D15DB15AA157A154C151E14F114C6149B14721449142213F613AA1361131912D3128F124D120C11CD11901154111A10E210AB1076104210100FBF0F600F050EAC0E560E020DB20D640D190CD00C8A0C460C040B8B0B120A9D0A2D09C2095B08F80899083F07D2072D069105FC056F04E9046B03F40384031B02B9025E020901BB0174013200F700C20094006B0048002C001600070000

/-- Preset EOTF ROM 4 (R150): 1,024 binary16 entries, entry e in bits [16e + 15 : 16e]. -/
def presetHlg : Nat :=
  0x490048F948F248EC48E548DE48D848D148CB48C448BE48B748B148AA48A4489E48974891488B4885487F48784872486C48664860485A4855484F48494843483D48374832482C48264821481B48164810480B480547FF47F447EA47DF47D447CA47BF47B547AA47A04796478B47814777476D47634759474F4745473B47324728471E4715470B470246F846EF46E546DC46D346CA46C146B746AE46A5469C4694468B4682467946704668465F4657464E4646463D4635462D4624461C4614460C460445FC45F345EC45E445DC45D445CC45C445BD45B545AD45A6459E4597458F4588458045794572456A4563455C4555454E4547454045394532452B4524451D4516450F4509450244FB44F544EE44E844E144DB44D444CE44C744C144BB44B544AE44A844A2449C44964490448A4484447E44784472446C44664460445A4455444F44494444443E44384433442D44284422441D44184412440D4408440243FA43EF43E543DB43D043C643BC43B243A8439E4394438A43804376436C4363435943504346433D4333432A43204317430E430542FC42F242E942E042D742CF42C642BD42B442AC42A3429A429242894281427842704268425F4257424F4247423F4237422F4227421F4217420F4207420041F841F041E941E141D941D241CA41C341BC41B441AD41A6419F4197419041894182417B4174416D4166415F41584152414B4144413E41374130412A4123411D411641104109410340FD40F640F040EA40E440DD40D740D140CB40C540BF40B940B340AD40A840A2409C40964090408B4085407F407A4074406F40694064405E40594053404E40494043403E40394033402E40294024401F401A40154010400B400640013FF83FEE3FE43FDA3FD13FC73FBE3FB43FAB3FA13F983F8F3F863F7C3F733F6A3F613F583F4F3F463F3E3F353F2C3F233F1B3F123F0A3F013EF93EF03EE83EE03ED73ECF3EC73EBF3EB73EAF3EA73E9F3E973E8F3E873E7F3E783E703E683E613E593E513E4A3E423E3B3E343E2C3E253E1E3E173E0F3E083E013DFA3DF33DEC3DE53DDE3DD73DD13DCA3DC33DBC3DB63DAF3DA83DA23D9B3D953D8E3D883D823D7B3D753D6F3D683D623D5C3D563D503D4A3D433D3D3D373D323D2C3D263D203D1A3D143D0E3D093D033CFD3CF83CF23CED3CE73CE13CDC3CD73CD13CCC3CC63CC13CBC3CB63CB13CAC3CA73CA23C9C3C973C923C8D3C883C833C7E3C793C743C6F3C6B3C663C613C5C3C573C533C4E3C493C453C403C3B3C373C323C2E3C293C253C203C1C3C173C133C0F3C0A3C063C023BFB3BF23BEA3BE23BD93BD13BC93BC03BB83BB03BA83BA03B983B903B883B803B783B713B693B613B5A3B523B4A3B433B3B3B343B2D3B253B1E3B173B0F3B083B013AFA3AF33AEC3AE53ADE3AD73AD03AC93AC23ABB3AB53AAE3AA73AA13A9A3A933A8D3A863A803A793A723A6C3A653A5F3A583A523A4B3A453A3E3A383A313A2B3A253A1E3A183A113A0B3A0539FE39F839F239EB39E539DF39D939D239CC39C639C039BA39B339AD39A739A1399B3995398F39893982397C39763970396A3964395E39583952394C39463941393B3935392F39293923391D39173912390C3906390038FA38F538EF38E938E338DE38D838D238CD38C738C138BC38B638B138AB38A538A0389A3895388F388A3884387F38793874386E38693863385E38593853384E38493843383E38393833382E38293823381E38193814380E3809380437FE37F437E937DF37D537CB37C037B637AC37A23798378E3784377A37703766375C37523748373E3734372B37213717370D370436FA36F036E736DD36D436CA36C136B736AE36A4369B36913688367F3675366C3663365A36503647363E3635362C3623361A3611360835FF35F635ED35E435DB35D235CA35C135B835AF35A7359E3595358D3584357C3573356B3562355A355135493540353835303527351F3517350F350634FE34F634EE34E634DE34D634CE34C634BE34B634AE34A6349E3496348E3487347F3477346F346834603458345134493442343A3433342B3424341C3415340D340633FE33EF33E133D233C433B533A73399338A337C336E33603352334433363328331B330D32FF32F132E432D632C932BB32AE32A1329332863279326C325F325232453238322B321E3211320531F831EB31DF31D231C631BA31AD31A131953189317C317031643158314C314131353129311D3112310630FA30EF30E330D830CD30C130B630AB30A03095308A307F30743069305E30533049303E30333029301E301430092FFE2FE92FD52FC02FAC2F982F842F702F5C2F482F342F212F0D2EFA2EE72ED42EC12EAE2E9B2E882E752E632E502E3E2E2C2E1A2E082DF62DE42DD22DC12DAF2D9E2D8D2D7C2D6B2D5A2D492D382D272D172D062CF62CE62CD62CC62CB62CA62C962C872C772C682C582C492C3A2C2B2C1C2C0D2BFE2BE12BC42BA72B8A2B6E2B522B362B1B2AFF2AE42AC92AAE2A932A792A5F2A452A2B2A1129F829DF29C629AD2995297C2964294C2935291D290628EF28D828C128AB2895287F28692853283E2829281427FE27D527AC2784275C2734270D26E726C1269B26752650262C260825E425C1259E257C255A2538251724F624D624B6249624772458243A241C23FE23C4238A2352231B22E422AE22792245221121DF21AD217C214C211D20EF20C120952069203E20141FD51F841F341EE71E9B1E501E081DC11D7C1D381CF61CB61C771C3A1BFE1B8A1B1B1AAE1A4519DF197C191D18C118691814178416E7165015C1153814B6143A138A12AE11DF111D10690F840E500D380C3A0AAE091D07840538035701E100D600350000

/-- Entry `e` of preset EOTF table `p` (R150). -/
def presetEntry (p e : Nat) : Nat :=
  let t := match p with
    | 0 => presetLinear
    | 1 => presetSrgb
    | 2 => presetBt1886
    | 3 => presetPq
    | _ => presetHlg
  field t (16 * e) 16

/-- Entry `e` of an identity tone curve or shaper (R154): the encoding 8e up to entry 3,968, then 0x7C00. -/
def toneReset (e : Nat) : Nat := if e ≤ 3968 then 8 * e else 0x7C00

/-- The 16-bit value at index `n` of an identity 3D LUT (R168): L(k) = floor(k × 65,535 ÷ 32 + 1/2). -/
def lut3dReset (n : Nat) : Nat :=
  let e := n / 3
  let k := match n % 3 with
    | 0 => e / 1089
    | 1 => e / 33 % 33
    | _ => e % 33
  if n < 107811 then (k * 65535 * 2 + 32) / 64 else 0

/-- Two 16-bit values in one word, the lower-numbered in bits [15:0]. -/
def pack16 (lo hi : Nat) : Nat := lo + 65536 * hi

/-- The reset value of the word at BAR0 offset `off` (R463). DEDUCED, log entry 11. -/
def resetNat (p : Part) (off : Nat) : Nat :=
  if 0x4000000 ≤ off then 0
  else if off < 0x100000 then
    if off = Reg.topCaps0 then
      p.heads + 2 ^ 8 * (8 * p.groups) + 2 ^ 16 * p.sectors + 2 ^ 20 * p.groups + 2 ^ 24 * p.scalers
    else if off = Reg.topCaps1 then (if p.hasCodec then 4 else 0) + 2 ^ 4 * ofBool p.hasMirror + 2 ^ 5 + 2 ^ 6
    else if off = Reg.topCaps2 then
      p.channels + 2 ^ 8 * p.lanes + 2 ^ 16 * 8 + 2 ^ 20 * (if p.hasMirror then 4 else 0) + 2 ^ 24 * 8
    else if off = Reg.topCaps3 then p.code + 2 ^ 16
    else if off = Reg.pwrDomctl 0 ∨ off = Reg.pwrDomstat 0 then domReset p 0
    else if off = Reg.pwrDomctl 1 ∨ off = Reg.pwrDomstat 1 then domReset p 1
    else if off = Reg.pwrDomctl 2 ∨ off = Reg.pwrDomstat 2 then domReset p 2
    else rowsReset resetsSys off
  else if off < 0x200000 then rowsReset resetsHead off
  else if off < 0x300000 then
    if off < 0x260000 then rowsReset resetsLayer off
    else if off < 0x268000 then
      let j := (off - 0x260000) % 0x800 / 4
      pack16 (presetEntry 0 (2 * j)) (presetEntry 0 (2 * j + 1))
    else if off < 0x270000 then 0
    else if off < 0x272800 then
      let j := (off - 0x270000) % 0x800 / 4
      pack16 (presetEntry ((off - 0x270000) / 0x800) (2 * j)) (presetEntry ((off - 0x270000) / 0x800) (2 * j + 1))
    else if off < 0x280000 then 0
    else if off < 0x2C0000 then
      let j := (off - 0x280000) % 0x2000 / 4
      pack16 (toneReset (2 * j)) (toneReset (2 * j + 1))
    else 0
  else if off < 0x1000000 then rowsReset resetsUnit off
  else
    let o := (off - 0x1000000) % 0x100000
    if o < 0x40000 then 0
    else
      let t := o % 0x40000
      if t < 0x100 then rowsReset resetsPstore off
      else if t < 0x2100 then pack16 (toneReset (2 * ((t - 0x100) / 4))) (toneReset (2 * ((t - 0x100) / 4) + 1))
      else if t < 0x4000 then 0
      else pack16 (lut3dReset (2 * ((t - 0x4000) / 4))) (lut3dReset (2 * ((t - 0x4000) / 4) + 1))

/-- The reset word at BAR0 offset `off`. -/
def resetWord (p : Part) (off : Nat) : Word := BitVec.ofNat 32 (resetNat p off)

end Sys2Proof.Machine
end

