-- ==== Sys2Proof/Machine/Tbl.lean ====
section
/-! DEFINITION. Sparse tables as plain data: a list of key and value pairs in one canonical form (keys strictly rising, no
entry equal to what an unlisted key reads as). Registers, memories and per-instance records are held so. -/

namespace Sys2Proof.Machine

/-- A sparse table from natural numbers. -/
abbrev Tbl (α : Type) := List (Nat × α)

namespace Tbl

variable {α : Type}

/-- The value at key `k`; an unlisted key reads as `d k`. -/
def get (d : Nat → α) : Tbl α → Nat → α
  | [], k => d k
  | (k', v) :: t, k => if k = k' then v else get d t k

/-- The table without key `k`. -/
def erase : Tbl α → Nat → Tbl α
  | [], _ => []
  | (k', v) :: t, k => if k = k' then erase t k else (k', v) :: erase t k

/-- The table with an entry for key `k` in its place. -/
def insert : Tbl α → Nat → α → Tbl α
  | [], k, v => [(k, v)]
  | (k', v') :: t, k, v => if k < k' then (k, v) :: (k', v') :: t else (k', v') :: insert t k v

/-- The table with key `k` reading as `v`; no entry is kept for a value equal to `d k`. -/
def set [DecidableEq α] (d : Nat → α) (t : Tbl α) (k : Nat) (v : α) : Tbl α :=
  if v = d k then erase t k else insert (erase t k) k v

/-- Every key of the table is above `k`. -/
def above (k : Nat) (t : Tbl α) : Bool :=
  match t with
  | [] => true
  | (k', _) :: _ => k < k'

/-- The canonical form. -/
def wf [DecidableEq α] (d : Nat → α) : Tbl α → Bool
  | [] => true
  | (k, v) :: t => above k t && decide (v ≠ d k) && wf d t

/-- The table without the keys from `lo` to `hi - 1`. -/
def drop (lo hi : Nat) (t : Tbl α) : Tbl α := t.filter fun e => e.1 < lo || hi ≤ e.1

end Tbl

/-- A byte memory: addresses and bytes, canonical against what an unlisted address reads as. -/
abbrev Mem := Tbl Byte

namespace Mem

/-- `n` bytes from address `a`. -/
def readBytes (d : Nat → Byte) (m : Mem) (a n : Nat) : List Byte := (List.range n).map fun i => Tbl.get d m (a + i)

/-- The bytes written at address `a` and up. -/
def writeBytes (d : Nat → Byte) (m : Mem) (a : Nat) : List Byte → Mem
  | [] => m
  | b :: bs => writeBytes d (Tbl.set d m a b) (a + 1) bs

end Mem

end Sys2Proof.Machine
end

