-- ==== Sys2Proof/Machine/State.lean ====
section
/-! DEFINITION. The state of the block: every register, memory, queue, counter, mode and pin of the spec, as plain data, and the
queue of commands that wait. Registers live in one sparse table by BAR0 offset; each field below names state that no register
holds. -/

namespace Sys2Proof.Machine

/-- Why the machine stops with a fault: the spec gives no such stop, so there is none. -/
inductive Fault where
  deriving DecidableEq, Repr

/-- Why a command has no meaning. -/
inductive Refusal where
  /-- Raised by an arm of exec for a command the model gives no meaning (safe: the machine stops). -/
  | notModelled (mnemonic : String)
  deriving DecidableEq, Repr

/-- What leaves the block: messages, packets and frames, oldest first in State.out. -/
inductive Msg where
  /-- An MSI-X message of entry `entry` of function `func` (R382). -/
  | msix (func entry : Nat)
  /-- An LTR message (R283). -/
  | ltr (req scale value : Nat)
  /-- A band packet (R360, R361): lane, slots mask, number of its first cell, and its cells of 64 bytes, the control header first. -/
  | packet (lane slots first : Nat) (cells : List (List Nat))
  /-- A control message on a lane (R365), a POLL_ANSWER: lane, number of its link frame, bytes. -/
  | laneMsg (lane frame : Nat) (bytes : List Nat)
  /-- An Ethernet frame sent on a port. -/
  | eth (port : Nat) (bytes : List Nat)
  /-- A mirror message: its 16-byte control word and its payload (R422). -/
  | mirror (control payload : List Nat)
  /-- Characters sent by a serial pose port (R209). -/
  | serial (port : Nat) (bytes : List Nat)
  /-- A CXL.cache read of a 64-byte granule, RdCurr: tag, host physical address, real-time (R273). -/
  | cxlRead (tag addr : Nat) (rt : Bool)
  /-- A CXL.cache write within one granule: tag, host physical address, bytes; ItoMWr for a full line, else WOWrInv with these bytes
  enabled (R273). -/
  | cxlWrite (tag addr : Nat) (full : Bool) (bytes : List Nat)
  /-- A CXL.io memory read of `len` bytes (0: the zero-length read of R281): tag, requester function, bus address; neither no-snoop nor
  relaxed ordering is set (R286). -/
  | ioRead (tag func addr len : Nat)
  /-- A CXL.io memory write, its attributes alike: requester function, bus address, bytes (R286). -/
  | ioWrite (func addr : Nat) (bytes : List Nat)
  /-- A completion to the host: address and bytes, poisoned. -/
  | completion (addr : Nat) (bytes : List Nat) (poison : Bool)
  /-- A host access answered as an unsupported request (R271). -/
  | unsupported (addr : Nat)
  /-- A snoop answered as a miss (R273). -/
  | snoopMiss (addr : Nat)
  /-- An xSPI command: opcode, address, write data or read length (R446). -/
  | xspi (op : Nat) (addr : Option Nat) (write : Bool) (data : List Nat) (len : Nat)
  deriving DecidableEq, Repr

/-! ## Ticks, phases and clocks (02) -/

/-- A tick structure: rate code, number of phases, the eight phase offsets in ns (R46, R48). -/
structure TickStruct where
  rate : Nat
  phases : Nat
  phofs : List Nat
  deriving DecidableEq, Repr

/-- A structure commit that is armed or under validation (R49 to R51). -/
structure ArmedStruct where
  ts : TickStruct
  /-- DEVTIME of the STRUCT_ARM write. -/
  written : Nat
  /-- The tick boundary T(m) at which it takes effect, its index m. -/
  target : Nat
  late : Bool
  /-- Validation has ended and accepted it. -/
  valid : Bool
  deriving DecidableEq, Repr

/-- A tick that has begun (R47): its index, the DEVTIME of its boundary, the structure in force from it. -/
structure TickRec where
  idx : Nat
  start : Int
  ts : TickStruct
  deriving DecidableEq, Repr

/-- One SHUTSYNC output (R54 to R56). -/
structure ShutOut where
  /-- CFG, OFS and WIDTH in force. -/
  cfg : Word
  ofs : Word
  width : Word
  /-- Writes not yet in force: DEVTIME of the write, register (0 CFG, 1 OFS, 2 WIDTH), value. -/
  pend : List (Nat × Nat × Word)
  /-- DEVTIME at which the setting in force took effect. -/
  since : Int
  /-- Start of the last pulse begun. -/
  began : Int
  /-- The output is at its active level, until this DEVTIME. -/
  activeUntil : Option Nat
  /-- The pin is high (CFG.POL). -/
  level : Bool
  deriving DecidableEq, Repr

/-- The genlock input as measured (R41 to R43). -/
structure Genlock where
  /-- DEVTIME of the last valid frame reference. -/
  last : Option Nat
  /-- Tick-phase offset of the last reference in ns, signed. -/
  offset : Int
  /-- Consecutive measurements within ±100 ns. -/
  run : Nat
  /-- Consecutive missing or malformed references. -/
  missed : Nat
  /-- A malformed reference came since the last valid one: the next valid one measures no period. -/
  gap : Bool
  /-- The last valid reference came after one or two missing ones (R37). -/
  sparse : Bool
  deriving DecidableEq, Repr

/-- The PTP ordinary clock (R44, R312). -/
structure PtpClock where
  /-- Source port identity and data set of the selected master, in the order the best master algorithm compares them. -/
  master : Option (List Nat)
  /-- Ethernet port of the selected master. -/
  port : Nat
  /-- DEVTIME of the last Announce of the master. -/
  lastAnnounce : Nat
  /-- Log2 announce interval and sync interval of the master, signed. -/
  annLog : Int
  syncLog : Int
  /-- DEVTIME of the last Sync. -/
  lastSync : Option Nat
  /-- A two-step Sync awaiting its Follow_Up: sequence number, receive stamp t2, correction. -/
  syncWait : Option (Nat × Nat × Int)
  /-- t1 and t2 of the last complete Sync, with corrections applied. -/
  t1 : Int
  t2 : Int
  /-- An outstanding Delay_Req: sequence number and transmit stamp t3 once sent. -/
  reqSeq : Nat
  t3 : Option Nat
  /-- DEVTIME at which the next Delay_Req is due. -/
  reqDue : Option Nat
  /-- Mean path delay in ns. -/
  delay : Int
  delayValid : Bool
  offset : Int
  run : Nat
  /-- Masters heard and not followed: source port identity and port, DEVTIME of the last Announce (qualification). -/
  foreign : List (Nat × Nat × Nat)
  deriving DecidableEq, Repr

/-- Device time, ticks and clocks. -/
structure TimeSt where
  /-- R33. -/
  devtime : Word64
  /-- Nanoseconds of the model, never stepped (for durations). DESIGN CHOICE, log entry 5. -/
  uptime : Nat
  /-- Tenths of a system-clock cycle since reset (R197 CYCLE). DEDUCED, log entry 8. -/
  sysTenths : Nat
  /-- Tenths of a compose-clock cycle since reset (R194). DEDUCED, log entry 162. -/
  compTenths : Nat
  /-- The tick structure in force (R49). -/
  ts : TickStruct
  /-- TPHASE in force (R47). -/
  tphase : Int
  /-- A written TPHASE not yet in force (register table of TICK.TPHASE). -/
  tphasePend : Option Word
  /-- Index of the current tick (R47). -/
  ticknum : Word64
  /-- Index of the tick whose boundary comes next (R40, R52). -/
  nextTick : Nat
  /-- The current tick and the one before it, newest first (R52, R54). -/
  recent : List TickRec
  armed : Option ArmedStruct
  shut : List ShutOut
  gl : Genlock
  ptp : PtpClock
  /-- DEVTIME at which holdover ends (R37). -/
  holdEnd : Option Nat
  /-- The discipline correction c, in 10^-12 (R36): the value it moves from, the value it moves to, and the uptime at which the move
  began. -/
  corrFrom : Int
  corr : Int
  corrAt : Nat
  /-- It moves at 1 ppm per second (R37), not per millisecond. -/
  corrSlow : Bool
  /-- The 1PPS output is high (R45). -/
  pps : Bool
  /-- The first tick of Dawn has been transmitted (R39, R61). -/
  ticked : Bool
  /-- The source whose offset set FAULT: 1 PTP, 2 genlock, and that offset (R40). -/
  faultSrc : Nat
  faultOfs : Int
  /-- The source that steers took over from another and has not been LOCKED since (R38). -/
  handover : Bool
  /-- End of the re-time of the latest change of tick rate (R52). -/
  rateEnd : Int
  deriving DecidableEq, Repr

/-- The clocks (R57 to R66). -/
structure ClkSt where
  /-- Seed last loaded by each sigma-delta modulator (R58). -/
  seed : List Nat
  /-- uptime of the last SYNCIN reset of each divider target (R60). -/
  divReset : List (Option Nat)
  /-- No clock survives (R63). -/
  dead : Bool
  /-- The fallback path has no source while a reference survives: the compose and system clocks stand, DEVTIME goes on (R63, R64). -/
  stalled : Bool
  deriving DecidableEq, Repr

/-! ## Heads, layers and commits (03, 04) -/

/-- The RWS registers of a head: what a commit copies (R77). -/
structure HeadCfg where
  ctl : Word
  htiming : Word
  vtiming : Word
  band : Word
  link : Word
  prog : Word
  cal : Word
  fill : Word
  deriving DecidableEq, Repr

/-- The RWS registers of a layer entry (R103). -/
structure LayerCfg where
  ctl : Word
  src : Word
  addrLo : Word
  addrHi : Word
  pitch : Word
  srcorg : Word
  srcsize : Word
  dstpos : Word
  dstsize : Word
  zblend : Word
  rdy : Word
  fillrg : Word
  fillba : Word
  pbind : Word
  warp : Word
  color : Word
  defxf : List Word
  gamut : List Word
  deriving DecidableEq, Repr

/-- The RWS registers of a writeback port (R133). -/
structure WbCfg where
  ctl : Word
  addrLo : Word
  addrHi : Word
  pitch : Word
  stride : Word
  deriving DecidableEq, Repr

/-- A commit: a snapshot of staging sets (R77 to R81). -/
structure Commit where
  /-- Position in the order of commit words at the device. -/
  order : Nat
  agent : Nat
  seq : Nat
  /-- DEVTIME of the commit word. -/
  written : Nat
  target : Nat
  late : Bool
  /-- Heads named and present, ascending. -/
  mask : List Nat
  heads : List (Nat × HeadCfg)
  layers : List (Nat × LayerCfg)
  /-- Every entry the commit carries, one bit each: `layers` leaves out those at their reset value throughout. -/
  carries : Nat
  ports : List (Nat × WbCfg)
  deriving DecidableEq, Repr

/-- One layer as the head shows it in the current tick (R117, R118, R176). -/
structure Shown where
  layer : Nat
  /-- The fields of the set. -/
  own : LayerCfg
  /-- The fields in effect, REPEAT substitution made. -/
  cfg : LayerCfg
  /-- Byte address of pixel (0, 0) and pitch of the buffer read. -/
  addr : Nat
  pitch : Nat
  /-- Drawn as FILLRG / FILLBA. -/
  fill : Bool
  /-- Draws nothing (until WAIT_BANDS finds the layer ready). -/
  empty : Bool
  /-- WAIT_BANDS is testing: the fields to switch to. -/
  waiting : Option LayerCfg
  deriving DecidableEq, Repr

/-- One entry of a band's walk list (R176), with what the latch fixed for the band. -/
structure Walk where
  /-- The layer, or none for a flatten surface. -/
  layer : Option Nat
  cfg : LayerCfg
  addr : Nat
  pitch : Nat
  fill : Bool
  /-- Destination rectangle origin after position binding (R216). -/
  dx : Int
  dy : Int
  /-- M for the band, nine binary32 codes (R108, R214). -/
  m : List Nat
  /-- Position in the head's layer order (R110). -/
  pos : Nat
  deriving DecidableEq, Repr

/-- Local memory as an early fetch has read it into the fetch path's buffers, for one buffer of a layer (R25). -/
structure EarlyMem where
  layer : Nat
  addr : Nat
  pitch : Nat
  dram : Mem
  deriving DecidableEq, Repr

/-- What has been fetched early for a head's next band (R25, R280): its tick, phase and band number, host granules by address ÷ 64 with
their data (none: the read failed), and local buffers. -/
structure Early where
  tick : Nat
  phase : Nat
  j : Nat
  host : List (Nat × Option (List Nat))
  mem : List EarlyMem
  deriving DecidableEq, Repr

/-- A served scaler band: the unit, the transform used and the unit's coefficient words at its start (R110, R122). -/
structure Scaled where
  pos : Nat
  unit : Nat
  m : List Nat
  hcoef : List Nat
  vcoef : List Nat
  done : Bool
  deriving DecidableEq, Repr

/-- Stage of a band between latch and transmission. -/
inductive BandStage where
  | queued
  | running
  | complete
  /-- Sent with every channel at code 0 (R91). -/
  | black
  /-- Sent as safe fill (R97). -/
  | safeFill
  deriving DecidableEq, Repr

/-- A band between its latch and its deadline. -/
structure Band where
  head : Nat
  tick : Nat
  phase : Nat
  j : Nat
  latch : Nat
  deadline : Nat
  /-- Active lines of the band. -/
  lines : Nat
  stage : BandStage
  /-- The set under which it was latched. -/
  cfg : HeadCfg
  agent : Nat
  walk : List Walk
  scaled : List Scaled
  /-- An SWI has issued the band's scaler bands (R183). -/
  swi : Bool
  /-- A fetched granule of the band has been refused (R452). -/
  refused : Bool
  /-- A parity error has ended a core's work on the band (R173). -/
  parity : Bool
  /-- The surface that a rebuild band writes, by its local address; none for a transmitted band. -/
  surface : Option Nat
  /-- Released lines by span: key 8 × line + core, the encoded pixels (R + 2^16 G + 2^32 B each). -/
  store : List (Nat × List Nat)
  /-- Host granules read for the band, by address ÷ 64, with their data (none: the read failed, R278). -/
  fetched : List (Nat × Option (List Nat))
  /-- Local buffers fetched before the latch (R25). -/
  early : List EarlyMem
  deriving DecidableEq, Repr

/-- Bands of one tick that are still to be latched, under the set in force at the tick's frame latch. -/
structure Run where
  tick : Nat
  /-- The second tick period of a re-time, under the same tick index (R40, R52, R91). -/
  again : Bool
  cfg : HeadCfg
  agent : Nat
  /-- DEVTIME of line 0 of each phase's sub-frame (R68). -/
  starts : List Int
  /-- queued when the head composes the tick, else how its bands are sent. -/
  mode : BandStage
  /-- Next band to latch: phase and band number. -/
  phase : Nat
  j : Nat
  /-- What the tick shows, per layer (all phases). -/
  shown : List Shown
  /-- Flatten surfaces used: phase, local address and member layers (R129). -/
  flat : List (Nat × Nat × List Nat)
  deriving DecidableEq, Repr

/-- A band as sent: its encoded image (R23, R88). -/
structure Sent where
  tick : Nat
  phase : Nat
  j : Nat
  deadline : Nat
  /-- 0 composed, 1 re-time, 2 safe fill. -/
  kind : Nat
  cfg : HeadCfg
  /-- Lines of encoded pixels. -/
  image : List (List Nat)
  /-- The Wall Link has started its packet. -/
  started : Bool
  /-- The packet on the lane: uptime of its start, its place in State.out, and the action injected into it (4: none). -/
  pkt : Option (Nat × Nat × Nat)
  /-- The band is the last of its sub-frame. -/
  last : Bool
  /-- Sent under R88. -/
  late : Bool
  deriving DecidableEq, Repr

/-- A head (R68 to R99, R481). -/
structure HeadSt where
  /-- The active set. -/
  cfg : HeadCfg
  /-- Layer entries owned in the active set that differ from the reset entry, ascending. -/
  layers : List (Nat × LayerCfg)
  /-- Order number and agent of the commit that made the set active. -/
  order : Nat
  agent : Nat
  /-- The tick whose frame latch is the head's next. -/
  latchTick : Nat
  /-- The tick of its last frame latch, and the active set before that one (R93). -/
  lastTick : Nat
  cfgWas : HeadCfg
  /-- Ticks with bands still to latch, oldest first. -/
  runs : List Run
  /-- Bands between latch and deadline, oldest first. -/
  bands : List Band
  /-- Bands sent whose packet, writeback or sampling is still due, oldest first. -/
  sent : List Sent
  /-- End of a re-time (R91). -/
  retimeEnd : Option Nat
  /-- Re-time is over; the head resumes at its next frame latch. -/
  resume : Bool
  /-- Dusk awaits the head's next band boundary (R62). -/
  duskPend : Bool
  /-- Consecutive unchanged ticks; whether the current tick is unchanged so far (R95). -/
  idle : Nat
  unchanged : Bool
  /-- A change ends Twilight at the next frame latch (R96). -/
  twiExit : Bool
  /-- Tick and phase of the sub-frames in which BAND_LATE and CLAMP were last signalled (R100). -/
  lateSeen : Option (Nat × Nat)
  clampSeen : Option (Nat × Nat)
  /-- Phase of the sub-frame being transmitted and DEVTIME of its line 0. -/
  subPhase : Nat
  subStart : Nat
  /-- A band packet whose capture is due (R99): its tick and the image its payload unpacks to. -/
  capture : Option (Nat × List Nat)
  /-- Latch of the head's previous band (R201). -/
  lastLatch : Option Nat
  /-- What has been fetched for the head's next band (R25). -/
  early : Option Early
  deriving DecidableEq, Repr

/-- A frame of a producer: ingest flow f is producer f, codec context c is producer 256 + c (R112). -/
structure FrameRef where
  producer : Nat
  slot : Nat
  addr : Nat
  pitch : Nat
  /-- Production number, from 1. -/
  num : Nat
  /-- Completion stamp (R307). -/
  stamp : Nat
  deriving DecidableEq, Repr

/-- What a layer carries from tick to tick (R112, R117 to R119, R203, R213). -/
structure LayerRt where
  /-- Fields of the last set under which the layer was ready. -/
  lastReady : Option LayerCfg
  /-- Ready at an earlier frame latch under the same source set. -/
  wasReady : Bool
  /-- The frame of an INGEST or DECODER source that the layer holds. -/
  held : Option FrameRef
  /-- Frames completed by the producer when the source was last changed. -/
  srcBase : Nat
  /-- Reference record of the buffer shown, 64 bytes; none while none has been read. -/
  ref : Option (List Nat)
  /-- Host address of a reference record whose read is outstanding (R213). -/
  refFrom : Option Nat
  /-- POSE_BADREF has been raised for that record. -/
  badRef : Bool
  /-- Transform of the layer's previous scaler band on each head that had one (R122). -/
  lastM : List (Nat × List Nat)
  /-- Position and orientation of the record used by the previous band (R95); none without one. -/
  lastPose : Option (List Nat)
  /-- The binding at the previous band: source, stale (R203). -/
  binding : Option (Nat × Bool)
  /-- The entry's fields as a commit last made them active (R117). -/
  cur : LayerCfg
  deriving DecidableEq, Repr

/-- A fence: the value before the newest signal, and that signal's stamp (R116). -/
structure Fence where
  before : Nat
  stamp : Nat
  deriving DecidableEq, Repr

/-- A scaler band waiting in a sector's queue, or in a unit (R110). -/
structure ScalerBand where
  head : Nat
  tick : Nat
  phase : Nat
  j : Nat
  pos : Nat
  deadline : Nat
  /-- What the latch fixed for the layer, and the head's set. -/
  walk : Walk
  cfg : HeadCfg
  /-- A scaler band of a flatten rebuild. -/
  rebuild : Bool
  deriving DecidableEq, Repr

/-- The frames a flow or a codec context has completed (R112): how many, and the newest. -/
structure Producer where
  count : Nat
  newest : Option FrameRef
  /-- Frames completed before the newest that a latch at its stamp can still take, newest first (R307). -/
  older : List FrameRef
  deriving DecidableEq, Repr

/-- A flatten surface (R126 to R131). -/
structure Surface where
  head : Nat
  /-- Phases that share it. -/
  phases : Nat
  /-- Members, lowest first, with the fields it was built from. -/
  members : List (Nat × LayerCfg)
  /-- HACT and VACT of the head it was allocated for. -/
  size : Nat × Nat
  /-- Local address and size in MiB. -/
  addr : Nat
  mib : Nat
  /-- Complete; in use from the head's next frame latch; rebuild in progress; next band to rebuild. -/
  valid : Bool
  inUse : Bool
  building : Bool
  nextBand : Nat
  /-- Lines of the bands that `nextBand` counts. -/
  lines : Nat
  deriving DecidableEq, Repr

/-- A captured sub-frame whose writes are not all visible yet (R281): tick, phase, buffer, incomplete. -/
structure WbEnd where
  tick : Nat
  phase : Nat
  buf : Nat
  missed : Bool
  deriving DecidableEq, Repr

/-- A writeback port (R133 to R135). -/
structure WbSt where
  cfg : WbCfg
  /-- Next buffer. -/
  k : Nat
  /-- A band of the sub-frame in progress was missed. -/
  missed : Bool
  /-- Tick, phase and band number of the last band of a sub-frame in progress that was written or missed. -/
  due : Option (Nat × Nat × Nat)
  /-- Tick, phase and band number past which bands are still to be written. -/
  past : Option (Nat × Nat × Nat)
  /-- Sub-frames that wait for their writes to be visible, oldest first. -/
  ends : List WbEnd
  deriving DecidableEq, Repr

/-! ## Compose cores (06) -/

/-- One lane of a vector register: R, G, B and A (R174). -/
structure Px where
  r : BitVec 16
  g : BitVec 16
  b : BitVec 16
  a : BitVec 16
  deriving DecidableEq, Repr

/-- What a core waits for. -/
inductive CoreWait where
  | none
  /-- FETCH data (R182). -/
  | fetch
  /-- A WAIT of unit 0, 1 or 2 (R184). -/
  | unit (u : Nat)
  /-- A BST that needs a store line (R189). -/
  | store
  /-- An LD's data (R196). -/
  | load
  /-- WFI (R196). -/
  | interrupt
  deriving DecidableEq, Repr

/-- A loop in progress: first body instruction, end, iterations, current iteration, kind (0 immediate, 1 LINES, 2 SPANV, 3 LAYERS). -/
structure LoopFrame where
  start : Nat
  stop : Nat
  count : Nat
  iter : Nat
  kind : Nat
  deriving DecidableEq, Repr

/-- A store line (R189): its line and, per vector column written, sixteen pixels. -/
structure StoreLine where
  line : Nat
  cols : List (Nat × List Px)
  deriving DecidableEq, Repr

/-- A compose core (R174, R177). -/
structure CoreSt where
  /-- Running a band. -/
  on : Bool
  /-- Index of the next instruction of the program. -/
  pc : Nat
  v : List (List Px)
  s : List Word64
  p : List Bool
  scratch : Mem
  /-- Counter value that names the free contents of scratch at band start. -/
  scratchTag : Nat
  loops : List LoopFrame
  line : Option StoreLine
  /-- Lines already released in the band. -/
  released : List Nat
  wait : CoreWait
  /-- Tenths of a compose-clock cycle at which the wait began, and the cycles listed for the waiting instruction. -/
  since : Nat
  listed : Nat
  /-- Wait cycles of the core in the band (R194). -/
  waited : Nat
  /-- The instruction word read last: the one a waiting core executes. -/
  ins : Nat
  deriving DecidableEq, Repr

/-- A release waiting for or in the head stage (R189). -/
structure Release where
  core : Nat
  line : StoreLine
  /-- A checkpoint release (R190). -/
  checkpoint : Bool
  /-- The band: head, tick, phase, band number. -/
  key : Nat × Nat × Nat × Nat
  deriving DecidableEq, Repr

/-- A compose group (R12, R13). -/
structure GroupSt where
  /-- Bands latched and not started, as head, tick, phase, band, deadline. -/
  queue : List (Nat × Nat × Nat × Nat × Nat)
  /-- The band running: head, tick, phase, band number. -/
  running : Option (Nat × Nat × Nat × Nat)
  /-- The rebuild band in progress (R129, R195). -/
  rebuild : Option Band
  /-- Cores of a rebuild band set aside while a real-time band runs. -/
  saved : List (Nat × CoreSt)
  cores : Tbl CoreSt
  /-- Releases in the order the head stage takes them. -/
  stageQ : List Release
  /-- Program-store words with a parity error, by offset (R173). DEDUCED, log entry 50. -/
  badWords : List Nat
  deriving DecidableEq, Repr

/-! ## Pose (07) -/

/-- An accepted record: its 64 bytes, arrival stamp and acceptance number. -/
structure PoseRec where
  bytes : List Nat
  stamp : Nat
  num : Nat
  deriving DecidableEq, Repr

/-- A pose source (R206, R211). -/
structure PoseSrc where
  /-- Accepted records, newest first (those a later latch can still select). -/
  recs : List PoseRec
  /-- Consecutive out-of-sequence records. -/
  oosRun : Nat
  deriving DecidableEq, Repr

/-- The pose unit. -/
structure PoseSt where
  /-- Writes to DIST, K, KINV and PMAT not yet in force: offset, DEVTIME, value before (R215). -/
  recent : List (Nat × Nat × Word)
  srcs : Tbl PoseSrc
  /-- Acceptance counter. -/
  count : Nat
  /-- Serial frames begun: their characters so far, sync bytes included, per port (R208). -/
  partRx : Tbl (List Nat)
  /-- Last poll of each serial port: uptime of its start, and of the release of a half-duplex pair (R209). -/
  polls : Tbl (Nat × Nat)
  /-- The last arrival: its stamp, and its port's place in the order of equal stamps (R210). -/
  turn : Nat × Nat
  /-- uptime of the end of the last character of each serial port (R208). -/
  serAt : Tbl Nat
  deriving DecidableEq, Repr
/-! ## Management cores (06, 17) -/

/-- A management core (R29, R196, R197). -/
structure MgmtSt where
  /-- Running: started and not stopped by a power state. -/
  on : Bool
  pc : Nat
  s : List Word64
  p : List Bool
  ie : Bool
  pie : Bool
  epc : Nat
  cause : Nat
  tvec : Nat
  badaddr : Nat
  wait : CoreWait
  /-- The instruction word read last: the one a waiting core executes. -/
  ins : Nat
  deriving DecidableEq, Repr

/-! ## The Wall Link (13) -/

/-- A Wall Link lane (R368, R369, R373). -/
structure LaneSt where
  /-- Free space the hub last reported per slot, in bytes, less what has been taken since. -/
  copies : List Nat
  /-- A CREDIT message has been received since the lane was enabled. -/
  tracking : Bool
  /-- The pending poll: TAG and the uptime of its arrival. -/
  poll : Option (Nat × Nat)
  /-- DEVTIME since which codewords have been sent; uptime at which the first of them began, cell 0 with it; and what had left the block
  before (R359, R373). -/
  since : Nat
  grid : Nat
  outFrom : Nat
  /-- MEDIA and PRECODE in effect (R373). -/
  media : Bool
  precode : Bool
  deriving DecidableEq, Repr

/-- The Wall Link's standby state (R370). -/
structure WlkSt where
  lanes : Tbl LaneSt
  /-- Standby value before the first change listed. -/
  base : Bool
  /-- Changes: the first tick that carries the value, in order. -/
  changes : List (Nat × Bool)
  deriving DecidableEq, Repr

/-! ## Fault injection (17) -/

/-- The injector (R453 to R455). -/
structure FinjSt where
  /-- Generator of each link. -/
  gen : Tbl Nat
  /-- Units held by a reorder: link, DEVTIME of the hold, and the event that brought the unit. -/
  held : List (Nat × Nat × Instr)
  /-- A mirror message held before sending, by link. -/
  heldMsg : List (Nat × Msg)
  deriving DecidableEq, Repr

/-! ## Local memory (09) -/

/-- A request in a channel's queues (R245, R247, R248). -/
structure DmcReq where
  /-- Requester ID (R244). -/
  req : Nat
  /-- Local byte address of the granule. -/
  addr : Nat
  bank : Nat
  row : Nat
  /-- Order of arrival. -/
  seq : Nat
  /-- Byte enables of a write; 0 for a read. -/
  mask : Nat
  /-- A queued read's granule with the newest data it may return, empty for a read that stalls at its requester (R248). The 64 bytes of a
  write that stalls, and for a queued write what memory held at its bytes before it (R265). -/
  data : List Nat
  deriving DecidableEq, Repr

/-- A read that waits at a sector region's crossbar: the sector of its port (none for a unit outside the sectors), requester, granule
address (R17). -/
structure XbarReq where
  sector : Option Nat
  req : Nat
  addr : Nat
  deriving DecidableEq, Repr

/-- The crossbar of a sector region: reads waiting, oldest first, and the number of the next slot, counted from uptime 0 (R17). -/
structure XbarSt where
  waiting : List XbarReq
  slot : Nat
  deriving DecidableEq, Repr

/-- A DRAM channel. -/
structure DmcCh where
  /-- Reads, oldest first; the first 16 of a bank are in its queue, later ones stall at their requester. -/
  reads : List DmcReq
  /-- Writes, oldest first; the first 32 are in the queue. -/
  writes : List DmcReq
  /-- Writes drain continuously (R247). -/
  draining : Bool
  /-- Open rows: bank and row. -/
  opened : List (Nat × Nat)
  /-- Bank that received the last activate. -/
  lastAct : Nat
  /-- Row hits in a row served ahead of an older request, per bank. -/
  hits : List (Nat × Nat)
  /-- Activates of the window, per bank (R256). -/
  acts : List (Nat × Nat)
  /-- Throttled requesters: requester, bank, uptime of its last activate (R256). -/
  throttle : List (Nat × Nat × Nat)
  /-- Next bank pair to refresh, and uptime from which the next refresh's interval is counted (R250). -/
  pair : Nat
  refAt : Nat
  /-- Banks that a refresh or refresh-management command holds, and the uptime of its end (R250, R256). -/
  busy : List (Nat × Nat)
  /-- A forced refresh burst runs (R253); uptime of its last command. -/
  burst : Bool
  burstAt : Nat
  /-- uptime of the last MR4 read (R252), and of the start of the activate-counting window (R256). -/
  mr4At : Nat
  winAt : Nat
  /-- uptime of the last request, or of the last one's end. -/
  idleAt : Nat
  /-- uptime at which an exit from self-refresh ends. -/
  wakeAt : Option Nat
  /-- Delays and reference voltages in force: DLY lane 0, DLY lane 1, VREF, CADLY (R258). -/
  delays : List Word
  deriving DecidableEq, Repr

/-- The memory controller. -/
structure DmcSt where
  chans : Tbl DmcCh
  /-- Read-ahead buffer of each real-time port for its current band: granules still to come, and granules buffered (R249). -/
  ports : Tbl (Nat × Nat)
  /-- Crossbar of each sector region (R17). -/
  xbar : Tbl XbarSt
  /-- Arrival counter. -/
  seq : Nat
  /-- The last read answered (the model's own field): requester, address, data, poisoned. DESIGN CHOICE, log entry 10. -/
  reply : Option (Nat × Nat × List Nat × Bool)
  /-- A capture in progress: channel, points asked for (R259). -/
  capture : Option (Nat × Nat)
  /-- A set-point change: target, uptime of the request, whether it has reached step 4 (R260). -/
  change : Option (Nat × Nat × Bool)
  deriving DecidableEq, Repr

/-! ## The blitter (08) -/

structure BltSt where
  /-- The 64 bytes of the descriptor in progress. -/
  desc : Option (List Nat)
  /-- The agent that last wrote TAILIDX (R235). -/
  agent : Nat
  /-- BLT.GAMUT as it was at the descriptor's start (R238). -/
  gamut : List Word
  /-- Local memory as it was at the descriptor's start (R225). -/
  snap : Mem
  /-- The descriptor's operation has begun. -/
  running : Bool
  /-- The row in hand has been written, and is not yet complete (R232). -/
  written : Bool
  /-- Host granules read for the descriptor in hand, by address ÷ 64, with their data (R273). -/
  got : List (Nat × List Nat)
  /-- Halts, resets and starts so far: reads of an abandoned descriptor are told by it. -/
  gen : Nat
  /-- The watermark has fired for the descriptor (R232). -/
  fired : Bool
  deriving DecidableEq, Repr


/-! ## CXL and DMA (10) -/

/-- What a CXL.cache access is for (R273). -/
inductive CxlUse where
  /-- The data of a layer. -/
  | fetch
  /-- A layer's reference record (R213). -/
  | record
  | blitter
  /-- A writeback port. -/
  | writeback (port : Nat)
  /-- The input of an encode on a codec pipe (R330). -/
  | codec (pipe : Nat)
  deriving DecidableEq, Repr

/-- A CXL.cache read (R273, R274). -/
structure CxlRead where
  tag : Nat
  /-- Host physical address of the granule. -/
  addr : Nat
  use : CxlUse
  /-- A real-time read; the blitter's and a rebuild band's are not. -/
  rt : Bool
  sector : Nat
  layer : Nat
  /-- Group of a rebuild band; the band. -/
  group : Nat
  key : Nat × Nat × Nat × Nat
  /-- It holds a shared tracker. -/
  shared : Bool
  /-- uptime of its issue. -/
  issued : Nat
  /-- Band-time of its head in ns. -/
  bandTime : Nat
  deriving DecidableEq, Repr

/-- A CXL.cache write whose global-observation response has not come (R281); a writeback's with the tick and phase of its sub-frame. -/
structure CxlWrite where
  tag : Nat
  addr : Nat
  use : CxlUse
  tick : Nat
  phase : Nat
  deriving DecidableEq, Repr

/-- The CXL controller. -/
structure CxlSt where
  /-- Reads outstanding, oldest first. -/
  reads : List CxlRead
  /-- Reads that wait for a tracker, oldest first. -/
  queue : List CxlRead
  /-- Writes outstanding, oldest first. -/
  writes : List CxlWrite
  /-- Requests held while the link is not in L0, oldest first (R272). -/
  hold : List Msg
  /-- Next tag. -/
  tag : Nat
  /-- uptime of the last CXL_LATEXCEED. -/
  latSeen : Option Nat
  /-- HDM decoder of the PF: base and size in units of 256 MiB (R282). -/
  hdmBase : Nat
  hdmSize : Nat
  /-- The link has been in L0 and has not gone down since: it is in L0, in recovery or in L1 (R396, R402). -/
  up : Bool
  deriving DecidableEq, Repr

/-- A DMA channel (R285 to R292). -/
structure DmaCh where
  /-- The 64 bytes of the descriptor in progress. -/
  desc : Option (List Nat)
  /-- The agent that last wrote TAILIDX (R289). -/
  agent : Nat
  /-- The operation has begun. -/
  begun : Bool
  /-- Granules of a COPY whose reads have been issued. -/
  issued : Nat
  /-- Granules written. -/
  written : Nat
  /-- The zero-length read after a descriptor's host writes has been issued; it has returned (R281). -/
  flushed : Option Bool
  deriving DecidableEq, Repr

/-- The DMA engine. -/
structure DmaSt where
  chans : Tbl DmaCh
  /-- Reads outstanding, oldest first: channel, address, tag, and kind: 0 data of local DRAM, 1 a descriptor in host memory, 2 the
  zero-length read of R281, 3 data of host memory; 4 more for one to be discarded when it returns. -/
  reads : List (Nat × Nat × Nat × Nat)
  /-- Channel whose turn it is and granules left in it (R290). -/
  turn : Nat
  left : Nat
  deriving DecidableEq, Repr

/-! ## Network (11) -/

/-- A video frame being received (R307). -/
structure OpenFrame where
  ts : Nat
  /-- Slot written; none where the frame is discarded for want of one (R308). -/
  slot : Option Nat
  /-- Arrival stamp of the first packet; uptime of the last. -/
  first : Nat
  last : Nat
  /-- Extended sequence numbers accepted. -/
  seqs : List Nat
  deriving DecidableEq, Repr

/-- An access unit being received (R310). -/
structure OpenAu where
  ts : Nat
  /-- RTP payloads with their extended sequence numbers, rising. -/
  packets : List (Nat × List Nat)
  /-- Arrival stamp of the last packet. -/
  stamp : Nat
  /-- Extended sequence numbers accepted. -/
  seqs : List Nat
  deriving DecidableEq, Repr

/-- Rates in Mbit/s and sizes in bytes of a flow's buckets (R302). -/
structure Rates where
  cir : Nat
  pir : Nat
  cbs : Nat
  pbs : Nat
  deriving DecidableEq, Repr

/-- An ingest flow (R302 to R311). -/
structure FlowSt where
  /-- Buckets in 1/8,000 byte, as of the uptime of the last datagram metered, and the rates that have been in effect since. -/
  tc : Nat
  tp : Nat
  at0 : Nat
  rates : Rates
  /-- KIND, FMT, GEOM, PITCH, STRIDE and BASE in effect. -/
  kind : Nat
  fmt : Word
  geom : Word
  pitch : Nat
  stride : Nat
  base : Nat
  /-- Slot written last. -/
  prev : Nat
  frame : Option OpenFrame
  /-- RTP timestamps of frames closed, newest first. DESIGN CHOICE, log entry 97. -/
  closed : List Nat
  au : Option OpenAu
  /-- HEVC ring: with WOFS at the context's RDOFS it is full, and not empty (R311, R344). -/
  full : Bool
  deriving DecidableEq, Repr

/-- A frame that waits to be sent, without FCS (R313, R314). -/
structure TxFrame where
  bytes : List Nat
  /-- The firmware ring slot it comes from. -/
  slot : Option Nat
  /-- It belongs to the pixel map's packets of the tick. -/
  pix : Bool
  /-- It is a Delay_Req. -/
  req : Bool
  deriving DecidableEq, Repr

/-- An egress class (R314 to R316). -/
structure ClassSt where
  fifo : List TxFrame
  /-- Credit in 1/8,000 byte, as of an uptime. -/
  credit : Int
  at0 : Nat
  deriving DecidableEq, Repr

/-- A frame being sent by a port: class (32 the time queue), frame, stamp at its start, uptime of its end. -/
structure Sending where
  cls : Nat
  frame : TxFrame
  stamp : Nat
  stop : Nat
  deriving DecidableEq, Repr

/-- Ingest and egress. -/
structure NetSt where
  flows : Tbl FlowSt
  /-- Ingest buffer fill in bytes when last known (R303). -/
  fill : Nat
  classes : Tbl ClassSt
  ports : Tbl (Option Sending)
  /-- RTP sequence number of each TXS, and sequence number of each sACN universe. -/
  rtpSeq : Tbl Nat
  univSeq : Tbl Nat
  /-- Pixel-map packets that have found no room yet, with their class. -/
  pixQ : List (Nat × List Nat)
  /-- Entries whose packet of the tick is still to be built, in order, with their slots once their samples are all taken; a data packet of
  the tick has been built (R320). -/
  pixDue : List (Nat × Option (List Nat))
  pixMade : Bool
  /-- Encoder access units to send: context, DEVTIME of the picture, bytes. -/
  txq : List (Nat × Nat × List Nat)
  /-- The agents by whose rights the firmware rings are accessed: the last that wrote NET.FWRXCTL, and TSP.FWTXTAIL (R450).
  DESIGN CHOICE, log entry 182. -/
  rxAgent : Nat
  txAgent : Nat
  deriving DecidableEq, Repr

/-! ## The picture codec (12) -/

/-- A PU's motion found by the search of R347: place and size, reference (0 or 1), vector in quarter samples. -/
structure Motion where
  x : Nat
  y : Nat
  w : Nat
  h : Nat
  ref : Nat
  mvx : Int
  mvy : Int
  deriving DecidableEq, Repr

/-- What an output slot says of a picture, and its conformance window in luma samples (R340, R341). -/
structure PicInfo where
  poc : Nat
  rtp : Nat
  misspoc : Nat
  concealed : Bool
  order : Nat
  left : Nat
  top : Nat
  width : Nat
  height : Nat
  deriving DecidableEq, Repr

/-- A decoded or reconstructed picture (R337 to R341): its number, whether its samples are 8-bit ones, 4:2:2, the CTB size and the CTBs in
a row, the CTBs copied from the concealment reference and that one (none for grey), and what an output says of it. -/
structure Pic where
  id : Nat
  eight : Bool
  full : Bool
  ctb : Nat
  across : Nat
  copied : List Nat
  src : Option (Nat × Bool)
  info : PicInfo
  deriving DecidableEq, Repr

/-- A picture without copied CTBs. -/
def Pic.coded (id : Nat) : Pic := ⟨id, false, false, 64, 1, [], none, ⟨0, 0, 0, false, 0, 0, 0, 0, 0⟩⟩

/-- What a picture's samples and motion are a function of. -/
def Pic.key (p : Pic) : List Nat :=
  [p.id, ofBool p.eight, ofBool p.full, p.ctb, p.across, p.info.poc, p.copied.length] ++ p.copied ++
    match p.src with
    | none => []
    | some r => [r.1, ofBool r.2]

/-- The window store of a privileged encoder context (R348): the pictures of its references, and the CTB it lies around. -/
structure CdcWindow where
  ctx : Nat
  refs : List Pic
  x0 : Nat
  y0 : Nat
  deriving DecidableEq, Repr

/-- A codec context (R327 to R353). -/
structure CdcCtx where
  /-- The words of CFG to PERIOD latched at the last enable. -/
  eff : List Word
  /-- The agent that last wrote CMDTAIL. -/
  agent : Nat
  /-- The 64 bytes of the command in progress, and whether its picture has been coded. -/
  cmd : Option (List Nat)
  coded : Bool
  /-- Events due at the command's completion (R331): bit 0 CONCEALED, 1 OUT_DROP, 2 RC_FLOOR. -/
  due : Nat
  /-- Output slot written last; pictures decoded since enable. -/
  prev : Nat
  order : Nat
  /-- Per surface: the picture it holds and whether that is tainted. -/
  surfs : List (Pic × Bool)
  /-- The concealment reference: a surface, NSURF for the concealment surface, none for grey. -/
  ref : Option Nat
  /-- Fullness of the coded picture buffer in 10^-9 bit. -/
  full : Nat
  /-- RCCFG at the start of the picture in progress: its TFILL and CTBMAX. -/
  rc : Word
  /-- Host granules of the input read for the command, by address ÷ 64, with their data (R330). -/
  got : List (Nat × List Nat)
  /-- The converted input of the latest encoded picture: Y′, Cb and Cr codes in raster order (R346). -/
  src : List (List Nat)
  /-- The motion found for it (R347). -/
  motion : List Motion
  deriving DecidableEq, Repr

/-- The codec. -/
structure CdcSt where
  ctxs : Tbl CdcCtx
  /-- Context that each pipe codes, the context it coded last, and the uptime at which that one's state is loaded. -/
  pipes : List (Option Nat)
  last : List (Option Nat)
  ready : List Nat
  /-- Pointers of the LIVE and the other class (R332). -/
  ptrLive : Nat
  ptr : Nat
  /-- Window stores of the contexts that CDC.PRIV's two fields named at their latest picture start (R348). -/
  windows : List (Option CdcWindow)
  deriving DecidableEq, Repr

/-! ## The redundant pair (16) -/

/-- A commit word of the primary whose result has not come yet (R426). -/
structure MirCommit where
  /-- The snapshot, or none for a structure commit. -/
  commit : Option Commit
  /-- The standby's own validation code. -/
  own : Nat
  agent : Nat
  deriving DecidableEq, Repr

/-- The mirror link. -/
structure MirSt where
  /-- Sequence number of the next message sent, and of the next expected. -/
  outSeq : Nat
  inSeq : Nat
  /-- Commits taken when the last gap was found: a later one resynchronises (R434). -/
  gapOrder : Nat
  /-- Commit words awaiting the primary's result, oldest first. -/
  waiting : List MirCommit
  /-- Tick for which a swap, or a takeover, is taken (R432, R433). -/
  swapTick : Option Nat
  takeTick : Option Nat
  /-- DEVTIME of the last heartbeat sent, and of the last one received or missed. -/
  hbSent : Nat
  hbSeen : Nat
  /-- Tick and band latch of the last heartbeat sent and of the last one received; whether the peer's answer to the last one sent is no
  longer awaited: it sent none at a band latch, or was counted as missed (R431). -/
  hbKey : Nat × Nat
  hbGot : Option (Nat × Nat)
  hbDone : Bool
  /-- DEVTIME of the last time message sent (R424). -/
  timeAt : Nat
  /-- The first lock to the primary's time has been made (R429). -/
  locked : Bool
  /-- Heads whose flatten surface the primary has started to use (R430). -/
  flat : List Nat
  /-- A heartbeat of the peer has come since EN was set: EN is 1 on both devices (R424). -/
  peerOn : Bool
  /-- A message has been delivered since EN was set; the peer has been counted as lost since the last one. -/
  heard : Bool
  lost : Bool
  /-- The device became primary by a swap: items that the old primary took before it may still come (R433). -/
  tail : Bool
  /-- The device was primary when a swap ended, with a validation under way whose result it still forwards (R433). -/
  owes : Bool
  deriving DecidableEq, Repr
/-! ## Interrupts, power, pins -/

/-- Interrupt controller state no register holds (R384, R385). -/
structure IcuSt where
  /-- Source held at each in-service level: key 16 × target + level; 0 none. -/
  serv : Tbl Nat
  /-- MSI-X entries the host has unmasked (function, entry), and those with a pending bit set (R284). PRESUMED, log entry 91. -/
  unmasked : List (Nat × Nat)
  msixPend : List (Nat × Nat)
  /-- Messages that wait for the link to reach L0 (R394). -/
  msixHeld : List (Nat × Nat)
  deriving DecidableEq, Repr

/-- Power and thermal state no register holds. -/
structure PwrSt where
  /-- Energy bucket in units of 1/160 µJ (R409). DEDUCED, log entry 121. -/
  energy : Nat
  /-- A Noon entry or exit awaits the next band latch (R408): the state to go to. -/
  noonPend : Option Bool
  /-- uptime of the cause of that change. -/
  noonAt : Nat
  /-- uptime of the last microsecond of the bucket, of the last sensor sample and of the last shed step or stage crossing. -/
  bucketAt : Nat
  sampleAt : Nat
  shedAt : Nat
  /-- A wake cause arrived during Midnight entry (R405). -/
  wakePend : Bool
  /-- In wake: the ICU and DMC have been restored (R406). -/
  restored : Bool
  /-- Thermal shed level L (R414). -/
  shedL : Nat
  /-- Last readings in 0.125 °C and the uptime of each one's last change (R411). -/
  sens : List (Int × Nat)
  /-- uptime since which Tj has stayed below T1, T2, T3 less HYST (R412). -/
  below : List (Option Nat)
  /-- T1, T2, T3 have been reached and not left (R412). -/
  reached : List Bool
  /-- Sensors that have reached 125 °C: THERMTRIP_N is driven low (R416). -/
  tripped : Bool
  deriving DecidableEq, Repr

/-- Levels of input pins that a rule looks at: resets and rails. DESIGN CHOICE, log entry 14. -/
structure PinSt where
  /-- PORST_N, RESET_N, PERST_N are low; the always-on rail is under voltage. -/
  porst : Bool
  reset : Bool
  perst : Bool
  undervolt : Bool
  deriving DecidableEq, Repr

/-- The boot unit (R440 to R446). -/
structure BootSt where
  /-- 0 before the MDLLs lock, 1 header read under way, 2 header checked, 3 image loaded or defaults loaded. -/
  stage : Nat
  /-- The flash runs in 8D-8D-8D mode. -/
  octal : Bool
  /-- The header as read. -/
  header : List Nat
  /-- Configuration requests get their real values (R440). -/
  cfgReady : Bool
  deriving DecidableEq, Repr

/-- The state of the block. -/
structure State where
  /-- Commands that wait, first in, first out. -/
  pending : List Instr
  /-- The part (R2). DESIGN CHOICE, log entry 1. -/
  part : Part
  /-- Every register and register-mapped memory, by BAR0 offset; registers banked per agent (R78) at offset + 2^26 × (agent + 1). -/
  regs : Tbl Word
  /-- Captured upper halves of RO pairs: key 2^26 × agent + offset of _HI (R9). DEDUCED, log entry 23. -/
  capHi : List (Nat × Word)
  /-- Held low halves of RW and RWS pairs: key 2^26 × agent + offset of _LO (R9). DEDUCED, log entry 23. -/
  heldLo : List (Nat × Word)
  /-- Value the last register read returned (the model's own field). DESIGN CHOICE, log entry 10. -/
  lastRead : Word
  /-- Counter that names free values (the model's own field). DESIGN CHOICE, log entry 9. -/
  fresh : Nat
  /-- What the block has sent, oldest first. DESIGN CHOICE, log entry 10. -/
  out : List Msg
  time : TimeSt
  clk : ClkSt
  heads : Tbl HeadSt
  layers : Tbl LayerRt
  fences : Tbl Fence
  /-- Commit words taken so far. -/
  commits : Nat
  /-- The commit under validation (R79). -/
  busy : Option Commit
  /-- Accepted commits that some head has yet to take, in write order (R81). -/
  accepted : List Commit
  groups : Tbl GroupSt
  /-- Scaler bands waiting in each sector's queue, in queue order (R110). -/
  scalQ : Tbl (List ScalerBand)
  /-- The scaler band each unit serves. -/
  scalers : Tbl (Option ScalerBand)
  /-- Flatten surfaces. -/
  surfaces : List Surface
  producers : Tbl Producer
  /-- LTR is enabled in the PF's device control registers (R283). -/
  ltrEn : Bool
  /-- Words of the functions' configuration spaces and of their MSI-X tables, by the offset the model gives them; an unlisted word is
  0 (R270). DESIGN CHOICE, log entry 153. -/
  pcie : Tbl Word
  wb : Tbl WbSt
  pose : PoseSt
  mgmt : Tbl MgmtSt
  /-- The management SRAMs, by the shared address of R447: core k at 0x2_0000 × (k + 1), shared SRAM at 0x10_0000; an unlisted byte reads 0.
  DESIGN CHOICE, log entry 78. -/
  sram : Mem
  mir : MirSt
  dmc : DmcSt
  blt : BltSt
  cxl : CxlSt
  net : NetSt
  cdc : CdcSt
  dma : DmaSt
  wlk : WlkSt
  finj : FinjSt
  /-- Samples of each pixel-map entry (R319): per pixel the encoded value and its code width. -/
  pix : Tbl (List (Nat × Nat))
  icu : IcuSt
  pwr : PwrSt
  pins : PinSt
  boot : BootSt
  /-- Local DRAM; an unlisted byte reads 0. -/
  dram : Mem
  /-- Host and pooled memory as the device has seen it: an unlisted byte has not been seen (Config.hostByte).
  DESIGN CHOICE, log entry 76. -/
  host : Tbl (Option Byte)
  /-- 64-byte granules of host memory whose latest read failed (R278), by address ÷ 64. -/
  hostBad : List Nat
  deriving DecidableEq, Repr

/-! ## Reset -/

/-- The reset value of the RWS registers of a head (HEAD register tables). -/
def HeadCfg.init : HeadCfg :=
  ⟨0x00000100, 0x07800898, 0x04380465, 0x04110029, 0x00010014, 0, 0x300, 0⟩

/-- Element k of an identity matrix of nine words. -/
def identity9 (one : Word) : List Word := [one, 0, 0, 0, one, 0, 0, 0, one]

/-- The reset value of a layer entry (R138). -/
def LayerCfg.init : LayerCfg where
  ctl := 0
  src := 0
  addrLo := 0
  addrHi := 0
  pitch := 0
  srcorg := 0
  srcsize := 0x00010001
  dstpos := 0
  dstsize := 0x00010001
  zblend := 0xFFFF0000
  rdy := 0
  fillrg := 0
  fillba := 0xFFFF0000
  pbind := 0
  warp := 0
  color := 0
  defxf := List.replicate 9 0
  gamut := identity9 0x10000

/-- The reset value of a writeback port's registers. -/
def WbCfg.init : WbCfg := ⟨0x1000, 0, 0, 0, 0⟩

def HeadSt.init : HeadSt where
  cfg := HeadCfg.init
  layers := []
  order := 0
  agent := 0
  latchTick := 1
  lastTick := 0
  cfgWas := HeadCfg.init
  runs := []
  bands := []
  sent := []
  retimeEnd := none
  resume := false
  duskPend := false
  idle := 0
  unchanged := true
  twiExit := false
  lateSeen := none
  clampSeen := none
  subPhase := 0
  subStart := 0
  capture := none
  lastLatch := none
  early := none

def LayerRt.init : LayerRt := ⟨none, false, none, 0, none, none, false, [], none, none, LayerCfg.init⟩

def Producer.init : Producer := ⟨0, none, []⟩

def Fence.init : Fence := ⟨0, 0⟩

def WbSt.init : WbSt := ⟨WbCfg.init, 0, false, none, none, []⟩

def Px.zero : Px := ⟨0, 0, 0, 0⟩

def Vec.zero : List Px := List.replicate 16 Px.zero

def CoreSt.init : CoreSt where
  on := false
  pc := 0
  v := List.replicate 32 Vec.zero
  s := List.replicate 32 0
  p := true :: List.replicate 7 false
  scratch := []
  scratchTag := 0
  loops := []
  line := none
  released := []
  wait := .none
  since := 0
  listed := 0
  waited := 0
  ins := 0

def GroupSt.init : GroupSt := ⟨[], none, none, [], [], [], []⟩

def PoseSrc.init : PoseSrc := ⟨[], 0⟩

def TickStruct.init : TickStruct := ⟨9, 1, List.replicate 8 0⟩

def ShutOut.init : ShutOut := ⟨0, 0, 1000, [], 0, -1, none, false⟩

def Genlock.init : Genlock := ⟨none, 0, 0, 0, false, false⟩

def PtpClock.init : PtpClock where
  master := none
  port := 0
  lastAnnounce := 0
  annLog := 0
  syncLog := 0
  lastSync := none
  syncWait := none
  t1 := 0
  t2 := 0
  reqSeq := 0
  t3 := none
  reqDue := none
  delay := 0
  delayValid := false
  offset := 0
  run := 0
  foreign := []

def TimeSt.init : TimeSt where
  devtime := 0
  uptime := 0
  sysTenths := 0
  compTenths := 0
  ts := TickStruct.init
  tphase := 0
  tphasePend := none
  ticknum := 0
  nextTick := 1
  recent := [⟨0, 0, TickStruct.init⟩]
  armed := none
  shut := List.replicate 8 ShutOut.init
  gl := Genlock.init
  ptp := PtpClock.init
  holdEnd := none
  corrFrom := 0
  corr := 0
  corrAt := 0
  corrSlow := false
  pps := false
  ticked := false
  faultSrc := 0
  faultOfs := 0
  handover := false
  rateEnd := 0

def ClkSt.init : ClkSt := ⟨[1, 1], List.replicate 3 none, false, false⟩

def PoseSt.init : PoseSt := ⟨[], [], 0, [], [], (0, 0), []⟩

/-- DESIGN CHOICE, log entry 13. -/
def MgmtSt.init : MgmtSt where
  on := false
  pc := 0x00800000
  s := List.replicate 32 0
  p := true :: List.replicate 7 false
  ie := false
  pie := false
  epc := 0
  cause := 0
  tvec := 0
  badaddr := 0
  wait := .none
  ins := 0

def MirSt.init : MirSt := ⟨0, 0, 0, [], none, none, 0, 0, (0, 0), none, true, 0, false, [], false, false, false, false, false⟩

def LaneSt.init : LaneSt := ⟨List.replicate 8 0, false, none, 0, 0, 0, false, false⟩

def WlkSt.init : WlkSt := ⟨[], false, []⟩

def FinjSt.init : FinjSt := ⟨[], [], []⟩

def DmcCh.init : DmcCh where
  reads := []
  writes := []
  draining := false
  opened := []
  lastAct := 15
  hits := []
  acts := []
  throttle := []
  pair := 0
  refAt := 0
  busy := []
  burst := false
  burstAt := 0
  mr4At := 0
  winAt := 0
  idleAt := 0
  wakeAt := none
  delays := [0, 0, 0x404040, 0]

def XbarSt.init : XbarSt := ⟨[], 0⟩

def DmcSt.init : DmcSt := ⟨[], [], [], 0, none, none, none⟩

def BltSt.init : BltSt := ⟨none, 0, [], [], false, false, [], 0, false⟩

def CxlSt.init : CxlSt := ⟨[], [], [], [], 0, none, 0, 0, false⟩

def DmaCh.init : DmaCh := ⟨none, 0, false, 0, 0, none⟩

def DmaSt.init : DmaSt := ⟨[], [], 0, 0⟩

def FlowSt.init : FlowSt where
  tc := 0
  tp := 0
  at0 := 0
  rates := ⟨0, 0, 0, 0⟩
  kind := 0
  fmt := 0x4E200030
  geom := 0x00010001
  pitch := 0
  stride := 0
  base := 0
  prev := 15
  frame := none
  closed := []
  au := none
  full := false

def ClassSt.init : ClassSt := ⟨[], 0, 0⟩

def NetSt.init : NetSt := ⟨[], 0, [], [], [], [], [], [], false, [], 0, 0⟩

def CdcCtx.init : CdcCtx where
  got := []
  src := []
  motion := []
  eff := [0x004470F0, 0x08700F00] ++ List.replicate 21 0
  agent := 0
  cmd := none
  coded := false
  due := 0
  prev := 15
  order := 0
  surfs := List.replicate 16 (Pic.coded 0, false)
  rc := 0
  ref := none
  full := 0

def CdcSt.init : CdcSt where
  windows := [none, none]
  ctxs := []
  pipes := List.replicate 4 none
  last := List.replicate 4 none
  ready := List.replicate 4 0
  ptrLive := 0
  ptr := 0

def IcuSt.init : IcuSt := ⟨[], [], [], []⟩

def PwrSt.init : PwrSt where
  energy := 34000000 * 160
  noonPend := none
  noonAt := 0
  bucketAt := 0
  sampleAt := 0
  shedAt := 0
  wakePend := false
  restored := false
  shedL := 0
  sens := List.replicate 16 (0, 0)
  below := List.replicate 3 (some 0)
  reached := List.replicate 3 false
  tripped := false

def PinSt.init : PinSt := ⟨false, false, false, false⟩

def BootSt.init : BootSt := ⟨0, false, [], false⟩

/-- The block right after reset release (R463). DESIGN CHOICE, log entries 1, 14. -/
def State.reset : State where
  pending := []
  part := .tx4128
  regs := []
  capHi := []
  heldLo := []
  lastRead := 0
  fresh := 0
  out := []
  time := TimeSt.init
  clk := ClkSt.init
  heads := []
  layers := []
  fences := []
  commits := 0
  busy := none
  accepted := []
  groups := []
  scalQ := []
  scalers := []
  surfaces := []
  producers := []
  ltrEn := false
  pcie := []
  wb := []
  pose := PoseSt.init
  mgmt := []
  sram := []
  mir := MirSt.init
  dmc := DmcSt.init
  blt := BltSt.init
  cxl := CxlSt.init
  net := NetSt.init
  cdc := CdcSt.init
  dma := DmaSt.init
  wlk := WlkSt.init
  finj := FinjSt.init
  pix := []
  icu := IcuSt.init
  pwr := PwrSt.init
  pins := PinSt.init
  boot := BootSt.init
  dram := []
  host := []
  hostBad := []

end Sys2Proof.Machine
end

