-- ==== Sys2Proof/Machine/Ops.lean ====
section
/-! DEFINITION. The named operations every meaning is built of: reading and writing registers and their fields, passing of
device time, raising an event (unit cause bit, then signal, R377, R378), request lines and MSI-X, the protection map, local DRAM
and host memory, and taking an exception on a management core. -/

namespace Sys2Proof.Machine

/-! ## Registers -/

/-- The word a register holds. -/
def State.rd (s : State) (off : Nat) : Word := Tbl.get (resetWord s.part) s.regs off

/-- A register with a new word. -/
def State.wr (s : State) (off : Nat) (v : Word) : State := { s with regs := Tbl.set (resetWord s.part) s.regs off v }

/-- The value of a field. -/
def State.get (s : State) (f : Fld) : Nat := field (s.rd f.off).toNat f.lo f.width

/-- A field with a new value, its register's other bits kept. -/
def State.put (s : State) (f : Fld) (v : Nat) : State :=
  s.wr f.off (BitVec.ofNat 32 (putField (s.rd f.off).toNat f.lo f.width v))

/-- A field is not 0. -/
def State.flag (s : State) (f : Fld) : Bool := s.get f != 0

/-- A counter field plus `n`, wrapping. -/
def State.bump (s : State) (f : Fld) (n : Nat := 1) : State := s.put f (s.get f + n)

/-- A counter field plus `n`, saturating. -/
def State.bumpSat (s : State) (f : Fld) (n : Nat := 1) : State := s.put f (satAt (2 ^ f.width - 1) (s.get f + n))

/-- The 64-bit value of the pair whose _LO is at `lo`. -/
def State.rd64 (s : State) (lo : Nat) : Nat := (s.rd lo).toNat + 2 ^ 32 * (s.rd (lo + 4)).toNat

/-- A pair with a new 64-bit value. -/
def State.wr64 (s : State) (lo v : Nat) : State :=
  (s.wr lo (BitVec.ofNat 32 v)).wr (lo + 4) (BitVec.ofNat 32 (v / 2 ^ 32))

/-- The key of an agent's own copy of a banked register (R78). -/
def bank (agent off : Nat) : Nat := off + 0x4000000 * (agent + 1)

/-- A field of an agent's own copy of a banked register. -/
def bankFld (agent : Nat) (f : Fld) : Fld := { f with off := bank agent f.off }

/-- The 32-bit words of consecutive registers. -/
def State.rdList (s : State) (off n : Nat) : List Word := (List.range n).map fun i => s.rd (off + 4 * i)

/-- A new free-value name. DESIGN CHOICE, log entry 9. -/
def State.tick (s : State) : State := { s with fresh := s.fresh + 1 }

/-- Free values used up by a read of `n` of them. DESIGN CHOICE, log entry 9. -/
def State.ticks (s : State) (n : Nat) : State := { s with fresh := s.fresh + n }

/-- A message sent. -/
def State.emit (s : State) (m : Msg) : State := { s with out := s.out ++ [m] }

/-- A command completes: its effect is on everything but the queue of waiting commands, and never on which part the device is (R2).
DESIGN CHOICE, log entry 1. -/
def State.done (s t : State) : Host.Outcome State Fault Refusal := .next { t with pending := s.pending, part := s.part }

/-! ## Time -/

/-- DEVTIME. -/
def State.now (s : State) : Nat := s.time.devtime.toNat

/-- Tenths of a cycle of the compose clock in a nanosecond: 400 MHz on the fallback path (R62), 2.0 GHz in Noon but for thermal stage 1
and above (R408), else 1.6 GHz. -/
def State.composeRate (s : State) : Nat :=
  if s.flag F.clkStatusFallback then 4 else if s.get F.pwrStatusState = 1 && s.get F.thmStatusStage = 0 then 20 else 16

/-- The device is held in reset: a reset pin is low, or the always-on rail (R438, R466). -/
def State.held (s : State) : Bool := s.pins.porst || s.pins.reset || s.pins.undervolt

/-- No time passes: the clock has died (R63), or the device is held in reset. -/
def State.still (s : State) : Bool := s.clk.dead || s.held

/-- `d` nanoseconds pass (R33); none on a clock that has died (R63) or in reset. The system clock runs at 1.2 GHz, or at 400 MHz on the
fallback path (R62). DESIGN CHOICE, log entry 3; DEDUCED, log entries 6, 8. -/
def State.elapse (s : State) (d : Nat) : State :=
  if s.still then s
  else
    { s with time := { s.time with
        devtime := BitVec.ofNat 64 (s.now + d)
        uptime := s.time.uptime + d
        sysTenths := s.time.sysTenths +
          (if s.clk.stalled then 0 else d * (if s.flag F.clkStatusFallback then 4 else 12))
        compTenths := s.time.compTenths + (if s.clk.stalled then 0 else d * s.composeRate) } }

/-- Time passes until DEVTIME is `t`; nothing when `t` has passed. DESIGN CHOICE, log entry 3. -/
def State.advanceTo (s : State) (t : Nat) : State := if s.now < t then s.elapse (t - s.now) else s

/-- No command waits: one nanosecond passes. DESIGN CHOICE, log entry 2. -/
def State.idle (s : State) : State := s.elapse 1

/-- Numerator and denominator of a rate code, in Hz (R46). -/
def rateND : Nat → Nat × Nat
  | 0 => (24000, 1001)
  | 1 => (24, 1)
  | 2 => (25, 1)
  | 3 => (30000, 1001)
  | 4 => (30, 1)
  | 5 => (48000, 1001)
  | 6 => (48, 1)
  | 7 => (50, 1)
  | 8 => (60000, 1001)
  | 9 => (60, 1)
  | 10 => (72, 1)
  | 11 => (90, 1)
  | 12 => (96, 1)
  | 13 => (100, 1)
  | 14 => (120000, 1001)
  | _ => (120, 1)

/-- floor(k × 10^9 × D ÷ N): T(k) less TPHASE (R47). -/
def tickBase (rate k : Nat) : Nat := k * 1000000000 * (rateND rate).2 / (rateND rate).1

/-- The tick period floor(10^9 × D ÷ N) (R47). -/
def tickPeriod (rate : Nat) : Nat := tickBase rate 1

/-- T(k) under a structure and a phase offset. -/
def tickAt (rate : Nat) (tphase : Int) (k : Nat) : Int := (tickBase rate k : Int) + tphase

/-- T(k) under the structure in force. -/
def State.tickT (s : State) (k : Nat) : Int := tickAt s.time.ts.rate s.time.tphase k

/-- PHOFS[i] of a structure. -/
def TickStruct.ofs (t : TickStruct) (i : Nat) : Nat := t.phofs.getD i 0

/-! ## Events, the interrupt controller (R376 to R394) -/

/-- Power domain `d` is on (PWR.DOMSTAT). -/
def State.domOn (s : State) (d : Nat) : Bool := bit (s.rd (Reg.pwrDomstat (d / 32))).toNat (d % 32)

/-- Dusk is in force (R415). -/
def State.inDusk (s : State) : Bool := s.flag F.pwrStatusDusk

/-- A target's in-service level: its highest occupied level, or 0 (R385). -/
def State.isLevel (s : State) (t : Nat) : Nat :=
  (List.range 16).foldl (fun a k => if Tbl.get (fun _ => 0) s.icu.serv (16 * t + k) ≠ 0 then k else a) 0

/-- Sources both pending and enabled, ascending. -/
def State.liveSources (s : State) : List Nat :=
  (List.range 32).flatMap fun w =>
    let x := (s.rd (Reg.icuPending w) &&& s.rd (Reg.icuEnable w)).toNat
    if x = 0 then [] else ((List.range 32).filter (bit x)).map (32 * w + ·)

/-- Source `n`, pending and enabled, qualifies for target `t` (R379). -/
def State.qualifies (s : State) (t n : Nat) : Bool :=
  let p := s.get (F.icuSrcCfgPrio n)
  bit (s.get (F.icuSrcCfgTmask n)) t && s.get (F.icuTgtThreshLevel t) < p && s.isLevel t < p

/-- The source a claim on target `t` takes: highest priority, then lowest number (R384). -/
def State.best (s : State) (t : Nat) : Option (Nat × Nat) :=
  s.liveSources.foldl (fun a n =>
    if s.qualifies t n then
      let p := s.get (F.icuSrcCfgPrio n)
      match a with
      | none => some (n, p)
      | some (m, q) => if q < p then some (n, p) else some (m, q)
    else a) none

/-- Offset of word `o` of the configuration space of function f, past BAR0 (R270). DESIGN CHOICE, log entry 153. -/
def cfgOff (f o : Nat) : Nat := 0x4000000 + 0x1000 * f + o

/-- A word that configuration writes have left. -/
def State.cfgWord (s : State) (f o : Nat) : Nat := (Tbl.get (fun _ => 0) s.pcie (cfgOff f o)).toNat

/-- A message may leave now: MSI-X is enabled in its function, and neither the function nor the entry is masked (R284). A function with
MSI-X not enabled holds its messages as a masked one does. DESIGN CHOICE, log entry 160. -/
def State.msixOpen (s : State) (e : Nat × Nat) : Bool :=
  bit (s.cfgWord e.1 0x50) 31 && !bit (s.cfgWord e.1 0x50) 30 && s.icu.unmasked.contains e

/-- An MSI-X message leaves, or waits for the link (R394). -/
def State.emitMsix (s : State) (e : Nat × Nat) : State :=
  if s.flag F.cxlLinkL0 then s.emit (.msix e.1 e.2)
  else { s with icu := { s.icu with msixHeld := s.icu.msixHeld ++ [e] } }

/-- The MSI-X message bound to host vector group `v` is due (R284, R382): sent, or held pending by a mask. -/
def State.sendMsix (s : State) (v : Nat) : State :=
  let e := (s.get (F.cxlVgrpFunc v), s.get (F.cxlVgrpEntry v))
  if s.msixOpen e then s.emitMsix e
  else { s with icu := { s.icu with msixPend := if s.icu.msixPend.contains e then s.icu.msixPend else s.icu.msixPend ++ [e] } }

/-- The ICU is in retention: in Midnight, and in wake until it is restored (R393, R394). DEDUCED, log entry 111. -/
def State.icuRetained (s : State) : Bool :=
  s.get F.pwrStatusState == 3 || (s.get F.pwrStatusState == 4 && !s.pwr.restored)

/-- The engines take new work: Midnight is not being entered or in force (R402). -/
def State.takesWork (s : State) : Bool := s.get F.pwrStatusState < 2

/-- One target's request line follows its qualifying sources (R380, R382). -/
def State.evalLine (s : State) (t : Nat) : State :=
  let line := (s.best t).isSome
  if line = s.flag (F.icuTgtStatLine t) then s
  else
    let s := s.put (F.icuTgtStatLine t) (ofBool line)
    if line && t ≥ 4 then s.sendMsix (t - 4) else s

/-- Every request line follows its inputs (R379, R380). DEDUCED, log entry 111. -/
def State.evalLines (s : State) : State :=
  if s.icuRetained then s else (List.range 8).foldl State.evalLine s

/-- A wake cause (R405): wake starts, or waits for entry to complete; after a trip only a reset does anything (R439). -/
def State.wake (s : State) : State :=
  if s.pwr.tripped then s
  else if s.get F.pwrStatusState = 3 then s.put F.pwrStatusState 4
  else if s.get F.pwrStatusState = 2 then { s with pwr := { s.pwr with wakePend := true } }
  else s

/-- The signal of source `n` is accepted (R378): its pending bit is set. A signal for an enabled source of priority above 0 is a
wake cause where WAKECFG.ICU = 1 (R405). -/
def State.pend (s : State) (n : Nat) : State :=
  if n = 0 ∨ 1020 < n then s
  else
    let s := (s.put ⟨Reg.icuPending (n / 32), n % 32, 1⟩ 1).put F.icuStatusLastdb n
    let s := if s.flag F.pwrWakecfgIcu && bit (s.rd (Reg.icuEnable (n / 32))).toNat (n % 32)
        && s.get (F.icuSrcCfgPrio n) != 0 then s.wake else s
    s.evalLines

/-- A unit signals source `n` (R378); in Midnight only sources 941 to 948 can (R405). -/
def State.signal (s : State) (n : Nat) : State :=
  if s.get F.pwrStatusState = 3 ∧ (n < 941 ∨ 948 < n) then s else s.pend n

/-- An event: the unit's cause bit, then the signal of its source (R377). -/
def State.raise (s : State) (cause : Fld) (src : Nat) : State := (s.put cause 1).signal src

/-! ## Protection map (R448 to R452) and access checks (R462) -/

/-- The agent is privileged (R448). -/
def State.privileged (s : State) (agent : Nat) : Bool := agent < 4 || (agent == 4 && s.flag F.protCtlDelegate)

/-- A refusal is recorded and raised (R449): kind 0 register, 1 memory, 2 layer fetch. -/
def State.violation (s : State) (agent : Nat) (write : Bool) (kind addr : Nat) : State :=
  let s := s.put F.protViolAgent agent
  let s := s.put F.protViolWrite (ofBool write)
  let s := s.put F.protViolKind kind
  let s := s.put F.protViolValid 1
  let s := s.bump F.protViolCount
  let s := s.wr64 Reg.protVaddrLo addr
  s.raise F.protEventProtViolation 951

/-- An offset inside an assigned range (R459), and the block index of R458 it belongs to. -/
def blockOf (off : Nat) : Option Nat :=
  let o := off % 0x10000
  if off < 0x50 then some 0
  else if 0x10000 ≤ off ∧ off < 0x10090 then some 1
  else if 0x20000 ≤ off ∧ off < 0x22100 then some 2
  else if 0x30000 ≤ off ∧ off < 0x30040 then some 3
  else if 0x40000 ≤ off ∧ off < 0x40220 then some 4
  else if 0x50000 ≤ off ∧ off < 0x50050 then some 5
  else if 0x60000 ≤ off ∧ off < 0x60080 then some 6
  else if 0x80000 ≤ off ∧ off < 0x82100 then some 7
  else if 0x100000 ≤ off ∧ off < 0x180000 then (if off % 0x1000 < 0x38 then some 8 else none)
  else if 0x200000 ≤ off ∧ off < 0x2C0000 then
    let l := off - 0x200000
    if l < 0x41000 ∨ (0x50000 ≤ l ∧ l < 0x58000) ∨ (0x60000 ≤ l ∧ l < 0x68000) ∨ (0x70000 ≤ l ∧ l < 0x72800) ∨ 0x80000 ≤ l
    then some 9 else none
  else if 0x300000 ≤ off ∧ off < 0x30C000 then (if off % 0x1000 < 0x2C then some 10 else none)
  else if 0x310000 ≤ off ∧ off < 0x316000 then some 11
  else if 0x400000 ≤ off ∧ off < 0x405800 then some 12
  else if 0x500000 ≤ off ∧ off < 0x509000 then (if o < 0x300 ∨ 0x1000 ≤ o then some 13 else none)
  else if 0x600000 ≤ off ∧ off < 0x600050 then some 14
  else if 0x610000 ≤ off ∧ off < 0x610300 then some 15
  else if 0x700000 ≤ off ∧ off < 0x700140 then some 16
  else if 0x800000 ≤ off ∧ off < 0x80C800 then some 17
  else if 0x810000 ≤ off ∧ off < 0x820000 then some 18
  else if 0x900000 ≤ off ∧ off < 0x902000 then some 19
  else if 0xA00000 ≤ off ∧ off < 0xA00500 then some 20
  else if 0xB00000 ≤ off ∧ off < 0xB0001C then some 21
  else if 0xC00000 ≤ off ∧ off < 0xC00300 then some 22
  else if 0xD00000 ≤ off ∧ off < 0xD00340 then some 23
  else if 0x1000000 ≤ off ∧ off < 0x1C00000 then some 10
  else none

/-- The offset belongs to a unit or instance the part does not have (R3). -/
def absentAt (p : Part) (off : Nat) : Bool :=
  if 0x40 ≤ off ∧ off < 0x50 then p.sectors ≤ (off - 0x40) / 4
  else if 0x100000 ≤ off ∧ off < 0x180000 then p.heads ≤ (off - 0x100000) / 0x1000
  else if 0x300000 ≤ off ∧ off < 0x30C000 then p.groups ≤ (off - 0x300000) / 0x1000
  else if 0x310000 ≤ off ∧ off < 0x316000 then p.scalers ≤ (off - 0x310000) / 0x400
  else if 0x501000 ≤ off ∧ off < 0x509000 then p.channels ≤ (off - 0x501000) / 0x800
  else if 0x900000 ≤ off ∧ off < 0x902000 then !p.hasCodec
  else if 0xA00100 ≤ off ∧ off < 0xA00500 then p.lanes ≤ (off - 0xA00100) / 0x40
  else if 0xB00000 ≤ off ∧ off < 0xB0001C then !p.hasMirror
  else if 0x1000000 ≤ off ∧ off < 0x1C00000 then p.groups ≤ (off - 0x1000000) / 0x100000
  else false

/-- The power domain a register or memory is in (R396 and the chapters); domain 0 never switches off. Blocks for which the spec
names no domain are put under domain 80, the fabric's clock, which only Midnight takes away. DESIGN CHOICE, log entry 24. -/
def domainAt (off : Nat) : Nat :=
  if off < 0x80000 then 0
  else if off < 0x100000 then 80
  else if off < 0x180000 then 13 + (off - 0x100000) / 0x1000 / 8
  else if off < 0x300000 then 80
  else if off < 0x310000 then 1 + (off - 0x300000) / 0x1000
  else if off < 0x400000 then 1 + (off - 0x310000) / 0x400 / 2
  else if off < 0x500000 then 77
  else if off < 0x501000 then 80
  else if off < 0x600000 then 61 + (off - 0x501000) / 0x800 / 2
  else if off < 0x610000 then 69
  else if off < 0x700000 then 72
  else if off < 0x800000 then 71
  else if off < 0x900000 then 78
  else if off < 0xA00100 then 80
  else if off < 0xB00000 then 29 + (off - 0xA00100) / 0x40
  else if off < 0xC00000 then 80
  else if off < 0xD00000 then 83
  else if off < 0x1000000 then 80
  else 1 + (off - 0x1000000) / 0x100000

/-- The agent is a function of the host: the PF or a VF (R448). -/
def isHost (agent : Nat) : Bool := 4 ≤ agent && agent < 12

/-- A read that the host may make in Dawn whatever the map says: BOOT.STATUS and TOP.CAPS0 to CAPS3 (R441). -/
def State.dawnRead (s : State) (agent : Nat) (write : Bool) (off : Nat) : Bool :=
  isHost agent && !write && s.get F.bootStatusState != 2 && (off == Reg.bootStatus || (0x10 ≤ off && off < 0x20))

/-- The protection map lets the agent make the register access (R449). -/
def State.mayAccess (s : State) (agent : Nat) (write : Bool) (off : Nat) : Bool :=
  if s.dawnRead agent write off then true
  else match blockOf off with
  | none => true
  | some b =>
    let blk := if write then s.get (F.protAgBlkwrBlocks agent) else s.get (F.protAgBlkrdBlocks agent)
    let headOk := if 0x100000 ≤ off ∧ off < 0x180000 then
        let h := (off - 0x100000) / 0x1000
        bit (s.rd (Reg.protAgHeads agent (h / 32))).toNat (h % 32) else true
    let layerOk := if 0x200000 ≤ off ∧ off < 0x241000 then
        let l := if off < 0x240000 then (off - 0x200000) / 0x100 else (off - 0x240000) / 4
        bit (s.rd (Reg.protAgLayers agent (l / 32))).toNat (l % 32) else true
    if b = 2 then (s.privileged agent || (!write && bit blk b))
    else bit blk b && headOk && layerOk

/-- What the checks of R462 find for one access. -/
inductive Access where
  | ok
  /-- The device is held in reset, or the host's configuration requests are not answered yet (R440, R441). -/
  | unreached
  | prot
  | absent
  | unassigned
  | partialWrite
  | off
  deriving DecidableEq, Repr

/-- Registers that Midnight and wake leave reachable (R404). -/
def midnightReach (off : Nat) : Bool :=
  off < 0x10000 || (0x40000 ≤ off && off < 0x80000) || off == Reg.icuDoorbell

/-- The checks of R462 that follow the protection map's. -/
def State.accessPast (s : State) (write : Bool) (off be : Nat) : Access :=
  if absentAt s.part off then .absent
  else if (blockOf off).isNone then .unassigned
  else if write && be % 16 != 15 then .partialWrite
  else if (if s.get F.pwrStatusState ≥ 3 then !midnightReach off else !s.domOn (domainAt off)) then .off
  else .ok

/-- The first check of R462 that applies. The host reaches the register space once its configuration requests are answered (R441).
DEDUCED, log entry 183. -/
def State.access (s : State) (agent : Nat) (write : Bool) (off be : Nat) : Access :=
  if s.held || (isHost agent && !s.boot.cfgReady) then .unreached
  else if !s.mayAccess agent write off then .prot
  else s.accessPast write off be

/-- What a refused or unserved access leaves behind (R3, R400, R449, R461). -/
def State.deny (s : State) (a : Access) (agent : Nat) (write : Bool) (off : Nat) : State :=
  match a with
  | .ok => s
  | .unreached => if s.held then s else s.emit (.unsupported off)
  | .prot => s.violation agent write 0 off
  | .absent => (s.put F.topAbsentAddrOffset off).signal 950
  | .unassigned => ((s.bump F.topBadaccCount).put F.topBadaccKind 1).put F.topBadaddrOffset off
  | .partialWrite => ((s.bump F.topBadaccCount).put F.topBadaccKind 2).put F.topBadaddrOffset off
  | .off => ((s.bump F.pwrOffaccCount).put F.pwrOffaccDomain (domainAt off)).raise F.pwrEventPowerOffAccess 938

/-! ### The redundant pair's view of a write (R424, R425) -/

/-- The device is a paired standby. -/
def State.standby (s : State) : Bool := s.part.hasMirror && s.flag F.mirCtlEn && s.get F.mirCtlRole == 1

/-- A device of a pair. -/
def State.paired (s : State) : Bool := s.part.hasMirror && s.flag F.mirCtlEn

/-- The device is a primary, and EN is 1 on its peer too (R424). DEDUCED, log entry 107. -/
def State.pairedPrimary (s : State) : Bool := s.paired && s.get F.mirCtlRole == 0 && s.mir.peerOn

/-- Offsets of a layer entry that hold a staged register (R138). -/
def layerStaged (o : Nat) : Bool := (o < 0x64 && o != 0x3C) || (0x80 ≤ o && o < 0xA8)

/-- Registers whose writes a primary forwards: RWS registers of HEAD, LAYER, TICK and FLT.WB, and CMASK (R424). -/
def mirrored (off : Nat) : Bool :=
  (0x100000 ≤ off && off < 0x180000 && off % 0x1000 < 0x20) ||
  (0x200000 ≤ off && off < 0x240000 && layerStaged (off % 0x100)) ||
  off == Reg.tickTrate || off == Reg.tickPhcfg || (0x40040 ≤ off && off < 0x40060) ||
  (0x40210 ≤ off && off < 0x40220) ||
  (0xC00100 ≤ off && off < 0xC00300 && off % 0x20 < 0x14)

/-- Registers that a paired standby's own agents cannot write (R425). -/
def standbyBlocks (off : Nat) : Bool :=
  mirrored off || off == Reg.tickCommit || off == Reg.tickTctl || (0x240000 ≤ off && off < 0x241000)

/-- A local write that a paired standby ignores (R425). -/
def State.localWrite (s : State) : State :=
  (s.bump F.mirCountLocalwr).raise F.mirEventMirLocalwr 932

/-- A full-word write by an agent to a register with a row of its own: the checks of R462 and R425, then the effect. -/
def State.guardWrite (s : State) (agent off : Nat) (eff : State → State) (blocked : State → State := id) : State :=
  let a := s.access agent true off 15
  if a ≠ .ok then s.deny a agent true off
  else if s.standby && standbyBlocks off then blocked s.localWrite
  else eff s

/-- A memory access by an agent lies in one enabled window of its space that grants the right (R450). -/
def State.windowGrants (s : State) (agent : Nat) (write : Bool) (space a n : Nat) : Bool :=
  (List.range 16).any fun w =>
    s.flag (F.protWinCfgEn w) && s.get (F.protWinCfgSpace w) == space &&
    bit (if write then s.get (F.protWinCfgWrmask w) else s.get (F.protWinCfgRdmask w)) agent &&
    (let b := s.rd64 (Reg.protWinBaseLo w) / 65536 * 65536
     b ≤ a && a + n ≤ b + 65536 * s.get (F.protWinSizeUnits w))

/-! ## Memories -/

/-- Bytes of local DRAM installed (R241). -/
def State.capacity (s : State) : Nat := s.part.channels * 2 ^ (29 + s.get F.dmcMapDensity)

/-- Bytes of one sector region (R16). -/
def State.regionSize (s : State) : Nat := s.capacity / s.part.sectors

/-- The sector region that holds a local byte address. -/
def State.regionOf (s : State) (a : Nat) : Nat := a / s.regionSize

/-- Bytes of the flatten region in each sector's part (R127). -/
def State.flattenPart (s : State) : Nat := s.get F.fltSizeRegion * 1048576 / s.part.sectors

/-- [a, a + n) meets the flatten region, which sits at the top of each sector region (R127). -/
def State.meetsFlatten (s : State) (a n : Nat) : Bool :=
  (List.range s.part.sectors).any fun r =>
    let top := (r + 1) * s.regionSize
    n != 0 && a < top && top - s.flattenPart < a + n

/-- [a, a + n) meets the data or check part of a CONTROL window (R262). -/
def State.meetsControl (s : State) (a n : Nat) : Bool :=
  (List.range 8).any fun i =>
    let b := s.get (F.dmcCregBaseMib i) * 1048576
    let len := s.get (F.dmcCregSizeSize8 i) * 8 * 1048576
    s.flag (F.dmcCregBaseEn i) && n != 0 && a < b + len && b < a + n

/-- DESIGN CHOICE, log entries 77, 78. -/
def dramDefault (_ : Nat) : Byte := 0

/-- Bytes of local DRAM. -/
def State.dramRead (s : State) (a n : Nat) : List Nat :=
  (Mem.readBytes dramDefault s.dram a n).map BitVec.toNat

/-- Local DRAM with bytes written. -/
def State.dramWrite (s : State) (a : Nat) (bs : List Nat) : State :=
  { s with dram := Mem.writeBytes dramDefault s.dram a (bs.map (BitVec.ofNat 8)) }

def hostDefault (_ : Nat) : Option Byte := none

/-- A byte of host memory as the device sees it: the last one it read or wrote, else free. DESIGN CHOICE, log entry 75. -/
def State.hostByte (s : State) (a : Nat) : Nat :=
  match Tbl.get hostDefault s.host a with
  | some b => b.toNat
  | none => (Config.hostByte a).toNat

/-- Bytes of host memory as the device sees them. -/
def State.hostRead (s : State) (a n : Nat) : List Nat := (List.range n).map fun i => s.hostByte (a + i)

/-- Bytes seen at consecutive host addresses. -/
def hostStore (m : Tbl (Option Byte)) (a : Nat) : List Nat → Tbl (Option Byte)
  | [] => m
  | b :: bs => hostStore (Tbl.set hostDefault m a (some (BitVec.ofNat 8 b))) (a + 1) bs

/-- The device's view of host memory with bytes in it. DESIGN CHOICE, log entry 76. -/
def State.hostSee (s : State) (a : Nat) (bs : List Nat) : State := { s with host := hostStore s.host a bs }

/-! ## Fences (R116) -/

def State.fenceOf (s : State) (n : Nat) : Fence := Tbl.get (fun _ => Fence.init) s.fences n

/-- A fence signal of value `v` stamped `stamp`. -/
def State.signalFence (s : State) (n v stamp : Nat) : State :=
  let f := s.fenceOf n
  let f' : Fence := if f.stamp = stamp then f else ⟨s.get (F.layerFenceValue n), stamp⟩
  { (s.put (F.layerFenceValue n) v) with fences := Tbl.set (fun _ => Fence.init) s.fences n f' }

/-- The value set by the newest signal stamped strictly before `t`. DEDUCED, log entry 57. -/
def State.fenceAt (s : State) (n t : Nat) : Nat :=
  let f := s.fenceOf n
  if f.stamp < t then s.get (F.layerFenceValue n) else f.before

/-- The fence test at instant `t` (R116). -/
def State.fenceTest (s : State) (n fval t : Nat) : Bool := (s.fenceAt n t + 65536 - fval) % 65536 < 0x8000

/-! ## Management cores: exceptions (R198) -/

def State.mgmtOf (s : State) (k : Nat) : MgmtSt := Tbl.get (fun _ => MgmtSt.init) s.mgmt k

def State.setMgmt (s : State) (k : Nat) (m : MgmtSt) : State :=
  { s with mgmt := Tbl.set (fun _ => MgmtSt.init) s.mgmt k m }

/-- Taking an exception (R198): the address in EPC, IE to PIE, IE clear, CAUSE, and execution continues at TVEC. -/
def MgmtSt.trap (m : MgmtSt) (cause epc : Nat) : MgmtSt :=
  { m with epc := epc, pie := m.ie, ie := false, cause := cause, pc := m.tvec, wait := .none }

/-- Taking an exception with a faulting address (causes 2 to 4). -/
def MgmtSt.trapAt (m : MgmtSt) (cause epc addr : Nat) : MgmtSt := { m.trap cause epc with badaddr := addr }

/-- Returning from an exception (R196, ERET): pc from EPC, IE from PIE. -/
def MgmtSt.eret (m : MgmtSt) : MgmtSt := { m with pc := m.epc, ie := m.pie }

/-! ## Tables of per-instance state -/

def State.headOf (s : State) (h : Nat) : HeadSt := Tbl.get (fun _ => HeadSt.init) s.heads h

def State.setHead (s : State) (h : Nat) (x : HeadSt) : State :=
  { s with heads := Tbl.set (fun _ => HeadSt.init) s.heads h x }

def State.layerRt (s : State) (i : Nat) : LayerRt := Tbl.get (fun _ => LayerRt.init) s.layers i

def State.setLayerRt (s : State) (i : Nat) (x : LayerRt) : State :=
  { s with layers := Tbl.set (fun _ => LayerRt.init) s.layers i x }

def State.groupOf (s : State) (g : Nat) : GroupSt := Tbl.get (fun _ => GroupSt.init) s.groups g

/-- GRP.STATUS of a group: BUSY while a core runs a band (R199). -/
def GroupSt.status (x : GroupSt) : Word :=
  let reb := x.rebuild.isSome && x.running.isNone
  BitVec.ofNat 32 (x.queue.length % 128 + 128 * ofBool (x.cores.any fun e => e.2.on) + 256 * ofBool reb)

/-- A group's new state; GRP.STATUS follows. -/
def State.setGroup (s : State) (g : Nat) (x : GroupSt) : State :=
  { s.wr (Reg.grpStatus g) x.status with groups := Tbl.set (fun _ => GroupSt.init) s.groups g x }

def GroupSt.coreOf (g : GroupSt) (k : Nat) : CoreSt := Tbl.get (fun _ => CoreSt.init) g.cores k

def GroupSt.setCore (g : GroupSt) (k : Nat) (c : CoreSt) : GroupSt :=
  { g with cores := Tbl.set (fun _ => CoreSt.init) g.cores k c }

def State.wbOf (s : State) (n : Nat) : WbSt := Tbl.get (fun _ => WbSt.init) s.wb n

def State.setWb (s : State) (n : Nat) (x : WbSt) : State := { s with wb := Tbl.set (fun _ => WbSt.init) s.wb n x }

def State.poseSrc (s : State) (i : Nat) : PoseSrc := Tbl.get (fun _ => PoseSrc.init) s.pose.srcs i

def State.setPoseSrc (s : State) (i : Nat) (x : PoseSrc) : State :=
  { s with pose := { s.pose with srcs := Tbl.set (fun _ => PoseSrc.init) s.pose.srcs i x } }

end Sys2Proof.Machine
end

