-- ==== Sys2Proof/Machine/Inject.lean ====
section
/-! DEFINITION. The fault injector (R453 to R455): draws, counts and limits; and the messages a device of a pair sends (R422, R424),
which it can meet. -/

namespace Sys2Proof.Machine

/-- The generator after one unit's 32 shifts (R454). DEDUCED, log entry 132. -/
def finjDraw (x : Nat) : Nat := (List.range 32).foldl (fun x _ => if x % 2 = 1 then (x / 2) ^^^ 0x80200003 else x / 2) x

/-- Link k injects (R453). -/
def State.injecting (s : State) (k : Nat) : Bool :=
  s.flag F.finjCtlEn && s.flag (F.finjLinkCfgEn k) &&
    (s.get (F.finjLinkCountLimit k) == 0 || s.get (F.finjLinkCountCount k) < s.get (F.finjLinkCountLimit k))

/-- Kind of link k: 0 Wall Link, 1 Ethernet, 2 mirror, 3 pose. -/
def finjKind (k : Nat) : Nat := if k < 16 then 0 else if k < 24 then 1 else if k < 28 then 2 else 3

/-- One unit of link k: the action injected and its draw's upper half, or none (R454, R455). DEDUCED, log entry 132. -/
def State.inject (s : State) (k : Nat) : State × Option (Nat × Nat) :=
  if !s.injecting k then (s, none)
  else
    let v := finjDraw (Tbl.get (fun _ => 0) s.finj.gen k)
    let s := { s with finj := { s.finj with gen := Tbl.set (fun _ => 0) s.finj.gen k v } }
    let rate := s.get (F.finjLinkCfgRate k)
    if rate = 0xFFFF ∨ v % 65536 < rate then
      let s := s.bumpSat (F.finjLinkCountCount k)
      let lim := s.get (F.finjLinkCountLimit k)
      let s := if lim ≠ 0 ∧ s.get (F.finjLinkCountCount k) = lim then
          ((s.put F.finjEventLink k).put ⟨Reg.finjEvent, finjKind k, 1⟩ 1).signal (957 + finjKind k)
        else s
      (s, some (s.get (F.finjLinkCfgAction k), v / 65536))
    else (s, none)

/-! ## Mirror messages (R422, R424, R455) -/

/-- Lanes that can carry messages: enabled, and with a locked receiver (R422). -/
def State.mirrorLanes (s : State) : List Nat :=
  (List.range 4).filter fun n => bit (s.get F.mirCfgLanes) n && bit (s.get F.mirStatLock) n

/-- One message meets the injector on the lane that carries it; the spec leaves the lane open, and it is a free value.
DESIGN CHOICE, log entry 105. -/
def State.mirrorInject (s : State) (dir : Nat) : State × Option (Nat × Nat × Nat) :=
  let ls := s.mirrorLanes
  if ls.any fun n => s.injecting (24 + n) && s.get (F.finjLinkCfgDir (24 + n)) == dir then
    let n := ls.getD (Config.freeNat s.fresh % ls.length) 0
    let s := s.tick
    if s.get (F.finjLinkCfgDir (24 + n)) = dir then
      let r := s.inject (24 + n)
      (r.1, r.2.map fun a => (24 + n, a))
    else (s, none)
  else (s, none)

/-- Bytes of each value of a message, by its kind: 0 write, 1 commit word, 2 structure commit, 3 commit result, 4 structure result, 5 fence
signal, 6 pose record, 7 time, 8 flatten start, 9 flatten completion, 10 heartbeat, 11 swap request. A value of no bytes is the control
word's target address. The spec lays no payload out. DESIGN CHOICE, log entry 105. -/
def mirrorWidths : Nat → List Nat
  | 0 => [1, 0, 4]
  | 1 => [1, 4, 8]
  | 2 => [1, 4, 8]
  | 3 => [1, 2, 1, 4]
  | 4 => [1, 1]
  | 5 => [0, 2, 8]
  | 6 => 0 :: List.replicate 64 1 ++ [8]
  | 8 => [1]
  | 9 => [1]
  | 10 => [8, 4]
  | _ => [8]

/-- The payload of a message. -/
def mirrorBytes (kind : Nat) (vals : List Nat) : List Nat := (vals.zip (mirrorWidths kind)).flatMap fun e => bytesLE e.2 e.1

/-- Its target address. -/
def mirrorTarget (kind : Nat) (vals : List Nat) : Nat :=
  match (vals.zip (mirrorWidths kind)).find? fun e => e.2 == 0 with
  | some e => e.1
  | none => 0

/-- Its control word: type, sequence number, payload length, target address, and the CRC-16 over these (R422). The spec gives the first 14
bytes no places. DESIGN CHOICE, log entry 105. -/
def mirrorControl (kind q n target : Nat) : List Nat :=
  let w := [kind, 0] ++ bytesLE 4 q ++ bytesLE 2 n ++ bytesLE 6 target
  w ++ bytesLE 2 (crc16 w)

/-- The values of widths `ws` read from a payload; one of no bytes keeps its old value. -/
def mirrorValues : List Nat → List Nat → List Nat → List Nat
  | w :: ws, v :: vs, bs => (if w = 0 then v else ofBytesLE (bs.take w)) :: mirrorValues ws vs (bs.drop w)
  | _, _, _ => []

/-- Bit `n`, taken modulo their number, of some bytes is flipped (R454). -/
def flipAny (bs : List Nat) (n : Nat) : List Nat := if bs.isEmpty then bs else flipBit bs (n % (8 * bs.length))

/-- A message held by a reorder follows the one sent after it. -/
def State.releaseMirror (s : State) : State :=
  let s' := s.finj.heldMsg.foldl (fun s m => s.emit m.2) s
  { s' with finj := { s'.finj with heldMsg := [] } }

/-- A message of the pair; the values by its kind. With no lane to carry it, it is lost and its number is a gap. DESIGN CHOICE, log entry
105; DEDUCED, log entry 106. -/
def State.mirrorSend (s : State) (kind : Nat) (vals : List Nat) : State :=
  let q := s.mir.outSeq
  let s := { s with mir := { s.mir with outSeq := (q + 1) % 2 ^ 32 } }
  let payload := mirrorBytes kind vals
  let control := mirrorControl kind q payload.length (mirrorTarget kind vals)
  if s.mirrorLanes.isEmpty then s
  else
    let r := s.mirrorInject 1
    let s := r.1
    match r.2 with
    | none => (s.emit (.mirror control payload)).releaseMirror
    | some (k, a, v) => match a with
      | 0 => s
      | 1 => (s.emit (.mirror control (flipAny payload v))).releaseMirror
      | 2 => (s.emit (.mirror (flipAny control v) payload)).releaseMirror
      | _ =>
        let s := s.releaseMirror
        { s with finj := { s.finj with heldMsg := [(k, .mirror control payload)] } }

/-- An item that a paired primary forwards (R424). -/
def State.forward (s : State) (kind : Nat) (vals : List Nat) : State := if s.pairedPrimary then s.mirrorSend kind vals else s

/-- The result of a commit word or structure commit: a swap meanwhile does not keep it from the peer (R433). -/
def State.forwardResult (s : State) (kind : Nat) (vals : List Nat) : State :=
  if s.pairedPrimary || (s.paired && s.mir.owes) then
    let s := s.mirrorSend kind vals
    { s with mir := { s.mir with owes := false } }
  else s

/-- A heartbeat (R431): at a band latch of the reference head, or `idle`. -/
def State.heartbeat (s : State) (idle : Bool) (tick band : Nat) : State :=
  if s.paired then
    let s := s.mirrorSend 10 [tick, band]
    { s with mir := { s.mir with hbSent := s.now, hbKey := (tick, band), hbDone := idle } }
  else s

end Sys2Proof.Machine
end

