-- ==== Sys2Proof/Machine/Operands.lean ====
section
/-! DEFINITION. Reading the configuration sets: the fields of a head's, a layer's and a writeback port's words, the staging
sets in the register space, a head's raster (R68 to R73) and a layer's rectangle (R107, R108). -/

namespace Sys2Proof.Machine

/-- Bits [lo + w - 1 : lo] of a word. -/
def wf (x : Word) (lo w : Nat) : Nat := field x.toNat lo w

/-! ## Fields of a head's set (HEAD registers) -/

namespace HeadCfg

def en (c : HeadCfg) : Bool := wf c.ctl 0 1 == 1
def groupSel (c : HeadCfg) : Nat := wf c.ctl 1 2
def clone (c : HeadCfg) : Bool := wf c.ctl 3 1 == 1
def twiK (c : HeadCfg) : Nat := wf c.ctl 5 3
def phmask (c : HeadCfg) : Nat := wf c.ctl 8 8
def cloneSrc (c : HeadCfg) : Nat := wf c.ctl 16 7
def twiIdle (c : HeadCfg) : Nat := wf c.ctl 24 8
def htotal (c : HeadCfg) : Nat := wf c.htiming 0 14
def hact (c : HeadCfg) : Nat := wf c.htiming 16 14
def vtotal (c : HeadCfg) : Nat := wf c.vtiming 0 14
def vact (c : HeadCfg) : Nat := wf c.vtiming 16 14
def vstart (c : HeadCfg) : Nat := wf c.band 0 14
def bsize (c : HeadCfg) : Nat := wf c.band 16 2
/-- Lines per band N (R71). -/
def bandLines (c : HeadCfg) : Nat := 8 * 2 ^ c.bsize
/-- Latch lead L in band-times (R72). -/
def lead (c : HeadCfg) : Nat := wf c.band 20 2 + 1
def depth (c : HeadCfg) : Nat := wf c.band 24 5
/-- Divider; 0 means 256. -/
def div (c : HeadCfg) : Nat := if wf c.link 0 8 = 0 then 256 else wf c.link 0 8
def synth (c : HeadCfg) : Nat := wf c.link 8 1
def enc (c : HeadCfg) : Nat := wf c.link 10 2
def lane (c : HeadCfg) : Nat := wf c.link 12 2
def slots (c : HeadCfg) : Nat := wf c.link 16 8
def table (c : HeadCfg) : Nat := wf c.prog 0 18
def calTable (c : HeadCfg) : Nat := wf c.cal 0 8
def bypMat (c : HeadCfg) : Bool := wf c.cal 8 1 == 1
def bypLut (c : HeadCfg) : Bool := wf c.cal 9 1 == 1
def fillR (c : HeadCfg) : Nat := wf c.fill 0 10
def fillG (c : HeadCfg) : Nat := wf c.fill 10 10
def fillB (c : HeadCfg) : Nat := wf c.fill 20 10
/-- Output code width in bits. -/
def bits (c : HeadCfg) : Nat := match c.enc with
  | 0 => 10
  | 1 => 12
  | _ => 16
/-- Bytes per encoded pixel (R74). -/
def pxBytes (c : HeadCfg) : Nat := if c.enc = 0 then 4 else 6
/-- Bytes of a line padded to 64 (R74). -/
def lineBytes (c : HeadCfg) : Nat := ceilDiv (c.hact * c.pxBytes) 64 * 64
/-- Bands NB (R71). -/
def nb (c : HeadCfg) : Nat := ceilDiv c.vact c.bandLines
/-- Vector columns V and columns per core c (R12). -/
def vcols (c : HeadCfg) : Nat := ceilDiv c.hact 16
def spanCols (c : HeadCfg) : Nat := ceilDiv c.vcols 8
/-- Vector columns of core k's span (R12, SPANV of R175). -/
def spanV (c : HeadCfg) (k : Nat) : Nat := min ((k + 1) * c.spanCols) c.vcols - k * c.spanCols
/-- First pixel column of core k's span. -/
def spanX (c : HeadCfg) (k : Nat) : Nat := 16 * k * c.spanCols
/-- Pixels of core k's span. -/
def spanPx (c : HeadCfg) (k : Nat) : Nat := min (16 * (k + 1) * c.spanCols) c.hact - c.spanX k
/-- Active lines of band j (R71). -/
def linesOf (c : HeadCfg) (j : Nat) : Nat := min c.bandLines (c.vact - j * c.bandLines)
/-- The head sends in phase i. -/
def sends (c : HeadCfg) (phases i : Nat) : Bool := c.en && i < phases && bit c.phmask i
/-- The pixel that safe fill and missing lines carry (R98), packed as the band store holds pixels. -/
def fillPx (c : HeadCfg) : Nat :=
  let x (v : Nat) := match c.enc with
    | 0 => v
    | 1 => v * 4 + v / 256
    | _ => v * 64 + v / 16
  x c.fillR + 2 ^ 16 * x c.fillG + 2 ^ 32 * x c.fillB
/-- R70's limits on timing fields that R73 asks of a committed set. -/
def timingOk (c : HeadCfg) : Bool :=
  c.bsize != 3 && 0 < c.htotal && 1 ≤ c.vact && c.vact ≤ 8192 && c.vstart + c.vact ≤ c.vtotal && c.vtotal ≤ 16383

end HeadCfg

/-! ## Fields of a layer entry -/

namespace LayerCfg

def en (c : LayerCfg) : Bool := wf c.ctl 0 1 == 1
def video (c : LayerCfg) : Bool := wf c.ctl 1 1 == 1
def static (c : LayerCfg) : Bool := wf c.ctl 2 1 == 1
def shed (c : LayerCfg) : Bool := wf c.ctl 3 1 == 1
def shedpri (c : LayerCfg) : Nat := wf c.ctl 4 3
def phmask (c : LayerCfg) : Nat := wf c.ctl 8 8
def owner (c : LayerCfg) : Nat := wf c.ctl 16 7
def policy (c : LayerCfg) : Nat := wf c.ctl 24 2
def waitn (c : LayerCfg) : Nat := wf c.ctl 26 4
def srcType (c : LayerCfg) : Nat := wf c.src 0 2
def idx (c : LayerCfg) : Nat := wf c.src 8 8
def format (c : LayerCfg) : Nat := wf c.src 16 5
def pal (c : LayerCfg) : Nat := wf c.src 24 4
def addr (c : LayerCfg) : Nat := c.addrLo.toNat + 2 ^ 32 * c.addrHi.toNat
def pitchB (c : LayerCfg) : Nat := wf c.pitch 0 20
def sx (c : LayerCfg) : Nat := wf c.srcorg 0 14
def sy (c : LayerCfg) : Nat := wf c.srcorg 16 14
def sw (c : LayerCfg) : Nat := wf c.srcsize 0 14
def sh (c : LayerCfg) : Nat := wf c.srcsize 16 14
def dstX (c : LayerCfg) : Int := signed 16 (wf c.dstpos 0 16)
def dstY (c : LayerCfg) : Int := signed 16 (wf c.dstpos 16 16)
def dw (c : LayerCfg) : Nat := wf c.dstsize 0 14
def dh (c : LayerCfg) : Nat := wf c.dstsize 16 14
def z (c : LayerCfg) : Nat := wf c.zblend 0 10
def encoded (c : LayerCfg) : Bool := wf c.zblend 10 1 == 1
def mode (c : LayerCfg) : Nat := wf c.zblend 11 3
def asrc (c : LayerCfg) : Nat := wf c.zblend 14 2
def const (c : LayerCfg) : Nat := wf c.zblend 16 16
def fidx (c : LayerCfg) : Nat := wf c.rdy 0 10
def fen (c : LayerCfg) : Bool := wf c.rdy 10 1 == 1
def fval (c : LayerCfg) : Nat := wf c.rdy 16 16
def bound (c : LayerCfg) : Bool := wf c.pbind 0 1 == 1
def posMode (c : LayerCfg) : Bool := wf c.pbind 1 1 == 1
def poseSrc (c : LayerCfg) : Nat := wf c.pbind 8 7
def stale (c : LayerCfg) : Nat := wf c.pbind 16 16
def warpBound (c : LayerCfg) : Bool := c.bound && !c.posMode
def posBound (c : LayerCfg) : Bool := c.bound && c.posMode
def skew (c : LayerCfg) : Nat := wf c.warp 0 6
def raden (c : LayerCfg) : Bool := wf c.warp 6 1 == 1
def hmarg (c : LayerCfg) : Nat := wf c.warp 8 8
def radk (c : LayerCfg) : Nat := wf c.warp 16 16
def eotf (c : LayerCfg) : Nat := wf c.color 0 3
def narrow (c : LayerCfg) : Bool := wf c.color 3 1 == 1
def matEn (c : LayerCfg) : Bool := wf c.color 4 1 == 1
def tone (c : LayerCfg) : Nat := wf c.color 5 2
def elut (c : LayerCfg) : Nat := wf c.color 8 4
def tlut (c : LayerCfg) : Nat := wf c.color 12 8
/-- Width and height of the destination: SRCSIZE for a graphic layer, DSTSIZE for a video layer (R107, R108). -/
def dstW (c : LayerCfg) : Nat := if c.video then c.dw else c.sw
def dstH (c : LayerCfg) : Nat := if c.video then c.dh else c.sh
/-- DEFXF as binary32 codes. -/
def defM (c : LayerCfg) : List Nat := c.defxf.map BitVec.toNat
/-- The fields whose change starts a new set for R117. -/
def sourceKey (c : LayerCfg) : List Nat :=
  [c.srcType, c.addr, c.pitchB, c.sx, c.sy, c.sw, c.sh, c.format, c.fidx, c.fval]
/-- The layer with the source fields of another set (R118, REPEAT). -/
def withSource (c o : LayerCfg) : LayerCfg :=
  { c with
    src := BitVec.ofNat 32 (putField (putField c.src.toNat 0 2 o.srcType) 16 5 o.format)
    addrLo := o.addrLo, addrHi := o.addrHi, pitch := o.pitch, srcorg := o.srcorg, srcsize := o.srcsize }

end LayerCfg

namespace WbCfg

def en (c : WbCfg) : Bool := wf c.ctl 0 1 == 1
def head (c : WbCfg) : Nat := wf c.ctl 1 7
def phase (c : WbCfg) : Nat := wf c.ctl 8 3
def allph (c : WbCfg) : Bool := wf c.ctl 11 1 == 1
def nbuf (c : WbCfg) : Nat := wf c.ctl 12 4
def dest (c : WbCfg) : Nat := wf c.ctl 16 1
def addr (c : WbCfg) : Nat := c.addrLo.toNat + 2 ^ 32 * c.addrHi.toNat
def pitchB (c : WbCfg) : Nat := wf c.pitch 0 20
/-- The port captures phase p. -/
def takes (c : WbCfg) (p : Nat) : Bool := c.en && (c.allph || c.phase == p)

end WbCfg

/-! ## Staging sets (R77) -/

/-- The staging set of head h's own registers. -/
def State.stagedHead (s : State) (h : Nat) : HeadCfg where
  ctl := s.rd (Reg.headCtl h)
  htiming := s.rd (Reg.headHtiming h)
  vtiming := s.rd (Reg.headVtiming h)
  band := s.rd (Reg.headBand h)
  link := s.rd (Reg.headLink h)
  prog := s.rd (Reg.headProg h)
  cal := s.rd (Reg.headCal h)
  fill := s.rd (Reg.headFill h)

/-- The staged layer entry i. -/
def State.stagedLayer (s : State) (i : Nat) : LayerCfg where
  ctl := s.rd (Reg.layerCtl i)
  src := s.rd (Reg.layerSrc i)
  addrLo := s.rd (Reg.layerAddrLo i)
  addrHi := s.rd (Reg.layerAddrHi i)
  pitch := s.rd (Reg.layerPitch i)
  srcorg := s.rd (Reg.layerSrcorg i)
  srcsize := s.rd (Reg.layerSrcsize i)
  dstpos := s.rd (Reg.layerDstpos i)
  dstsize := s.rd (Reg.layerDstsize i)
  zblend := s.rd (Reg.layerZblend i)
  rdy := s.rd (Reg.layerRdy i)
  fillrg := s.rd (Reg.layerFillrg i)
  fillba := s.rd (Reg.layerFillba i)
  pbind := s.rd (Reg.layerPbind i)
  warp := s.rd (Reg.layerWarp i)
  color := s.rd (Reg.layerColor i)
  defxf := s.rdList (Reg.layerDefxf i 0) 9
  gamut := s.rdList (Reg.layerGamut i 0) 9

/-- The staged writeback port n. -/
def State.stagedWb (s : State) (n : Nat) : WbCfg :=
  ⟨s.rd (Reg.fltWbCtl n), s.rd (Reg.fltWbAddrLo n), s.rd (Reg.fltWbAddrHi n), s.rd (Reg.fltWbPitch n),
   s.rd (Reg.fltWbStride n)⟩

/-- The staged tick structure (R49). -/
def State.stagedTick (s : State) : TickStruct :=
  ⟨s.get F.tickTrateRate, s.get F.tickPhcfgPhases, (List.range 8).map fun i => (s.rd (Reg.tickPhofs i)).toNat⟩

/-- Layer entries that some register write has touched, ascending: every other entry is at its reset value. -/
def State.touchedLayers (s : State) : List Nat :=
  (s.regs.foldl (fun (a : List Nat) e =>
    if 0x200000 ≤ e.1 ∧ e.1 < 0x240000 then
      let i := (e.1 - 0x200000) / 0x100
      if a.head? = some i then a else i :: a
    else a) []).reverse

/-- The active layer entry i on its owner: the head that lists it, else the reset entry on head 0 (R77). -/
def State.activeLayer (s : State) (i : Nat) : LayerCfg :=
  match s.heads.findSome? fun e => e.2.layers.lookup i with
  | some c => c
  | none => LayerCfg.init

/-- The head that owns layer i in the active sets (R77). -/
def State.activeOwner (s : State) (i : Nat) : Nat := (s.activeLayer i).owner

/-! ## Raster (R57, R69 to R73) -/

/-- Line time as a fraction of ns: HTOTAL × DIV ÷ f, with f = 100 MHz × (INT + FRAC ÷ 2^24); the discipline correction cancels
against DEVTIME's own (R36). -/
def State.lineTime (s : State) (c : HeadCfg) : Q :=
  ⟨(c.htotal * c.div * 10 * 2 ^ 24 : Nat),
   s.get (F.clkHtbCfgInt c.synth) * 2 ^ 24 + s.get (F.clkHtbFracFrac c.synth)⟩

/-- The instant `n` line times after P, rounded down (R69). -/
def lineAt (lt : Q) (p n : Int) : Int := p + (n * lt.num) / (lt.den : Int)

/-- deadline(j) of a sub-frame that starts at P (R72). -/
def State.deadlineAt (s : State) (c : HeadCfg) (p : Int) (j : Nat) : Int :=
  lineAt (s.lineTime c) p ((c.vstart + j * c.bandLines : Nat) : Int)

/-- latch(j) of a sub-frame that starts at P (R72). -/
def State.latchAt (s : State) (c : HeadCfg) (p : Int) (j : Nat) : Int :=
  lineAt (s.lineTime c) p (((c.vstart + j * c.bandLines : Nat) : Int) - ((c.lead * c.bandLines : Nat) : Int))

/-- The structure under which a tick no later than the current one began. -/
def State.structAt (s : State) (t : Nat) : TickStruct :=
  if t < s.time.ticknum.toNat then ((s.time.recent.find? fun r => r.idx == t).map (·.ts)).getD s.time.ts else s.time.ts

/-- The structure in force for tick t: an accepted armed one from its target on (R50, R53). -/
def State.structFor (s : State) (t : Nat) : TickStruct :=
  match s.time.armed with
  | some a => if a.valid && a.target ≤ t then a.ts else s.structAt t
  | none => s.structAt t

/-- Frame latch for tick t of a head under one set and a structure (R73). -/
def State.frameLatchUnder (s : State) (ts : TickStruct) (c : HeadCfg) (t : Nat) : Int :=
  if c.en then s.latchAt c (s.tickT t + (ts.ofs 0 : Int)) 0 else s.tickT t

/-- Frame latch for tick t of a head under one set (R73). DEDUCED, log entry 34. -/
def State.frameLatchOf (s : State) (c : HeadCfg) (t : Nat) : Int := s.frameLatchUnder (s.structFor t) c t

/-- The accepted commit that head h takes at its frame latch for tick t: the newest that names it with target t or earlier, when
written after the one it runs (R81). -/
def State.selects (s : State) (h t : Nat) : Option Commit :=
  s.accepted.foldl (fun a c =>
    if c.mask.contains h && c.target ≤ t && (s.headOf h).order < c.order then some c else a) none

/-- A committed set changes VSTART, band size, lead or line time (R73). -/
def State.changesTiming (s : State) (a b : HeadCfg) : Bool :=
  a.vstart != b.vstart || a.bsize != b.bsize || a.lead != b.lead ||
    decide ((s.lineTime a).num * (s.lineTime b).den ≠ (s.lineTime b).num * (s.lineTime a).den)

/-- A clone's set with its source's band word, of the sets `cs` or else the active one: VSTART and the band size are equal, and the
clone's own LEAD and DEPTH are ignored (R93). -/
def State.cloned (s : State) (cs : List (Nat × HeadCfg)) (c : HeadCfg) : HeadCfg :=
  if c.clone && c.en then { c with band := ((cs.lookup c.cloneSrc).getD (s.headOf c.cloneSrc).cfg).band } else c

/-- The head whose frame latch a head follows: a clone's is its source's (R94). -/
def State.latchHead (s : State) (h : Nat) : Nat :=
  let a := (s.headOf h).cfg
  if a.clone && a.en then a.cloneSrc else h

/-- The earliest of the frame latches under the active set and the committed sets that change timing and keep R70 (R73). -/
def State.frameLatchWith (s : State) (ts : TickStruct) (a : HeadCfg) (bs : List HeadCfg) (t : Nat) : Int :=
  bs.foldl (fun m b => if b.timingOk && s.changesTiming a b then min m (s.frameLatchUnder ts b t) else m)
    (s.frameLatchUnder ts a t)

/-- The set that head h takes at its frame latch for tick t, if any. -/
def State.comingSet (s : State) (h t : Nat) : List HeadCfg :=
  match s.selects h t with
  | none => []
  | some c => ((c.heads.lookup h).map (s.cloned c.heads)).toList

/-- The frame latch of head h for tick t under a structure (R50, R73, R94). DEDUCED, log entry 34. -/
def State.frameLatchIn (s : State) (ts : TickStruct) (h t : Nat) : Int :=
  let x := s.latchHead h
  s.frameLatchWith ts (s.headOf x).cfg (s.comingSet x t ++ (if x = h then [] else s.comingSet h t)) t

/-- The frame latch of head h for tick t (R73). DEDUCED, log entry 34. -/
def State.frameLatch (s : State) (h t : Nat) : Int := s.frameLatchIn (s.structFor t) h t

/-- Heads of the part. -/
def State.allHeads (s : State) : List Nat := List.range s.part.heads

/-- Group that serves a head: 3s + GROUP (R11). -/
def groupOfHead (h : Nat) (c : HeadCfg) : Nat := 3 * (h / 32) + c.groupSel

/-- Lane of a head: 4s + LANE (R75). -/
def laneOfHead (h : Nat) (c : HeadCfg) : Nat := 4 * (h / 32) + c.lane

/-- A head transmits: EN = 1 in its active set. -/
def State.transmitting (s : State) (h : Nat) : Bool := h < s.part.heads && (s.headOf h).cfg.en

/-- Some head transmits. -/
def State.anyTransmitting (s : State) : Bool := s.heads.any fun e => e.1 < s.part.heads && e.2.cfg.en

/-! ## Layers on a head (R104 to R108, R113) -/

/-- A rectangle: columns [x0, x1), rows [y0, y1). -/
structure Rect where
  x0 : Nat
  x1 : Nat
  y0 : Nat
  y1 : Nat
  deriving DecidableEq, Repr

/-- The destination rectangle at (dx, dy) clipped to the head's active area. -/
def clipRect (c : HeadCfg) (l : LayerCfg) (dx dy : Int) : Rect :=
  let cl (lim : Nat) (v : Int) : Nat := min lim v.toNat
  let x0 := cl c.hact dx
  let y0 := cl c.vact dy
  ⟨x0, max x0 (cl c.hact (dx + (l.dstW : Int))), y0, max y0 (cl c.vact (dy + (l.dstH : Int)))⟩

/-- The rectangle has pixels in band j. -/
def Rect.inBand (r : Rect) (c : HeadCfg) (j : Nat) : Bool :=
  r.x0 < r.x1 && max r.y0 (j * c.bandLines) < min r.y1 (j * c.bandLines + c.linesOf j)

/-- Insert by (Z, layer number) (R105). -/
def orderInsert (e : Nat × LayerCfg) : List (Nat × LayerCfg) → List (Nat × LayerCfg)
  | [] => [e]
  | x :: xs => if e.2.z < x.2.z ∨ (e.2.z = x.2.z ∧ e.1 < x.1) then e :: x :: xs else x :: orderInsert e xs

/-- The layer order of a head in a phase (R105): its shown layers by Z, then by number. -/
def layerOrder (c : HeadCfg) (ls : List (Nat × LayerCfg)) (phase : Nat) : List (Nat × LayerCfg) :=
  (ls.filter fun e => e.2.en && c.en && bit e.2.phmask phase && bit c.phmask phase).foldr orderInsert []

/-- The layer list of band j (R105): layers whose clipped rectangle meets the band, and every position-bound layer. -/
def layerList (c : HeadCfg) (order : List (Nat × LayerCfg)) (j : Nat) : List (Nat × LayerCfg) :=
  order.filter fun e => e.2.posBound || (clipRect c e.2 e.2.dstX e.2.dstY).inBand c j

/-- Bits per pixel in memory of a format; 20 for 0x0A (R113). -/
def formatBits : Nat → Nat
  | 0 => 24
  | 1 => 24
  | 2 => 32
  | 3 => 32
  | 4 => 48
  | 5 => 48
  | 6 => 48
  | 7 => 48
  | 8 => 32
  | 9 => 64
  | 10 => 20
  | 11 => 32
  | 12 => 32
  | 13 => 48
  | 14 => 64
  | 16 => 1
  | 17 => 2
  | 18 => 4
  | 19 => 8
  | _ => 0

/-- Stored width in bytes of a row of w pixels (R113). -/
def storedWidth (fmt w : Nat) : Nat := ceilDiv (w * formatBits fmt) 8

end Sys2Proof.Machine
end

