-- ==== Sys2Proof/Machine/HeadOps.lean ====
section
/-! DEFINITION. Shared operations over heads and their bands: dropping a head's work (R481), re-time (R90, R91), stopping (R92),
Dusk entry and exit (R62, R65, R66, R97), the runs of bands still to latch, and the commit events of R85. -/

namespace Sys2Proof.Machine

/-- Heads whose active set transmits, ascending. -/
def State.txHeads (s : State) : List Nat := s.allHeads.filter s.transmitting

/-- HEAD.STATUS.STATE: 0 OFF, 1 RUN, 2 RETIME, 3 TWILIGHT, 4 DUSK. -/
def State.setHeadState (s : State) (h st : Nat) : State := s.put (F.headStatusState h) st

/-- The group leaves its running real-time band: a rebuild band set aside comes back. -/
def GroupSt.leave (g : GroupSt) : GroupSt := { g with running := none, cores := g.saved, saved := [] }

/-- Head, tick, phase and band number of a band. -/
def Band.key (b : Band) : Nat × Nat × Nat × Nat := (b.head, b.tick, b.phase, b.j)

/-- One group without the bands `ks`, queued or running, and their releases (R481); those of a band abandoned at its deadline stay. -/
def GroupSt.dropBands (g : GroupSt) (ks : List (Nat × Nat × Nat × Nat)) : GroupSt :=
  let g := { g with
    queue := g.queue.filter fun e => !ks.contains (e.1, e.2.1, e.2.2.1, e.2.2.2.1)
    stageQ := g.stageQ.filter fun r => !ks.contains r.key }
  match g.running with
  | some k => if ks.contains k then g.leave else g
  | none => g

/-- Every group without some bands. -/
def State.dropBands (s : State) (bs : List Band) : State :=
  (List.range s.part.groups).foldl (fun s g => s.setGroup g ((s.groupOf g).dropBands (bs.map Band.key))) s

/-- R481: the head stops composing; its bands in flight are sent as `mode` says and its group drops them. -/
def State.dropWork (s : State) (h : Nat) (mode : BandStage) : State :=
  let x := s.headOf h
  let s := s.setHead h { x with
    bands := x.bands.map fun b => { b with stage := mode }
    runs := x.runs.map fun r => { r with mode := mode } }
  s.dropBands x.bands

/-- The head sends nothing of the ticks `p` picks, and its group drops their bands (R96). -/
def State.dropTicks (s : State) (h : Nat) (p : Nat → Bool) : State :=
  let x := s.headOf h
  let s := s.setHead h { x with
    bands := x.bands.filter fun b => !p b.tick
    runs := x.runs.filter fun r => !p r.tick }
  s.dropBands (x.bands.filter fun b => p b.tick)

/-- A rebuild band whose surface no longer wants it is dropped (R130). -/
def State.settleRebuild (s : State) (g : Nat) : State :=
  let x := s.groupOf g
  match x.rebuild with
  | none => s
  | some b =>
    if s.surfaces.any fun f => f.building && some f.addr == b.surface && f.nextBand == b.j && f.lines == b.cfg.bandLines then s
    else s.setGroup g { x with rebuild := none, cores := if x.running.isSome then x.cores else [], saved := [] }

def State.settleRebuilds (s : State) : State := (List.range s.part.groups).foldl State.settleRebuild s

/-- A Twilight that something else ends is left with its event (R96). -/
def State.endTwilight (s : State) (h : Nat) : State :=
  if s.get (F.headStatusState h) = 3 then s.raise (F.headEventTwilight h) (4 * h + 3) else s

/-- The first phase from `i` on that the head sends, under a structure of `n` phases. -/
def HeadCfg.phaseFrom (c : HeadCfg) (n i : Nat) : Option Nat :=
  (List.range n).find? fun p => i ≤ p && bit c.phmask p

/-- A re-time that starts in a tick in which a head in Twilight is quiet: the head sends the tick's bands whose deadlines are still to come
black, at their old timing (R91, R96). -/
def State.quietBlack (s : State) (h : Nat) : State :=
  let x := s.headOf h
  let t := x.latchTick - 1
  if s.get (F.headStatusState h) != 3 || x.cfg.clone || t % (x.cfg.twiK + 1) = 0 then s
  else
    let r := s.time.recent.find? fun r => r.idx == t
    let ts := ((r.or s.time.recent.head?).map (·.ts)).getD s.time.ts
    let start : Int := (r.map (·.start)).getD (s.now : Int) + (ts.ofs 0 : Int)
    match x.cfg.phaseFrom 1 0, (List.range x.cfg.nb).find? fun j => decide ((s.now : Int) ≤ s.deadlineAt x.cfg start j) with
    | some p, some j => s.setHead h { x with runs := x.runs ++ [⟨t, false, x.cfg, x.agent, [start], .black, p, j, [], []⟩] }
    | _, _ => s

/-- A head enters re-time at the instant `at0` (R90, R91). DEDUCED, log entry 32. -/
def State.startRetime (s : State) (at0 : Nat) (h : Nat) : State :=
  let s := (s.endTwilight h).dropWork h .black
  let s := s.setHead h { s.headOf h with
    retimeEnd := some (at0 + 2 * tickPeriod s.time.ts.rate), resume := false, duskPend := false }
  s.setHeadState h 2

/-- A head enters re-time under the set it has. -/
def State.retimeHead (s : State) (at0 : Nat) (h : Nat) : State := (s.quietBlack h).startRetime at0 h

/-- Every transmitting head enters re-time (R40, R52, R91). -/
def State.retimeAll (s : State) (at0 : Nat) : State := s.txHeads.foldl (fun s h => s.retimeHead at0 h) s

/-- Every transmitting head that selects synthesizer `m` enters re-time (R61, CLK.HTB). DEDUCED, log entry 38. -/
def State.retimeSynth (s : State) (at0 m : Nat) : State :=
  (s.txHeads.filter fun h => (s.headOf h).cfg.synth == m).foldl (fun s h => s.retimeHead at0 h) s

/-- R92: the head sends no further band packets. -/
def State.stopHead (s : State) (h : Nat) : State :=
  let s := (s.endTwilight h).dropWork h .black
  let s := s.setHead h { s.headOf h with
    bands := [], runs := [], retimeEnd := none, resume := false, duskPend := false, idle := 0, twiExit := false }
  s.setHeadState h 0

/-- Dusk begins for a cause of PWR.STATUS (R62, R65, R415): each head follows at its next band boundary; a head in re-time follows
when its re-time ends (R97). DEDUCED, log entry 39. -/
def State.enterDusk (s : State) (cause : Fld) : State :=
  let s := s.put cause 1
  if s.inDusk then s
  else
    let s := s.put F.pwrStatusDusk 1
    (s.txHeads.filter fun h => s.get (F.headStatusState h) != 2).foldl
      (fun s h => s.setHead h { s.headOf h with duskPend := true }) s

/-- A cause of Dusk ends; with none left Dusk ends and every transmitting head re-times (R66, R415). -/
def State.leaveDusk (s : State) (cause : Fld) : State :=
  let s := s.put cause 0
  if s.inDusk && !s.flag F.pwrStatusDuskClk && !s.flag F.pwrStatusDuskThm && !s.flag F.pwrStatusDuskFrz then
    (s.put F.pwrStatusDusk 0).retimeAll s.now
  else s

/-! ## Runs of bands still to latch (R71, R72) -/

/-- DEVTIME of line 0 of the sub-frame being latched. -/
def Run.start (r : Run) : Int := r.starts.getD r.phase 0

/-- The run after its next band has been latched; none when that was the last. -/
def Run.advance (r : Run) : Option Run :=
  if r.j + 1 < r.cfg.nb then some { r with j := r.j + 1 }
  else (r.cfg.phaseFrom r.starts.length (r.phase + 1)).map fun p => { r with phase := p, j := 0 }

/-- The run whose next band latches first; the older of two that latch together. -/
def State.nextRun (s : State) (rs : List Run) : Option Run :=
  rs.foldl (fun a r => match a with
    | none => some r
    | some q => if s.latchAt r.cfg r.start r.j < s.latchAt q.cfg q.start q.j then some r else some q) none

/-- Two runs are those of one tick period: a TPHASE change can bring a tick index twice, at two instants. -/
def Run.same (a b : Run) : Bool := a.tick == b.tick && a.again == b.again && a.starts == b.starts

/-- Runs with one of them advanced, as `r` now stands. -/
def advanceRun (rs : List Run) (r : Run) : List Run :=
  rs.filterMap fun q => if q.same r then r.advance else some q

/-- A sub-frame in each phase that the head sends, from the instant `start`, with every channel at code 0 (R91). -/
def State.blackRun (s : State) (h : Nat) (again : Bool) (start : Int) : State :=
  let x := s.headOf h
  let ts := s.time.ts
  match x.cfg.phaseFrom ts.phases 0 with
  | none => s
  | some p =>
    if x.cfg.clone then s
    else
      let starts := (List.range ts.phases).map fun i => start + (ts.ofs i : Int)
      s.setHead h { x with
        runs := x.runs ++ [⟨s.time.ticknum.toNat, again, x.cfg, x.agent, starts, .black, p, 0, [], []⟩] }

/-- Heads whose frame latch for the tick that begins at `at0` is still to come send it black (R91). -/
def State.blackTick (s : State) (at0 : Nat) : State :=
  (s.txHeads.filter fun h => decide ((s.headOf h).latchTick ≤ s.time.ticknum.toNat)).foldl
    (fun s h => s.blackRun h false at0) s

/-- Noon entry or exit that awaits a band latch takes effect (R408). DEDUCED, log entry 122. -/
def State.noonApply (s : State) : State :=
  match s.pwr.noonPend with
  | none => s
  | some on =>
    let s := { s with pwr := { s.pwr with noonPend := none } }
    if s.get F.pwrStatusState = ofBool (!on) then (s.put F.pwrStatusState (ofBool on)).raise F.pwrEventNoonChange 934 else s

/-- Clone heads that follow head `h` (R93). DEDUCED, log entry 40. -/
def State.clonesOf (s : State) (h : Nat) : List Nat :=
  s.txHeads.filter fun c => (s.headOf c).cfg.clone && (s.headOf c).cfg.cloneSrc == h

/-- The set under which a head transmits tick `t`: a set applied at a frame latch governs from that latch's tick on. -/
def HeadSt.cfgAt (x : HeadSt) (t : Nat) : HeadCfg := if x.lastTick ≤ t then x.cfg else x.cfgWas

/-- The heads that send head `h`'s bands of tick `t` as clones (R93). -/
def State.copiesOf (s : State) (h t : Nat) : List Nat :=
  s.txHeads.filter fun k => let c := (s.headOf k).cfgAt t; c.en && c.clone && c.cloneSrc == h

/-- A clone's set as it sends a band of its source latched under `src`: the source's but for the clone's own lane and slots (R93). -/
def HeadCfg.copyOf (own src : HeadCfg) : HeadCfg :=
  { src with link := BitVec.ofNat 32 (putField own.link.toNat 10 2 src.enc) }

/-- The layers a head owns after a commit: carried entries leave, and those it now owns come. -/
def ownedAfter (h : Nat) (old : List (Nat × LayerCfg)) (carried : List (Nat × LayerCfg)) : List (Nat × LayerCfg) :=
  let kept := old.filter fun e => carried.all fun x => x.1 != e.1
  let come := carried.filter fun e => e.2.owner == h && e.2 != LayerCfg.init
  come.foldl (fun l e => Tbl.set (fun _ => LayerCfg.init) l e.1 e.2) kept

/-! ## Commit results (R78, R79, R85) -/

/-- TICK.CSTAT of an agent with its code and sequence number, and TICK.COFFEND. -/
def State.recordCommit (s : State) (agent seq code : Nat) (late : Bool) (head layer : Option Nat) : State :=
  let s := s.put (bankFld agent F.tickCstatSeq) seq
  let s := s.put (bankFld agent F.tickCstatCode) code
  let s := s.put (bankFld agent F.tickCstatLate) (ofBool late)
  let s := s.put (bankFld agent F.tickCoffendHead) (head.getD 0)
  let s := s.put (bankFld agent F.tickCoffendHvalid) (ofBool head.isSome)
  let s := s.put (bankFld agent F.tickCoffendLayer) (layer.getD 0)
  s.put (bankFld agent F.tickCoffendLvalid) (ofBool layer.isSome)

/-- COMMIT_REJECT on the lowest present head of a commit (R85). -/
def State.rejectCommit (s : State) (mask : List Nat) : State :=
  match mask with
  | [] => s
  | h :: _ => s.raise (F.headEventCommitReject h) (4 * h + 1)

/-- HEAD.STATUS.ARMED: an armed set awaits a frame latch. -/
def State.refreshArmed (s : State) (h : Nat) : State :=
  s.put (F.headStatusArmed h) (ofBool (s.accepted.any fun c => c.mask.contains h && (s.headOf h).order < c.order))

/-- Accepted commits that some head named can still take (R81). -/
def State.pruneAccepted (s : State) : State :=
  { s with accepted := s.accepted.filter fun c => c.mask.any fun h => (s.headOf h).order < c.order }

/-! ## Time state (R33, R35, R39, R40) -/

/-- A change of discipline state raises TIME_STATE (R35). -/
def State.setTimeState (s : State) (st : Nat) : State :=
  if s.get F.tickTstatState = st then s else (s.put F.tickTstatState st).signal 941

/-- A DEVTIME instant moved by a step of `d`. -/
def moved (d : Int) (t : Nat) : Nat := ((t : Int) + d).toNat

def ShutOut.moved (d : Int) (o : ShutOut) : ShutOut :=
  { o with activeUntil := o.activeUntil.map (Machine.moved d), began := o.began + d, since := o.since + d,
           pend := o.pend.map fun w => (Machine.moved d w.1, w.2) }

def Band.moved (d : Int) (b : Band) : Band :=
  { b with deadline := Machine.moved d b.deadline, latch := Machine.moved d b.latch }

def Run.moved (d : Int) (r : Run) : Run := { r with starts := r.starts.map (· + d) }

def HeadSt.moved (d : Int) (x : HeadSt) : HeadSt :=
  { x with bands := x.bands.map (Band.moved d), runs := x.runs.map (Run.moved d),
           sent := x.sent.map fun y => { y with deadline := Machine.moved d y.deadline }
           subStart := Machine.moved d x.subStart, lastLatch := x.lastLatch.map (Machine.moved d),
           retimeEnd := x.retimeEnd.map (Machine.moved d) }

def TimeSt.moved (d : Int) (x : TimeSt) : TimeSt :=
  { x with
    shut := x.shut.map (ShutOut.moved d)
    gl := { x.gl with last := x.gl.last.map (Machine.moved d) }
    ptp := { x.ptp with lastAnnounce := Machine.moved d x.ptp.lastAnnounce, lastSync := x.ptp.lastSync.map (Machine.moved d),
                        reqDue := x.ptp.reqDue.map (Machine.moved d),
                        foreign := x.ptp.foreign.map fun f => (f.1, f.2.1, Machine.moved d f.2.2) }
    holdEnd := x.holdEnd.map (Machine.moved d)
    recent := x.recent.map fun r => { r with start := r.start + d }
    rateEnd := x.rateEnd + d }

/-- Instants fixed before a step of `d` keep their physical place (stamps are not among them, R33). DESIGN CHOICE, log entry 5. -/
def State.shiftInstants (s : State) (d : Int) : State :=
  { s with
    time := s.time.moved d
    heads := s.heads.map fun e => (e.1, e.2.moved d)
    pose := { s.pose with recent := s.pose.recent.map fun e => (e.1, moved d e.2.1, e.2.2) }
    wlk := { s.wlk with lanes := s.wlk.lanes.map fun e => (e.1, { e.2 with since := moved d e.2.since }) }
    mir := { s.mir with hbSent := moved d s.mir.hbSent, hbSeen := moved d s.mir.hbSeen, timeAt := moved d s.mir.timeAt }
    finj := { s.finj with held := s.finj.held.map fun e => (e.1, moved d e.2.1, e.2.2) }
    net := { s.net with txq := s.net.txq.map fun e => (e.1, moved d e.2.1, e.2.2) } }

/-- DEVTIME is stepped by `d` (R33): STEPS counts it and TIME_STATE is raised. DESIGN CHOICE, log entry 5. -/
def State.stepBy (s : State) (d : Int) : State :=
  let s := s.shiftInstants d
  let s := { s with time := { s.time with devtime := BitVec.ofInt 64 ((s.now : Int) + d) } }
  (s.bump F.tickTstatSteps).signal 941

/-- The first k with T(k) at or after `t` (R47). -/
def State.tickAtOrAfter (s : State) (t : Nat) : Nat :=
  let r := s.time.ts.rate
  let x := ((t : Int) - s.time.tphase).toNat
  let k := x * (rateND r).1 / (1000000000 * (rateND r).2)
  if x ≤ tickBase r k then k else k + 1

/-- After a rate change, a step or a TPHASE change at `at0`: the next tick is the first at or after the end of a re-time begun there
(R40, R52), and each head's next frame latch is that tick's. Meanwhile the heads send two tick periods of black (R91).
DEDUCED, log entry 32. -/
def State.renumber (s : State) (at0 : Nat) : State :=
  let s := s.txHeads.foldl (fun s h => s.blackRun h true ((at0 + tickPeriod s.time.ts.rate : Nat) : Int)) (s.blackTick at0)
  let j := s.tickAtOrAfter (at0 + 2 * tickPeriod s.time.ts.rate)
  let s := { s with time := { s.time with nextTick := j } }
  s.allHeads.foldl (fun s h => s.setHead h { s.headOf h with latchTick := j }) s

end Sys2Proof.Machine
end

