-- ==== Sys2Proof/Machine/RegOps.lean ====
section
/-! DEFINITION. Writing a register by the access types of R8: RW and RWS bits take the written value, W1C bits written with 1
clear, every other bit keeps its value. -/

namespace Sys2Proof.Machine

/-- The rows of a block of R458. -/
def blockRows : Nat → List RegRow
  | 0 => rowsTop
  | 1 => rowsBoot
  | 2 => rowsProt
  | 3 => rowsClk
  | 4 => rowsTick
  | 5 => rowsPwr
  | 6 => rowsThm
  | 7 => rowsIcu
  | 8 => rowsHead
  | 9 => rowsLayer
  | 10 => rowsGrp ++ rowsPstore
  | 11 => rowsScl
  | 12 => rowsPose
  | 13 => rowsDmc
  | 14 => rowsCxl
  | 15 => rowsDma
  | 16 => rowsBlt
  | 17 => rowsNet
  | 18 => rowsTsp
  | 19 => rowsCdc
  | 20 => rowsWlk
  | 21 => rowsMir
  | 22 => rowsFlt
  | 23 => rowsFinj
  | _ => []

/-- The row of the register map that holds the word at `off`; none where the word is reserved or unassigned. -/
def rowAt (off : Nat) : Option RegRow :=
  (blockOf off).bind fun b => (blockRows b).find? fun r => (r.index off).isSome

/-- The word at `off` after a write of `v`, from its old value (R8). -/
def writtenWord (r : RegRow) (old v : Word) : Word :=
  let m := BitVec.ofNat 32 (r.rw ||| r.rws)
  let c := BitVec.ofNat 32 r.w1c
  (old &&& ~~~m &&& ~~~(v &&& c)) ||| (v &&& m)

/-- A write by the access types of the register at key `key`, whose row is that of `off`. -/
def State.storeAt (s : State) (key off : Nat) (v : Word) : State :=
  match rowAt off with
  | none => s
  | some r => s.wr key (writtenWord r (s.rd key) v)

/-- A write by the access types of the register. -/
def State.store (s : State) (off : Nat) (v : Word) : State := s.storeAt off off v

/-- Bits of a written word that are writable fields. -/
def writable (off : Nat) (v : Word) : Word :=
  match rowAt off with
  | none => 0
  | some r => v &&& BitVec.ofNat 32 (r.rw ||| r.rws)

/-- The instance of an array of `n` words `stride` bytes apart that sits at `off`. -/
def slot (off base stride n : Nat) : Option Nat :=
  if base ≤ off ∧ off < base + stride * n ∧ (off - base) % stride = 0 then some ((off - base) / stride) else none

/-! ## 64-bit pairs (R9) -/

/-- A word of an array of pairs: the _LO at `off`. -/
def loIn (off base stride n : Nat) : Bool := (slot off base stride n).isSome

/-- Offset of the _LO of an RO pair. -/
def roPairLo (off : Nat) : Bool :=
  off == Reg.protVaddrLo || off == Reg.tickDevtimeLo || off == Reg.tickTicknumLo || off == Reg.tickPpsinLo ||
  loIn off (Reg.headRbsigLo 0) 0x1000 128 || loIn off (Reg.grpRtcycLo 0) 0x1000 12 || loIn off (Reg.grpNrtcycLo 0) 0x1000 12 ||
  off == Reg.poseTrclatchLo || off == Reg.poseTrcarrLo || loIn off (Reg.poseSrcStampLo 0) 0x100 72 ||
  off == Reg.dmcFreezeAddrLo || off == Reg.dmcFreezeStampLo || loIn off (Reg.dmcChEccaddrLo 0) 0x800 16 ||
  off == Reg.cxlRderrAddrLo || off == Reg.dmaErraddrLo || off == Reg.bltErraddrLo

/-- Offset of the _LO of an RW or RWS pair. -/
def rwPairLo (off : Nat) : Bool :=
  off == Reg.pwrWaketimeLo || loIn off (Reg.protWinBaseLo 0) 0x10 16 || loIn off (Reg.dmaChRingLo 0) 0x20 16 ||
  off == Reg.bltRingLo || off == Reg.netFwrxLo || loIn off (Reg.netFlowBaseLo 0) 0x40 256 || off == Reg.tspFwtxLo ||
  loIn off (Reg.cdcCtxCmdLo 0) 0x80 32 || loIn off (Reg.cdcCtxInLo 0) 0x80 32 || loIn off (Reg.cdcCtxDpbLo 0) 0x80 32 ||
  loIn off (Reg.cdcCtxOutLo 0) 0x80 32 || loIn off (Reg.layerAddrLo 0) 0x100 1024 || loIn off (Reg.fltWbAddrLo 0) 0x20 16

/-- The low half of a pair as it is stored: a window's base drops its low 16 bits (R457). -/
def lowHalf (off : Nat) (v : Word) : Word :=
  if loIn off (Reg.protWinBaseLo 0) 0x10 16 then BitVec.ofNat 32 (v.toNat / 65536 * 65536) else v

/-- Key of an agent's half of a pair: the _HI offset for a captured half, the _LO offset for a held one. -/
def halfKey (agent off : Nat) : Nat := 0x4000000 * agent + off

/-- The half held under a key. -/
def halfAt (l : List (Nat × Word)) (key : Nat) : Option Word := (l.find? fun e => e.1 == key).map (·.2)

/-- The list with a half held under a key, in place of an earlier one. -/
def halfSet (l : List (Nat × Word)) (key : Nat) (v : Word) : List (Nat × Word) := (key, v) :: l.filter fun e => e.1 != key

/-- A write under R9 whose effect on a word is `put`: the _LO of an RW or RWS pair is held for its agent, and the _HI puts both halves
into effect. DEDUCED, log entry 23. -/
def State.pairWrite (s : State) (agent off : Nat) (v : Word) (put : State → Nat → Word → State) : State :=
  if rwPairLo off then { s with heldLo := halfSet s.heldLo (halfKey agent off) v }
  else if 4 ≤ off ∧ rwPairLo (off - 4) then
    let key := halfKey agent (off - 4)
    let lo := halfAt s.heldLo key
    let s := { s with heldLo := s.heldLo.filter fun e => e.1 != key }
    let s := match lo with
      | some l => put s (off - 4) (lowHalf (off - 4) l)
      | none => s
    put s off v
  else put s off v

end Sys2Proof.Machine
end

