-- ==== Sys2Proof/Machine/Dmc.lean ====
section
/-! DEFINITION. The local memory controller (R239 to R266): address decoding, channel queues and scheduling, refresh, self-refresh,
row-disturbance defence, eye-scan captures and the freeze; and the checked memory accesses that units make. -/

namespace Sys2Proof.Machine

/-! ## Accesses by units -/

/-- The controller is frozen (R265). -/
def State.frozen (s : State) : Bool := s.flag F.dmcStatusFrozen

/-- [a, a + n) meets the check part of a CONTROL window (R262, R263). -/
def State.meetsCheck (s : State) (a n : Nat) : Bool :=
  (List.range 8).any fun i =>
    let b := s.get (F.dmcCregBaseMib i) * 1048576
    let len := s.get (F.dmcCregSizeSize8 i) * 8 * 1048576
    s.flag (F.dmcCregBaseEn i) && n != 0 && a < b + len && b + len / 8 * 7 < a + n

/-- Channel of a local address (R242). -/
def State.channelOf (s : State) (a : Nat) : Nat :=
  4 * s.regionOf a + (a % s.regionSize) / 64 % 4

/-- Reads of [a, a + n) return poison and writes are discarded: a freeze (R265), a channel switched off (R255), the check part of a
CONTROL window (R263), or space beyond the installed DRAM. DEDUCED, log entry 80. -/
def State.localDead (s : State) (a n : Nat) : Bool :=
  s.frozen || s.capacity < a + n || s.meetsCheck a n ||
    (List.range (min 4 ((a + n - 1) / 64 - a / 64 + 1))).any fun i => !s.domOn (61 + s.channelOf (a + 64 * i) / 2)

/-- A unit's access to memory is granted to an agent (R450), outside the flatten region (R128). Space 0 is local, 1 host. -/
def State.granted (s : State) (agent : Nat) (write : Bool) (space a n : Nat) : Bool :=
  s.windowGrants agent write space a n && !(space == 0 && s.meetsFlatten a n)

/-- The protection map refuses some granule of [a, a + n) to the agent whose commit made the set active (R452). -/
def State.granuleRefused (s : State) (agent : Nat) (host : Bool) (a n : Nat) : Bool :=
  (List.range ((a + n - 1) / 64 - a / 64 + 1)).any fun i =>
    !s.windowGrants agent false (ofBool host) ((a / 64 + i) * 64) 64

/-! ## Address decoding (R242, R243) -/

/-- Bank and row of a local address under DMC.MAP. -/
def State.bankRow (s : State) (a : Nat) : Nat × Nat :=
  let g := (a % s.regionSize) / 64 / 4
  let r := 14 + s.get F.dmcMapDensity
  match s.get F.dmcMapOrder with
  | 1 => (field g (5 + r) 4, field g 5 r)
  | 2 => let row := field g 9 r; (field g 5 4 ^^^ (row % 16), row)
  | _ => (field g 5 4, field g 9 r)

/-! ## Channels -/

def State.chanOf (s : State) (n : Nat) : DmcCh := Tbl.get (fun _ => DmcCh.init) s.dmc.chans n

def State.setChan (s : State) (n : Nat) (c : DmcCh) : State :=
  { s with dmc := { s.dmc with chans := Tbl.set (fun _ => DmcCh.init) s.dmc.chans n c } }

/-- Requester IDs 0 to 27 are real-time ports (R244). -/
def realTime (req : Nat) : Bool := req < 28

/-- A port in panic (R249). -/
def State.panic (s : State) (p : Nat) : Bool := s.flag (F.dmcPortPanic p)

/-- Rank of a request (R245). -/
def State.rank (s : State) (r : DmcReq) : Nat :=
  if !realTime r.req then 3 else if s.panic r.req then 1 else 2


/-- A bank's row is closed. -/
def DmcCh.close (c : DmcCh) (bank : Nat) : DmcCh := { c with opened := c.opened.filter fun e => e.1 != bank }

/-- A command holds a bank, with its row closed, until an uptime (R250, R256). -/
def DmcCh.hold (c : DmcCh) (bank stop : Nat) : DmcCh :=
  { c.close bank with busy := (bank, stop) :: c.busy.filter fun e => e.1 != bank }

/-- The row of a request's bank is open. -/
def DmcCh.isOpen (c : DmcCh) (r : DmcReq) : Bool := c.opened.contains (r.bank, r.row)

/-- Reads in the bank queues, those with their data; the others stall at their requesters (R245, R248). -/
def DmcCh.visibleReads (c : DmcCh) : List DmcReq := c.reads.filter fun r => !r.data.isEmpty

/-- A bank's queue of sixteen reads has room (R245). -/
def DmcCh.hasRoom (c : DmcCh) (bank : Nat) : Bool := (c.visibleReads.filter fun r => r.bank == bank).length < 16

/-- The channel holds a request from a port in panic (R249). -/
def State.chanPanic (s : State) (c : DmcCh) : Bool := c.visibleReads.any fun r => realTime r.req && s.panic r.req

/-- The write queue: the first 32 writes; later ones stall at their requester (R247). -/
def DmcCh.queue (c : DmcCh) : List DmcReq := c.writes.take 32

/-- Page hint of a requester: 0 OPEN, 1 CLOSE, 2 AUTO (R244). -/
def pageHint (req : Nat) : Nat := if req = 28 ∨ req = 29 ∨ req = 33 then 0 else if req = 34 then 1 else 2

/-- The channel issues commands: present, powered and not frozen. -/
def State.chanRuns (s : State) (n : Nat) : Bool := n < s.part.channels && s.domOn (61 + n / 2) && !s.frozen

/-! ## Activates and rows (R246, R256) -/

/-- An activate of a bank is counted; true where the count reaches a multiple of ACTTHR, and the defence acts (R256). -/
def State.countAct (s : State) (n : Nat) (r : DmcReq) : State × Bool :=
  let c := s.chanOf n
  let k := (c.acts.lookup r.bank).getD 0 + 1
  let t := c.throttle.map fun e => if e.1 = r.req ∧ e.2.1 = r.bank then (e.1, e.2.1, s.time.uptime) else e
  let c := { c with acts := (r.bank, k) :: c.acts.filter (fun e => e.1 != r.bank), lastAct := r.bank, throttle := t }
  let s := s.setChan n c
  if k % max 1 (s.get (F.dmcChRhcfgActthr n)) ≠ 0 then (s, false)
  else
    let s := ((s.put (F.dmcChRhstatBank n) r.bank).put (F.dmcChRhstatReq n) r.req).put (F.dmcChRhstatRow n) r.row
    let s := s.raise (F.dmcChEventActThrottle n) (655 + 4 * n)
    if realTime r.req || t.any (fun e => e.1 == r.req && e.2.1 == r.bank) then (s, true)
    else (s.setChan n { c with throttle := c.throttle ++ [(r.req, r.bank, s.time.uptime)] }, true)

/-- One access to a row of channel n: an activate if the row is closed, then the page hint decides what happens to the row (R246). A
refresh-management command that the activate calls for follows it, and holds the bank (R256). -/
def State.rowAccess (s : State) (n : Nat) (r : DmcReq) : State :=
  let u := if (s.chanOf n).isOpen r then (s, false) else s.countAct n r
  let c := u.1.chanOf n
  let c := { c with opened := (r.bank, r.row) :: c.opened.filter (fun e => e.1 != r.bank), idleAt := s.time.uptime }
  let more := (c.visibleReads ++ c.queue).any fun x => x.bank == r.bank && x.row == r.row && x.seq != r.seq
  let c := match pageHint r.req with
    | 0 => c
    | 1 => c.close r.bank
    | _ => if more then c else c.close r.bank
  u.1.setChan n (if u.2 then c.hold r.bank (s.time.uptime + s.get F.dmcRefcfgTrfcpb) else c)

/-- The granule that holds the check bytes of a CONTROL granule (R262). -/
def State.checkGranule (s : State) (a : Nat) : Option Nat :=
  ((List.range 8).find? fun i =>
    let b := s.get (F.dmcCregBaseMib i) * 1048576
    let len := s.get (F.dmcCregSizeSize8 i) * 8 * 1048576
    s.flag (F.dmcCregBaseEn i) && b ≤ a && a < b + len / 8 * 7).map fun i =>
      let b := s.get (F.dmcCregBaseMib i) * 1048576
      (b + s.get (F.dmcCregSizeSize8 i) * 7 * 1048576 + 8 * ((a - b) / 64)) / 64 * 64

/-- A request for the granule at `a`, with no data yet. -/
def State.reqFor (s : State) (req a mask : Nat) : DmcReq :=
  let br := s.bankRow a
  ⟨req, a, br.1, br.2, s.dmc.seq, mask, []⟩

/-! ## Self-refresh exits (R254) -/

/-- SELFREF and SRMAP of a channel. -/
def State.setSelfref (s : State) (n : Nat) (b : Bool) : State :=
  (s.put (F.dmcChStatusSelfref n) (ofBool b)).put ⟨Reg.dmcStatus, 16 + n, 1⟩ (ofBool b)

/-- The channel starts its exit from self-refresh; a frozen one issues nothing (R265). -/
def State.exitSelfref (s : State) (n : Nat) : State :=
  if s.flag (F.dmcChStatusSelfref n) && !s.frozen then
    (s.setSelfref n false).setChan n { s.chanOf n with
      wakeAt := some (s.time.uptime + s.get F.dmcSrexitNs), refAt := s.time.uptime }
  else s

/-- A request reaches a channel: the channel is not idle, and wakes. -/
def State.touchChan (s : State) (n : Nat) : State :=
  let s := s.exitSelfref n
  s.setChan n { s.chanOf n with idleAt := s.time.uptime }

/-- The access to the check granule that goes with one to the CONTROL granule at `a`: its channel, often another one, is no longer idle,
and leaves self-refresh (R254, R263). -/
def State.checkAccess (s : State) (req a : Nat) : State :=
  match s.checkGranule a with
  | some g =>
    let n := s.channelOf g
    if s.chanRuns n then (s.touchChan n).rowAccess n (s.reqFor req g 0) else s
  | none => s

/-- ECC_CE (R264): word `w` of the granule at `a` of channel n is corrected. -/
def State.eccCe (s : State) (n a w : Nat) : State :=
  ((s.bumpSat (F.dmcChEccCe n)).wr64 (Reg.dmcChEccaddrLo n) (a + 8 * w)).raise (F.dmcChEventEccCe n) (653 + 4 * n)

/-- The words `ce` of the CONTROL granule at `a` are found with single-bit errors (R264). -/
def State.corrected (s : State) (n a : Nat) (ce : List Nat) : State :=
  if (s.checkGranule a).isNone then s else (ce.filter (· < 8)).eraseDups.foldl (fun s w => s.eccCe n a w) s

/-- Time passes to an uptime. -/
def State.elapseTo (s : State) (t : Nat) : State := if s.time.uptime < t then s.elapse (t - s.time.uptime) else s

/-! ## Reads (R245, R248, R249) -/

/-- A read is answered. -/
def State.reply (s : State) (req addr : Nat) (data : List Nat) (poison : Bool) : State :=
  { s with dmc := { s.dmc with reply := some (req, addr, data, poison) } }

/-- Granules still to come to, and buffered by, a real-time port. -/
def State.portOf (s : State) (p : Nat) : Nat × Nat := Tbl.get (fun _ => (0, 0)) s.dmc.ports p

def State.setPort (s : State) (p : Nat) (x : Nat × Nat) : State :=
  { s with dmc := { s.dmc with ports := Tbl.set (fun _ => (0, 0)) s.dmc.ports p x } }

/-- PORT_PANIC (R249): a port with granules to come and fewer than WMLO buffered is in panic until WMHI are buffered, or none are to
come. DEDUCED, log entry 83. -/
def State.portPanic (s : State) (p : Nat) : State :=
  let x := s.portOf p
  let was := s.panic p
  let now := x.1 != 0 && (if was then x.2 < s.get (F.dmcPortWmhi p) else x.2 < s.get (F.dmcPortWmlo p))
  if was == now then s
  else (s.put (F.dmcPortPanic p) (ofBool now)).put ⟨Reg.dmcPanicmap, p, 1⟩ (ofBool now)

/-- A port begins its part of a head's next band: what it buffers is counted anew (R249). DEDUCED, log entry 83. -/
def State.portBand (s : State) (p : Nat) : State := (s.setPort p ((s.portOf p).1, 0)).portPanic p

/-- A granule from port `req` arrives in a real-time port's buffer. -/
def State.deliver (s : State) (req : Nat) : State :=
  if realTime req then
    let p := s.portOf req
    (s.setPort req (p.1 - 1, min 512 (p.2 + 1))).portPanic req
  else s

/-- A read enters its bank's queue with what memory holds then; a queued write that covers the granule answers it (R248).
DEDUCED, log entry 79. -/
def State.enterRead (s : State) (n req a : Nat) : State :=
  let c := s.chanOf n
  let data := s.dramRead a 64
  if c.queue.any fun w => w.addr == a && w.mask == 2 ^ 64 - 1 then (s.reply req a data false).deliver req
  else
    { s with dmc := { s.dmc with seq := s.dmc.seq + 1 } }.setChan n { c with reads := c.reads ++ [{ s.reqFor req a 0 with data := data }] }

/-- A read reaches its channel, and stalls behind those that its bank's queue has no room for. DEDUCED, log entry 82. -/
def State.readArrive (s : State) (req a : Nat) : State :=
  let n := s.channelOf a
  let s := s.touchChan n
  let c := s.chanOf n
  let r := s.reqFor req a 0
  if c.hasRoom r.bank && c.reads.all fun x => !x.data.isEmpty || x.bank != r.bank then s.enterRead n req a
  else { s with dmc := { s.dmc with seq := s.dmc.seq + 1 } }.setChan n { c with reads := c.reads ++ [r] }

/-- Stalled reads whose bank's queue has room enter it, in order, `k` at most (R248). -/
def State.admitReads (s : State) (n : Nat) : Nat → State
  | 0 => s
  | k + 1 =>
    let c := s.chanOf n
    match c.reads.find? fun r => r.data.isEmpty && c.hasRoom r.bank with
    | none => s
    | some r =>
      ((s.setChan n { c with reads := c.reads.filter fun x => x.seq != r.seq }).enterRead n r.req r.addr).admitReads n k

/-! ## The sector crossbar (R17, R18) -/

def State.xbarOf (s : State) (r : Nat) : XbarSt := Tbl.get (fun _ => XbarSt.init) s.dmc.xbar r

def State.setXbar (s : State) (r : Nat) (x : XbarSt) : State :=
  { s with dmc := { s.dmc with xbar := Tbl.set (fun _ => XbarSt.init) s.dmc.xbar r x } }

/-- The sector of a requester's port; none for the units outside the sectors (R244). -/
def portSector (req : Nat) : Option Nat := if req < 4 then some req else if req < 28 then some ((req - 4) / 6) else none

/-- Slots of a rotation that each other sector holds for its real-time reads (R17). -/
def xbarReserved (sectors : Nat) : Nat := if sectors = 2 then 6 else 3

/-- The other sectors of region r, from the one that holds slot i of the rotation on; none for a non-real-time slot. Which of the 16 are
whose is the model's choice. DESIGN CHOICE, log entry 151. -/
def xbarOwners (sectors r i : Nat) : List Nat :=
  let others := (List.range sectors).filter (· != r)
  let k := i / xbarReserved sectors
  if k < others.length then others.drop k ++ others.take k else []

/-- The read that takes slot i: a real-time read of the sector that holds it, then of the next sectors of the rotation, then a
non-real-time read (R17). -/
def xbarPick (sectors r i : Nat) (w : List XbarReq) : Option XbarReq :=
  match (xbarOwners sectors r i).findSome? fun q => w.find? fun x => x.sector == some q with
  | some x => some x
  | none => w.find? fun x => x.sector.isNone

/-- One slot of region r's crossbar: the read that takes it reaches its channel. -/
def State.xbarSlot (s : State) (r : Nat) : State :=
  let x := s.xbarOf r
  let s := s.setXbar r { x with slot := x.slot + 1 }
  match xbarPick s.part.sectors r (x.slot % 16) x.waiting with
  | none => s
  | some q => (s.setXbar r ⟨x.waiting.erase q, x.slot + 1⟩).readArrive q.req q.addr

/-- The slots of region r that have ended, `k` at most; a slot lasts 1.25 ns. -/
def State.xbarRun (s : State) (r : Nat) : Nat → State
  | 0 => s
  | k + 1 =>
    let x := s.xbarOf r
    if x.waiting.isEmpty || 4 * s.time.uptime / 5 ≤ x.slot then s else (s.xbarSlot r).xbarRun r k

/-- Slots that serve every read waiting at region r. -/
def State.xbarNeed (s : State) (r : Nat) : Nat := 16 * (s.xbarOf r).waiting.length

/-- Before an access to region r: the reads whose slots have ended have reached their channels (R17). -/
def State.xbarSettle (s : State) (r : Nat) : State := s.xbarRun r (s.xbarNeed r)

/-- Time passes slot by slot until channel n has a request, `k` slots at most. -/
def State.xbarWait (s : State) (r n : Nat) : Nat → State
  | 0 => s
  | k + 1 =>
    if !(s.chanOf n).reads.isEmpty || (s.xbarOf r).waiting.all fun q => s.channelOf q.addr != n then s
    else ((s.elapseTo ((5 * ((s.xbarOf r).slot + 1) + 3) / 4)).xbarSlot r).xbarWait r n k

/-! ## Accesses that units make -/

/-- A unit's request for one granule, served in the step that makes it (R244). Where it reads a CONTROL granule, the words that are found
with single-bit errors are a free choice (R264). DESIGN CHOICE, log entry 148. -/
def State.granuleAccess (s : State) (req a : Nat) (whole : Bool := false) : State :=
  if s.localDead a 64 then s
  else
    let n := s.channelOf a
    let s := (((s.xbarSettle (s.regionOf a)).touchChan n).rowAccess n (s.reqFor req a 0)).checkAccess req a
    if whole || (s.checkGranule a).isNone then s
    else
      let e := Config.freeNat s.fresh
      s.tick.corrected n a ((List.range 8).filter (bit e))

/-- A unit accesses [a, a + n) of local memory as requester `req`, granule by granule (R244). -/
def State.useLocal (s : State) (req a n : Nat) : State :=
  if n = 0 then s else (List.range ((a + n - 1) / 64 - a / 64 + 1)).foldl (fun s i => s.granuleAccess req (64 * (a / 64 + i))) s

/-- Pieces of [a, a + n) by 64-byte granule, in address order. -/
def pieces (a n : Nat) : List (Nat × Nat) :=
  if n = 0 then [] else
  (List.range ((a + n - 1) / 64 - a / 64 + 1)).map fun i =>
    let lo := max a ((a / 64 + i) * 64)
    (lo, min (a + n) ((a / 64 + i + 1) * 64) - lo)

/-- Bytes of local memory; those of a granule whose reads are poisoned are free (R255, R263). DESIGN CHOICE, log entry 149. -/
def State.dramSee (s : State) (a n : Nat) : List Nat :=
  if s.localDead a n then
    (List.range n).map fun i => if s.localDead (a + i) 1 then (Config.freeByte (s.fresh + i)).toNat else (s.dramRead (a + i) 1).headD 0
  else s.dramRead a n

/-- Bytes written to local memory; each granule to which writes are discarded keeps its bytes (R255, R263, R265). -/
def State.dramStore (s : State) (a : Nat) (bs : List Nat) : State :=
  if s.localDead a bs.length then
    (pieces a bs.length).foldl (fun s p =>
      if s.localDead p.1 p.2 then s else s.dramWrite p.1 ((bs.drop (p.1 - a)).take p.2)) s
  else s.dramWrite a bs

/-- Bytes of a space. DESIGN CHOICE, log entry 75. -/
def State.memRead (s : State) (space a n : Nat) : List Nat := if space = 0 then s.dramRead a n else s.hostRead a n

/-- Bytes written by requester `req` to local memory; a granule of a CONTROL window that is not covered whole is read first (R263). -/
def State.localStore (s : State) (req a : Nat) (bs : List Nat) : State :=
  ((pieces a bs.length).foldl (fun s p => s.granuleAccess req (p.1 / 64 * 64) (p.2 == 64)) s).dramStore a bs

/-! ## Refresh (R250, R251, R253, R258) -/

/-- Delays of the set point in force that the registers of channel n hold (R258). -/
def State.delayRegs (s : State) (n : Nat) : List Word :=
  let f := s.get F.dmcStatusFsp
  [s.rd (Reg.dmcChDly n f 0), s.rd (Reg.dmcChDly n f 1), s.rd (Reg.dmcChVref n f), s.rd (Reg.dmcChCadly n f)]

/-- One refresh of the next bank pair of channel n, which holds the pair for TRFCPB; held delays are applied (R250, R258). -/
def State.issueRefresh (s : State) (n : Nat) : State :=
  let c := s.chanOf n
  let stop := s.time.uptime + s.get F.dmcRefcfgTrfcpb
  let c := (c.hold c.pair stop).hold (c.pair + 8) stop
  s.setChan n { c with pair := (c.pair + 1) % 8, delays := s.delayRegs n }

/-- The bank pair next to refresh has no queued request. -/
def DmcCh.pairFree (c : DmcCh) : Bool := (c.visibleReads ++ c.queue).all fun r => r.bank % 8 != c.pair

/-- Owed refreshes whose bank pair has no queued request are issued (R251), looking at `k`; those of a forced burst are TPBR apart (R253). -/
def State.settleRefresh (s : State) (n : Nat) : Nat → State
  | 0 => s
  | k + 1 =>
    let owed := s.get (F.dmcChStatusOwed n)
    if 0 < owed && !(s.chanOf n).burst && (s.chanOf n).pairFree then
      ((s.issueRefresh n).put (F.dmcChStatusOwed n) (owed - 1)).settleRefresh n k
    else s

/-- The postponement limit (R251, R252). -/
def State.refreshLimit (s : State) (n : Nat) : Nat := if s.flag (F.dmcChStatusHot n) then 4 else 8

/-- Interval of refreshes in ns: TREFIPB, halved at doubled refresh (R250, R252). -/
def State.refreshEvery (s : State) (n : Nat) : Nat :=
  if s.flag (F.dmcChStatusHot n) then s.get F.dmcRefcfgTrefipb / 2 else s.get F.dmcRefcfgTrefipb

/-- REFRESH_DUE (R250, R251): the interval since the last one ends. DEDUCED, log entry 150. -/
def effRefreshDue (n : Nat) (s : State) : State :=
  if !s.chanRuns n || s.flag (F.dmcChStatusSelfref n) then s
  else
    let s := s.elapseTo ((s.chanOf n).refAt + s.refreshEvery n)
    let s := s.setChan n { s.chanOf n with refAt := s.time.uptime }
    let owed := s.get (F.dmcChStatusOwed n)
    let c := s.chanOf n
    if c.burst then s.put (F.dmcChStatusOwed n) (owed + 1)
    else if s.chanPanic c || s.refreshLimit n ≤ owed then s.issueRefresh n
    else (s.put (F.dmcChStatusOwed n) (owed + 1)).settleRefresh n 16

def execRefreshDue (ch : Nat) (s : State) : Host.Outcome State Fault Refusal := s.done (effRefreshDue ch s)

/-! ## Self-refresh (R254) -/

/-- The latency condition of self-refresh. -/
def State.srLatency (s : State) : Bool := s.get F.dmcSrexitNs + 2000 < s.get F.tickLatminUs * 1000

/-- Owed refreshes of a channel are all issued. -/
def State.payRefresh (s : State) (n : Nat) : State :=
  let s := ((List.range (s.get (F.dmcChStatusOwed n))).foldl (fun s _ => s.issueRefresh n) s).put (F.dmcChStatusOwed n) 0
  s.setChan n { s.chanOf n with burst := false }

/-- The conditions of self-refresh but for the idle time and the latency (R254). -/
def State.srMay (s : State) (n : Nat) : Bool :=
  let c := s.chanOf n
  let scan := match s.dmc.capture with | some k => k.1 == n | none => false
  s.chanRuns n && !s.flag (F.dmcChStatusSelfref n) && s.flag F.dmcCtlSren && c.reads.isEmpty && c.writes.isEmpty && !scan &&
    s.dmc.change.isNone

/-- STATUS.SRDENY: only the latency condition keeps the channel out of self-refresh (R254). -/
def State.srDenied (s : State) (n : Nat) : Bool :=
  s.srMay n && (s.chanOf n).idleAt + s.get (F.dmcChSridleNs n) ≤ s.time.uptime && !s.srLatency

/-- SELF_REFRESH_ENTRY: the channel has held no request for SRIDLE ns. -/
def effSelfRefresh (n : Nat) (s : State) : State :=
  if !s.srMay n then s
  else
    let s := s.elapseTo ((s.chanOf n).idleAt + s.get (F.dmcChSridleNs n))
    if !s.srLatency then s else (s.payRefresh n).setSelfref n true

def execSelfRefreshEntry (ch : Nat) (s : State) : Host.Outcome State Fault Refusal := s.done (effSelfRefresh ch s)

/-- LATMIN has changed: channels that may not stay in self-refresh exit at once (R254); Midnight keeps them (R255). -/
def State.srCheck (s : State) : State :=
  if s.icuRetained || s.srLatency then s
  else (List.range s.part.channels).foldl (fun s n => s.exitSelfref n) s

/-! ## Reads and writes that arrive (R244, R247, R248) -/

/-- A read of one granule (R244): one from a port of another sector, or from a unit outside the sectors, passes the region's crossbar; a
TX-4032 has none. -/
def State.readGranule (s : State) (req a : Nat) : State :=
  let r := s.regionOf a
  if s.frozen && realTime req then s
  else if s.localDead a 64 then s.reply req a (List.replicate 64 0) true
  else
    let s := s.xbarSettle r
    let s := if realTime req then (s.setPort req ((s.portOf req).1 + 1, (s.portOf req).2)).portPanic req else s
    if s.part.sectors = 1 || portSector req == some r then s.readArrive req a
    else
      let x := s.xbarOf r
      s.setXbar r ⟨x.waiting ++ [⟨portSector req, req, a⟩], if x.waiting.isEmpty then (4 * s.time.uptime + 4) / 5 else x.slot⟩

/-- DRAM_READ_REQUEST: `granules` granules from the one that holds `addr`. DEDUCED, log entries 79, 82. -/
def effDramRead (req addr granules : Nat) (s : State) : State :=
  (List.range granules).foldl (fun s i => s.readGranule req ((addr / 64 + i) * 64)) s

def execDramReadRequest (req addr granules : Nat) (s : State) : Host.Outcome State Fault Refusal :=
  s.done (effDramRead req addr granules s)

/-! ## Writes (R247, R248) -/

/-- Byte enables of [a, a + n) in the granule at `g`. -/
def granuleMask (g a n : Nat) : Nat := (List.range 64).foldl (fun m i => if a ≤ g + i && g + i < a + n then m + 2 ^ i else m) 0

/-- The enabled bytes of `new` over those of `old`. -/
def overlayBytes (mask : Nat) (new old : List Nat) : List Nat :=
  (List.range 64).map fun i => if bit mask i then new.getD i 0 else old.getD i 0

/-- The enabled bytes of a granule in DRAM. -/
def State.dramPut (s : State) (g mask : Nat) (data : List Nat) : State :=
  s.dramWrite g (overlayBytes mask data (s.dramRead g 64))

/-- A read of a granule with a partial write queued before it waits for that write's data to be sent (R248). -/
def DmcCh.blockedRead (c : DmcCh) (r : DmcReq) : Bool := c.queue.any fun w => w.addr == r.addr && w.seq < r.seq

/-- The bytes of a merge, in the reads that wait for the entry (R248). -/
def DmcCh.mergeReads (c : DmcCh) (g mask : Nat) (data : List Nat) : List DmcReq :=
  c.reads.map fun r => if r.addr = g && !r.data.isEmpty && c.blockedRead r then { r with data := overlayBytes mask data r.data } else r

/-- One granule of a write: it merges into the entry of its granule (R248), queues, or stalls while the queue holds 32 (R247). A stalled
write has not reached the channel. Memory takes the bytes of a queued write, and the entry keeps those that they replace, for a freeze
that discards it (R265). -/
def State.writeGranule (s : State) (req g mask : Nat) (data : List Nat) : State :=
  let n := s.channelOf g
  let s := (s.xbarSettle (s.regionOf g)).touchChan n
  let c := s.chanOf n
  if c.queue.any fun w => w.addr == g then
    (s.setChan n { c with
      reads := c.mergeReads g mask data
      writes := c.writes.map fun w =>
        if w.addr = g then { w with mask := w.mask ||| mask, data := overlayBytes w.mask w.data (s.dramRead g 64) } else w }).dramPut
      g mask data
  else if c.writes.any fun w => w.addr == g then
    s.setChan n { c with writes := c.writes.map fun w =>
      if w.addr = g then { w with mask := w.mask ||| mask, data := overlayBytes mask data w.data } else w }
  else
    let room := decide (c.writes.length < 32)
    let r := { s.reqFor req g mask with data := if room then s.dramRead g 64 else data }
    let q := c.writes ++ [r]
    let s := { s with dmc := { s.dmc with seq := s.dmc.seq + 1 } }.setChan n
      { c with writes := q, draining := c.draining || decide (24 ≤ q.length) }
    if room then s.dramPut g mask data else s

/-- A queued write has left, and the first that stalled enters the queue. -/
def State.admitWrite (s : State) (n : Nat) : State :=
  let c := s.chanOf n
  match c.writes[31]? with
  | some w =>
    ({ s with dmc := { s.dmc with seq := s.dmc.seq + 1 } }.setChan n
      { c with writes := c.writes.set 31 { w with seq := s.dmc.seq, data := s.dramRead w.addr 64 } }).dramPut w.addr w.mask w.data
  | none => s

/-- DRAM_WRITE_REQUEST: real-time ports only read; a write to a dead granule is discarded. DEDUCED, log entry 79. -/
def effDramWrite (req addr : Nat) (data : List Nat) (s : State) : State :=
  if realTime req then s
  else
    (pieces addr data.length).foldl (fun s p =>
      let g := p.1 / 64 * 64
      if s.localDead p.1 p.2 then s
      else s.writeGranule req g (granuleMask g p.1 p.2)
        (List.replicate (p.1 - g) 0 ++ (data.drop (p.1 - addr)).take p.2 ++ List.replicate (g + 64 - p.1 - p.2) 0)) s

def execDramWriteRequest (req addr : Nat) (data : List Byte) (s : State) : Host.Outcome State Fault Refusal :=
  s.done (effDramWrite req addr (data.map BitVec.toNat) s)

/-! ## DRAM_SCHEDULE (R245 to R247, R253, R256) -/

/-- A throttled requester's activates to a bank are THRIV ns apart (R256); the uptime at which a request may be served. -/
def State.servableAt (s : State) (n : Nat) (c : DmcCh) (r : DmcReq) : Nat :=
  let free := (c.busy.lookup r.bank).getD 0
  let t := (c.throttle.find? fun t => t.1 == r.req && t.2.1 == r.bank).map fun t => t.2.2 + s.get (F.dmcChRhcfgThriv n)
  if c.isOpen r then free else max free (t.getD 0)

/-- Requests of the channel with their rank: panic reads 1, other real-time reads 2, the rest 3. Writes are among them while they drain
continuously, or while no real-time read is queued but one that waits for a write; while they drain, non-real-time reads come after them
(R245, R247). DEDUCED, log entry 82. -/
def State.candidates (s : State) (c : DmcCh) : List (Nat × DmcReq) :=
  let reads := c.visibleReads.filter fun r => !c.blockedRead r
  let rd := reads.map fun r => (if realTime r.req then s.rank r else if c.draining then 4 else 3, r)
  if c.draining || reads.all fun r => !realTime r.req then rd ++ c.queue.map fun w => (3, w) else rd

/-- The bank served first among those with a candidate of the best rank: the first after the last activated one. -/
def pickBank (last : Nat) (banks : List Nat) : Option Nat :=
  ((List.range 16).map fun i => (last + 1 + i) % 16).find? fun b => banks.contains b

/-- The oldest of some requests. -/
def oldestReq (rs : List DmcReq) : Option DmcReq :=
  rs.foldl (fun (a : Option DmcReq) r => match a with
    | none => some r
    | some x => if r.seq < x.seq then some r else some x) none

/-- The request of a bank: the oldest, or the oldest row hit while fewer than four hits have gone ahead of it. -/
def DmcCh.pick (c : DmcCh) (bank : Nat) (rs : List DmcReq) : Option (DmcReq × Bool) :=
  let run := (c.hits.lookup bank).getD 0
  match oldestReq rs, oldestReq (rs.filter c.isOpen) with
  | none, _ => none
  | some o, some h => if h.seq = o.seq then some (o, false) else if run < 4 then some (h, true) else some (o, false)
  | some o, none => some (o, false)

/-- A request is served: its row is accessed and its data moves (R246). A CONTROL granule that is read, a partial write's too, shows its
single-bit errors (R263, R264). -/
def State.serve (s : State) (n : Nat) (ce : List Nat) (r : DmcReq) (ahead : Bool) : State :=
  let s := s.rowAccess n r
  let c := s.chanOf n
  let c := { c with
    reads := c.reads.filter (fun x => x.seq != r.seq), writes := c.writes.filter (fun x => x.seq != r.seq)
    hits := (r.bank, if ahead then (c.hits.lookup r.bank).getD 0 + 1 else 0) :: c.hits.filter (fun e => e.1 != r.bank) }
  let s := s.setChan n { c with draining := c.draining && decide (8 < c.writes.length) }
  let s := if r.mask = 0 then ((s.reply r.req r.addr r.data false).deliver r.req).admitReads n c.reads.length else s.admitWrite n
  let s := s.checkAccess r.req r.addr
  if r.mask = 2 ^ 64 - 1 then s else s.corrected n r.addr ce

/-- The request of best rank among those that the channel may serve now. -/
def State.serveBest (s : State) (n : Nat) (ce : List Nat) : State :=
  let c := s.chanOf n
  let cs := (s.candidates c).filter fun e => s.servableAt n c e.2 ≤ s.time.uptime
  let best := cs.foldl (fun a e => min a e.1) 5
  let rs := (cs.filter fun e => e.1 == best).map (·.2)
  match (pickBank c.lastAct (rs.map (·.bank))).bind fun b => c.pick b (rs.filter fun r => r.bank == b) with
  | none => s
  | some (r, ahead) => (s.serve n ce r ahead).settleRefresh n 16

/-- The next refresh of a forced burst (R253). -/
def State.forceRefresh (s : State) (n : Nat) : State :=
  let owed := s.get (F.dmcChStatusOwed n)
  let s := (s.issueRefresh n).put (F.dmcChStatusOwed n) (owed - 1)
  s.setChan n { s.chanOf n with burst := decide (4 < owed - 1), burstAt := s.time.uptime }

/-- Uptime of the next instant at which the channel can serve one of its requests. -/
def State.nextServable (s : State) (n : Nat) : Option Nat :=
  let c := s.chanOf n
  (s.candidates c).foldl (fun (a : Option Nat) e => some (min (a.getD (s.servableAt n c e.2)) (s.servableAt n c e.2))) none

/-- One command of a channel that runs: a forced refresh when its instant has come (R253), else the request of best rank; with none that
can be served, the next of both instants comes. DEDUCED, log entry 81. -/
def State.oneCommand (s : State) (n : Nat) (ce : List Nat) : State :=
  let c := s.chanOf n
  let forced := if c.burst then some (c.burstAt + s.get F.dmcRefcfgTpbr) else none
  match s.nextServable n, forced with
  | none, none => s
  | some t, none => (s.elapseTo t).serveBest n ce
  | none, some f => (s.elapseTo f).forceRefresh n
  | some t, some f =>
    let s := s.elapseTo (min t f)
    if f ≤ s.time.uptime then s.forceRefresh n else s.serveBest n ce

/-- DRAM_SCHEDULE: a command opportunity; a channel leaving self-refresh reaches it when its exit ends. DEDUCED, log entry 81. -/
def effSchedule (n : Nat) (ce : List Nat) (port taken : Nat) (s : State) : State :=
  let busy := match s.dmc.change with | some k => k.2.2 | none => false
  if !s.chanRuns n || s.flag (F.dmcChStatusSelfref n) || busy then s
  else
    let s := match (s.chanOf n).wakeAt with
      | some t => (s.elapseTo t).setChan n { s.chanOf n with wakeAt := none }
      | none => s
    let s := if realTime port then (s.setPort port ((s.portOf port).1, (s.portOf port).2 - taken)).portPanic port else s
    let s := s.xbarSettle (n / 4)
    (s.xbarWait (n / 4) n (s.xbarNeed (n / 4))).oneCommand n ce

def execDramSchedule (ch : Nat) (ce : List Nat) (port taken : Nat) (s : State) : Host.Outcome State Fault Refusal :=
  s.done (effSchedule ch ce port taken s)

/-- RH_WINDOW_END (R256): the window of RHWIN µs ends and the next one begins. -/
def effRhWindow (n : Nat) (s : State) : State :=
  if s.part.channels ≤ n then s
  else
    let s := s.elapseTo ((s.chanOf n).winAt + 1000 * max 1 (s.get (F.dmcChRhwinUs n)))
    s.setChan n { s.chanOf n with acts := [], throttle := [], winAt := s.time.uptime }

def execRhWindowEnd (ch : Nat) (s : State) : Host.Outcome State Fault Refusal := s.done (effRhWindow ch s)

/-- MR4_READ (R252, R253): MR4IV µs after the last one. A channel that enters doubled refresh counts its halved interval from here, and
issues the first of its forced refreshes. DEDUCED, log entry 150. -/
def effMr4 (n : Nat) (hot : Bool) (s : State) : State :=
  if !s.chanRuns n then s
  else
    let s := s.elapseTo ((s.chanOf n).mr4At + 1000 * max 1 (s.get F.dmcMr4ivUs))
    let s := s.setChan n { s.chanOf n with mr4At := s.time.uptime }
    if s.flag (F.dmcChStatusHot n) == hot then s
    else
      let s := s.put (F.dmcChStatusHot n) (ofBool hot)
      let any := (List.range s.part.channels).any fun k => s.flag (F.dmcChStatusHot k)
      let s := (s.put F.dmcStatusHot (ofBool any)).raise (F.dmcChEventTempHigh n) (654 + 4 * n)
      let s := if hot then s.setChan n { s.chanOf n with refAt := s.time.uptime } else s
      if hot && 4 < s.get (F.dmcChStatusOwed n) then
        (s.forceRefresh n).raise (F.dmcChEventRefForced n) (654 + 4 * n)
      else s

def execMr4Read (ch : Nat) (hot : Bool) (s : State) : Host.Outcome State Fault Refusal := s.done (effMr4 ch hot s)

/-! ## Eye-scan captures (R259) -/

/-- Points a capture takes. -/
def State.capturePoints (s : State) : Nat :=
  let a := s.get F.dmcTrainrngFrom
  let b := s.get F.dmcTrainrngTo
  if b < a then 0 else min 64 ((b - a) / max 1 (s.get F.dmcTrainrngStep) + 1)

/-- TRAINCAP_START: a write to DMC.TRAINCAP; a frozen controller starts no capture (R265). -/
def effTraincap (value : Word) (s : State) : State :=
  let s := s.store Reg.dmcTraincap value
  if !bit value.toNat 0 || s.flag F.dmcTraincapBusy || s.frozen then s
  else if s.dmc.change.isSome then ((s.put F.dmcTraincapAborted 1).put F.dmcTraincapDone 0).put F.dmcTraincapPts 0
  else
    let n := s.get F.dmcTraincapCh
    let s := (((s.put F.dmcTraincapBusy 1).put F.dmcTraincapDone 0).put F.dmcTraincapAborted 0).put F.dmcTraincapPts 0
    { s.exitSelfref n with dmc := { (s.exitSelfref n).dmc with capture := some (n, s.capturePoints) } }

def execTraincapStart (agent : Nat) (value : Word) (s : State) : Host.Outcome State Fault Refusal :=
  s.done (s.guardWrite agent Reg.dmcTraincap (effTraincap value))

/-- A capture ends with `pts` points completed: their results are measured values. DESIGN CHOICE, log entry 84. -/
def State.endCapture (s : State) (n pts : Nat) (aborted : Bool) : State :=
  let s := (List.range pts).foldl (fun s k =>
    s.tick.wr (Reg.dmcTrainres k) (Config.freeWord s.fresh &&& 0xFFFFFF)) s
  let s := { s with dmc := { s.dmc with capture := none } }
  let s := ((s.put F.dmcTraincapBusy 0).put F.dmcTraincapPts pts)
  let s := if aborted then s.put F.dmcTraincapAborted 1 else s.put F.dmcTraincapDone 1
  s.raise (F.dmcChEventTraincapDone n) (656 + 4 * n)

/-- TRAINCAP_DONE. DESIGN CHOICE, log entry 84. -/
def effTraincapDone (s : State) : State :=
  match s.dmc.capture with
  | none => s
  | some (n, pts) => if s.frozen then s else s.endCapture n pts false

def execTraincapDone (s : State) : Host.Outcome State Fault Refusal := s.done (effTraincapDone s)

/-! ## The freeze (R265) -/

/-- Reads pending at a freeze are answered with poison, but for the real-time ports'; writes not yet sent are discarded, and their granules
keep what they held. DEDUCED, log entry 86. -/
def State.poisonPending (s : State) (n : Nat) : State :=
  let c := s.chanOf n
  let s := (c.reads.filter fun r => !realTime r.req).foldl (fun s r => s.reply r.req r.addr (List.replicate 64 0) true) s
  let s := c.queue.foldl (fun s w => s.dramPut w.addr w.mask w.data) s
  s.setChan n { c with reads := [], writes := [], draining := false, burst := false }

/-- Reads waiting at a region's crossbar are answered alike. -/
def State.poisonXbar (s : State) (r : Nat) : State :=
  let x := s.xbarOf r
  let s := (x.waiting.filter fun q => !realTime q.req).foldl (fun s q => s.reply q.req q.addr (List.replicate 64 0) true) s
  s.setXbar r { x with waiting := [] }

/-- DMC_FREEZE: cause 1 uncorrectable, 2 command-path parity; `ch` none for an error that no channel owns. DEDUCED, log entry 86. -/
def effFreeze (cause : Nat) (ch : Option Nat) (req cmd addr : Nat) (s : State) : State :=
  if s.frozen then s
  else
    let s := (s.put F.dmcStatusFrozen 1).put F.dmcFreezeFrozen 1
    let s := (s.put F.dmcFreezeCause cause).put F.dmcFreezeChvalid (ofBool ch.isSome)
    let s := s.put F.dmcFreezeCh (ch.getD 0)
    let plain := cmd == 1 || cmd == 2
    let s := s.put F.dmcFreezeReq (if ch.isNone || !plain then 0x3F else req)
    let s := s.put F.dmcFreezeCmd cmd
    let s := (s.wr64 Reg.dmcFreezeAddrLo (if plain then addr else 0)).wr64 Reg.dmcFreezeStampLo s.now
    let s := s.raise (F.dmcChEventDmcFreeze (ch.getD 0)) (653 + 4 * ch.getD 0)
    let s := (List.range s.part.sectors).foldl State.poisonXbar ((List.range s.part.channels).foldl State.poisonPending s)
    let s := { s with dmc := { s.dmc with capture := none, change := none } }
    s.enterDusk F.pwrStatusDuskFrz

def execDmcFreeze (cause : Nat) (ch : Option Nat) (req cmd addr : Nat) (s : State) : Host.Outcome State Fault Refusal :=
  s.done (effFreeze cause ch req cmd addr s)

end Sys2Proof.Machine
end

