-- ==== Sys2Proof/Machine/HostMem.lean ====
section
/-! DEFINITION. Host memory as the device reaches it (R272 to R281, R286): read trackers, CXL.cache reads and writes, CXL.io requests, and
requests held while the link is down. -/

namespace Sys2Proof.Machine

/-- A request to the host leaves while the link is in L0, and is held until it is (R272). -/
def State.sendHost (s : State) (m : Msg) : State :=
  if s.flag F.cxlLinkL0 then s.emit m else { s with cxl := { s.cxl with hold := s.cxl.hold ++ [m] } }

/-- Requests that waited for the link leave. -/
def State.flushHost (s : State) : State :=
  let s' := s.cxl.hold.foldl State.emit s
  { s' with cxl := { s'.cxl with hold := [] } }

/-- CXL_RDERR (R278): kind 0 layer fetch, 1 writeback, 2 blitter. -/
def State.cxlRderr (s : State) (layer : Option Nat) (kind addr : Nat) : State :=
  let s := ((s.put F.cxlRderrLayer (layer.getD 0)).put F.cxlRderrLvalid (ofBool layer.isSome)).put F.cxlRderrKind kind
  (s.wr64 Reg.cxlRderrAddrLo addr).raise F.cxlEventCxlRderr 720

/-! ## Reads (R274, R277) -/

/-- Trackers reserved for a sector (R274). -/
def State.cxlReserved (s : State) : Nat := 1024 / s.part.sectors

/-- LAT; 0 acts as 1. -/
def State.cxlLat (s : State) : Nat := max 1 (s.get F.cxlRtcfgLat)

/-- A tracker for a read, if one is free: false reserved, true shared. DEDUCED, log entry 88. -/
def State.cxlTracker (s : State) (r : CxlRead) : Option Bool :=
  let mine := (s.cxl.reads.filter fun x => x.rt && !x.shared && x.sector == r.sector).length
  let shared := (s.cxl.reads.filter (·.shared)).length
  if r.rt && mine < s.cxlReserved then some false else if shared < 256 then some true else none

/-- Waiting reads are issued, in order, while each finds a tracker; looking at `n`. DEDUCED, log entry 88. -/
def State.cxlIssue (s : State) : Nat → State
  | 0 => s
  | n + 1 =>
    match s.cxl.queue.find? fun r => (s.cxlTracker r).isSome with
    | none => s
    | some r =>
      match s.cxlTracker r with
      | none => s
      | some sh =>
        let s := { s with cxl := { s.cxl with
          queue := s.cxl.queue.filter fun x => x.tag != r.tag
          reads := s.cxl.reads ++ [{ r with shared := sh, issued := s.time.uptime }] } }
        (s.sendHost (.cxlRead r.tag r.addr r.rt)).cxlIssue n

/-- A read of a granule joins the queue. -/
def State.cxlAsk (s : State) (r : CxlRead) : State :=
  { s with cxl := { s.cxl with queue := s.cxl.queue ++ [{ r with tag := s.cxl.tag }], tag := s.cxl.tag + 1 } }

/-- Reads of several granules, by address ÷ 64, all alike but for their address. -/
def State.cxlAskAll (s : State) (r : CxlRead) (gs : List Nat) : State :=
  (gs.foldl (fun s g => s.cxlAsk { r with addr := 64 * g }) s).cxlIssue gs.length

/-- A read of the granule for the same purpose has not ended. -/
def State.cxlAsked (s : State) (r : CxlRead) (g : Nat) : Bool :=
  (s.cxl.reads ++ s.cxl.queue).any fun x => x.addr == 64 * g && x.use == r.use && x.key == r.key && x.group == r.group

/-- LATMAX and CXL_LATEXCEED of a real-time read that ends now, with its data, poison or an error (R277). DEDUCED, log entry 88. -/
def State.cxlLatency (s : State) (r : CxlRead) : State :=
  if !r.rt then s
  else
    let d := s.time.uptime - r.issued
    let s := s.put F.cxlRtstatLatmax (max (s.get F.cxlRtstatLatmax) (satAt 65535 d))
    let again := match s.cxl.latSeen with
      | some t => decide (s.time.uptime < t + r.bandTime)
      | none => false
    if s.cxlLat < d && !again then
      ({ s with cxl := { s.cxl with latSeen := some s.time.uptime } }).raise F.cxlEventCxlLatexceed 719
    else s

/-! ## Writes (R273, R281, R286) -/

/-- A CXL.cache write, granule by granule; each is outstanding until its global-observation response. -/
def State.cacheWrite (s : State) (use : CxlUse) (tick phase a : Nat) (bs : List Nat) : State :=
  (pieces a bs.length).foldl (fun s p =>
    let x := (bs.drop (p.1 - a)).take p.2
    let tag := s.cxl.tag
    let w : CxlWrite := ⟨tag, p.1, use, tick, phase⟩
    let s := { s.hostSee p.1 x with cxl := { s.cxl with tag := tag + 1, writes := s.cxl.writes ++ [w] } }
    s.sendHost (.cxlWrite tag p.1 (p.2 == 64) x)) s

/-- Some CXL.cache write of a use is not visible yet. -/
def State.writing (s : State) (use : CxlUse) : Bool := s.cxl.writes.any fun w => w.use == use

/-- A CXL.io write of a function; its bus address is no address of a CXL.cache read (R286). -/
def State.ioWrite (s : State) (func a : Nat) (bs : List Nat) : State := s.sendHost (.ioWrite func a bs)

end Sys2Proof.Machine
end

