-- ==== Sys2Proof/Machine/Tick.lean ====
section
/-! DEFINITION. Device time and its discipline (R33 to R45), ticks, phases and structure commits up to validation (R46 to R53),
SHUTSYNC outputs (R54 to R56). -/

namespace Sys2Proof.Machine

/-! ## The discipline of DEVTIME -/

/-- The source steering: TSTAT.ACTIVE, 1 PTP, 2 genlock, 3 none. DEDUCED, log entry 29. -/
def State.activeSource (s : State) : Nat := s.get F.tickTstatActive

/-- A value that moves from `c` to `c'` by at most `d`. -/
def slew (c c' : Int) (d : Nat) : Int := if c ≤ c' then min c' (c + d) else max c' (c - d)

/-- The correction in force: on its way to the servo's value at 1 ppm per millisecond (R36), and in FREE back to zero at 1 ppm per
second (R37). DESIGN CHOICE, log entry 30. -/
def State.corrNow (s : State) : Int :=
  let d := s.time.uptime - s.time.corrAt
  slew s.time.corrFrom s.time.corr (if s.time.corrSlow then d / 1000 else d)

/-- The correction starts to move from where it is to `c`, at 1 ppm per second when `slow`. -/
def State.corrTo (s : State) (c : Int) (slow : Bool := false) : State :=
  { s with time := { s.time with corrFrom := s.corrNow, corr := c, corrAt := s.time.uptime, corrSlow := slow } }

/-- The correction under the device's own discipline state, from the instant at which a change of role makes that state count: back to
zero in FREE, held in HOLDOVER (R35, R37, R429). -/
def State.ownCorr (s : State) : State :=
  if s.standby then s
  else match s.get F.tickTstatState with
    | 0 => s.corrTo 0 true
    | 3 => s.corrTo s.corrNow
    | _ => s

/-- A new correction to move to, of at most 100 ppm; both synthesizers get it (R36). Which one the servo takes is a free value.
DESIGN CHOICE, log entry 30. -/
def State.servo (s : State) : State :=
  s.tick.corrTo ((Config.freeNat s.fresh : Int) % 200000001 - 100000000)

/-- A new discipline state (R35); the correction is held on entry to HOLDOVER and starts back to zero on entry to FREE (R37). A paired
standby's own state has no part in its DEVTIME (R429). -/
def State.toTimeState (s : State) (st : Nat) : State :=
  let s := if s.get F.tickTstatState = st || s.standby then s else match st with
    | 0 => s.corrTo 0 true
    | 3 => s.corrTo s.corrNow
    | _ => s.corrTo s.time.corr
  s.setTimeState st

/-- HOLDOVER is entered: it lasts TSRC.HOLD seconds, for ever when 0 (R37). HOLD is read at the entry: a write to it during holdover
does not move the end. DESIGN CHOICE, log entry 133. -/
def State.enterHoldover (s : State) : State :=
  if s.get F.tickTstatState = 3 then s
  else
    let h := s.get F.tickTsrcHold
    let s := { s with time := { s.time with holdEnd := if h = 0 then none else some (s.now + h * 1000000000) } }
    s.toTimeState 3

/-- A source is locked: 16 consecutive measurements in a row kept within ±100 ns of the source, or, for a source that is monitored
only, of one another. DESIGN CHOICE, log entry 158. -/
def State.sourceLocked (s : State) (src : Nat) : Bool :=
  16 ≤ (if src = 1 then s.time.ptp.run else s.time.gl.run)

/-- The source with a new measurement takes over (the SELECT table, R38): under AUTO from none, PTP from genlock once PTP is locked, and
genlock, once it is locked, from a PTP that is neither LOCKED nor on its way there after a takeover. DEDUCED, log entry 29. -/
def State.takesOver (s : State) (src : Nat) : Bool :=
  let act := s.activeSource
  match s.get F.tickTsrcSelect with
  | 0 => act == src || act == 3 || act == 0 || (src == 1 && s.sourceLocked 1) ||
      (src == 2 && s.get F.tickTstatState != 2 && !s.time.handover && s.sourceLocked 2)
  | sel => sel == src

/-- A source that TSRC.SELECT lets steer is present (R35, R42). -/
def State.maySteer (s : State) (src : Nat) : Bool :=
  (s.get F.tickTsrcSelect == 0 || s.get F.tickTsrcSelect == src) &&
    (if src = 1 then s.time.ptp.master.isSome
     else s.time.gl.last.isSome && s.get F.tickGlcfgType != 0 && !s.flag F.tickGlstatMismatch)

/-- The run of a source after a measurement of `off`: the one that steers counts those within ±100 ns (R35), another those within
±100 ns of the one before, `prev`. DESIGN CHOICE, log entry 158. -/
def State.runAfter (s : State) (src : Nat) (run : Nat) (off prev : Int) : Nat :=
  let d := if s.activeSource = src then off else off - prev
  if d.natAbs ≤ 100 then run + 1 else 0

/-- The run of a source, set. -/
def State.setRun (s : State) (src n : Nat) : State :=
  { s with time := { s.time with
      ptp := if src = 1 then { s.time.ptp with run := n } else s.time.ptp
      gl := if src = 2 then { s.time.gl with run := n } else s.time.gl } }

/-- TPHASE is written by hardware so that tick boundaries move by `d` (R43). -/
def State.hwTphase (s : State) (d : Int) : State :=
  let p := s.time.tphase + d
  let s := s.wr Reg.tickTphase (BitVec.ofInt 32 p)
  { s with time := { s.time with tphase := p } }

/-- The next tick boundary is the first after now, and each head's next frame latch is that tick's. DEDUCED, log entry 32. TICKNUM
keeps its index until that boundary. DESIGN CHOICE, log entry 134. -/
def State.retarget (s : State) : State :=
  let k := s.tickAtOrAfter (s.now + 1)
  let s := { s with time := { s.time with nextTick := k } }
  s.allHeads.foldl (fun s h => s.setHead h { s.headOf h with latchTick := k }) s

/-- A measurement of the offset (source minus device, ns) of the source that steers (R35 to R39). DEDUCED, log entry 29. FAULT stays
set when the offset comes back to 1 ms or less: only the step of R40 clears it. DESIGN CHOICE, log entry 135. -/
def State.steer (s : State) (src : Nat) (off : Int) : State :=
  let s := s.put F.tickTstatOfsUs (satAt 0xFFF (off.natAbs / 1000))
  -- R429: the standby shows its own source and does not steer by it.
  if s.standby then (s.put F.tickTstatActive src).setTimeState (if s.sourceLocked src then 2 else 1)
  else
  let fresh := s.activeSource != src || s.get F.tickTstatState == 0 || s.get F.tickTstatState == 3
  let big := decide (1000000 < off.natAbs)
  -- R43: the TPHASE write at entry to ACQUIRE while no head transmits.
  let place := src = 2 && fresh && !s.anyTransmitting
  if big && s.time.ticked && !place then
    let s := { (s.put F.tickTstatFault 1) with time := { s.time with faultSrc := src, faultOfs := off } }
    let s := s.signal 942
    s.enterHoldover
  else
    let s := if place then (s.hwTphase (-off)).retarget
      else if big then (if src = 2 then (s.hwTphase (-off)).retarget else (s.stepBy off).retarget)
      else s
    let s := if big then s.setRun src 0
      else if fresh then s.setRun src (if off.natAbs ≤ 100 then 1 else 0) else s
    let act := s.activeSource
    let s := (s.put F.tickTstatActive src).servo
    let locked := s.sourceLocked src
    let s := { s with time := { s.time with handover := !locked && (act == 3 - src || (act == src && s.time.handover)) } }
    s.toTimeState (if locked then 2 else 1)

/-- The source is lost (R37), or no longer a source that may steer (R42). DEDUCED, log entry 29. -/
def State.loseSource (s : State) (src : Nat) : State :=
  if s.activeSource = src then
    let s := { (s.put F.tickTstatActive 3) with time := { s.time with handover := false } }
    if s.get F.tickTstatState = 2 then s.enterHoldover
    else if s.get F.tickTstatState = 1 then s.toTimeState 0 else s
  else s

/-- Distance from an instant to the nearest tick boundary (R43). DEDUCED, log entry 31. -/
def State.nearestTick (s : State) (t : Int) : Int :=
  let k := s.tickAtOrAfter t.toNat
  let a := s.tickT k - t
  let b := s.tickT (k - 1) - t
  if a.natAbs ≤ b.natAbs then a else b

/-- The genlock offset: from GLOFS after the reference at `ref` to the nearest tick boundary (R43). -/
def State.genlockOffset (s : State) (ref : Nat) : Int :=
  s.nearestTick ((ref : Int) + signed 24 (s.get F.tickGlcfgGlofs))

/-- The frame reference period the input must have (R42). -/
def State.genlockPeriod (s : State) : Nat := tickPeriod s.time.ts.rate * (1 + s.get F.tickGlcfgMult)

/-- One or two references are missing from an interval `p` between valid ones: it spans two or three frame periods, and the interval
before it did not (R37). DEDUCED, log entry 31. -/
def State.refsMissing (s : State) (p : Nat) : Bool :=
  let n := (2 * p + s.genlockPeriod) / (2 * s.genlockPeriod)
  (n == 2 || n == 3) && !s.time.gl.sparse

/-- GENLOCK_FRAME_REFERENCE. A malformed or missing reference supplies no measurement: the reference after it measures no period.
DEDUCED, log entry 31. -/
def effGenlock (ok : Bool) (s : State) : State :=
  if s.get F.tickGlcfgType = 0 then s
  else if !ok then
    { s with time := { s.time with gl := { s.time.gl with missed := s.time.gl.missed + 1, gap := true } } }
  else
    let ref := s.now
    let sparse := !s.time.gl.gap && (s.time.gl.last.map fun y => s.refsMissing (ref - y)).getD false
    let period := if s.time.gl.gap || sparse then none else s.time.gl.last.map (ref - ·)
    let first := s.time.gl.last.isNone
    let s := { s with time := { s.time with gl := { s.time.gl with last := some ref, missed := 0, gap := false, sparse := sparse } } }
    let s := s.put F.tickGlstatPresent 1
    let d := max (-2147483648) (min 2147483647 (s.nearestTick ref))
    let s := s.put F.tickGldiffDiff (unsigned 32 d)
    if first then s
    else
      let bad := match period with
        | some p => decide (100 * s.genlockPeriod < ((p : Int) - s.genlockPeriod).natAbs * 1000000)
        | none => s.flag F.tickGlstatMismatch
      let s := match period with
        | some p => (s.put F.tickGlstatPeriod (satAt 0xFFFFFF (p / 16))).put F.tickGlstatMismatch (ofBool bad)
        | none => s
      if bad then
        let s := if period.isSome then s.signal 943 else s
        (s.setRun 2 0).loseSource 2
      else
        let off := s.genlockOffset ref
        let run := s.runAfter 2 s.time.gl.run off s.time.gl.offset
        let s := { s with time := { s.time with gl := { s.time.gl with offset := off, run := run } } }
        if s.takesOver 2 then s.steer 2 off else s

def execGenlockFrameReference (ok : Bool) (s : State) : Host.Outcome State Fault Refusal := s.done (effGenlock ok s)

/-- 2^n seconds in ns, for a signed n. -/
def pow2ns (n : Int) : Nat := if 0 ≤ n then 1000000000 * 2 ^ n.toNat else 1000000000 / 2 ^ (-n).toNat

/-- SOURCE_LOST: the limit of R37 runs out. PTPCFG.ANN_TO counts as it stands, also at 0 and 1. DESIGN CHOICE, log entry 167. -/
def effSourceLost (src : Nat) (s : State) : State :=
  if src = 1 then
    match s.time.ptp.master with
    | none => s
    | some _ =>
      let a := s.time.ptp.lastAnnounce + s.get F.tickPtpcfgAnnTo * pow2ns s.time.ptp.annLog
      let t := match s.time.ptp.lastSync with
        | some y => min a (y + 8 * pow2ns s.time.ptp.syncLog)
        | none => a
      let s := s.advanceTo t
      let s := { s with time := { s.time with
        ptp := { PtpClock.init with reqSeq := s.time.ptp.reqSeq, foreign := s.time.ptp.foreign } } }
      s.loseSource 1
  else
    match s.time.gl.last with
    | none => s
    | some y =>
      let s := if s.time.gl.missed < 3 then
          s.advanceTo (y + 3 * s.genlockPeriod) else s
      let s := { s with time := { s.time with gl := Genlock.init } }
      let s := ((s.put F.tickGlstatPresent 0).put F.tickGlstatMismatch 0).put F.tickGldiffDiff 0
      s.loseSource 2

def execSourceLost (source : Nat) (s : State) : Host.Outcome State Fault Refusal := s.done (effSourceLost source s)

/-- HOLDOVER_END (R37): the state becomes FREE. -/
def effHoldoverEnd (s : State) : State :=
  match s.time.holdEnd with
  | none => s
  | some t =>
    if s.get F.tickTstatState = 3 then
      let s := s.advanceTo t
      ({ s with time := { s.time with holdEnd := none } }).toTimeState 0
    else s

def execHoldoverEnd (s : State) : Host.Outcome State Fault Refusal := s.done (effHoldoverEnd s)

/-- A source other than the active one is selected and present: ACQUIRE (R35), with the TPHASE write of R43 for a genlock input. -/
def State.acquire (s : State) (src : Nat) : State :=
  let s := match s.time.gl.last with
    | some ref => if src = 2 && !s.anyTransmitting && !s.standby then (s.hwTphase (-(s.genlockOffset ref))).retarget else s
    | none => s
  let s := { (s.put F.tickTstatActive src) with time := { s.time with handover := false } }
  (s.setRun src 0).toTimeState 1

/-- A write to TICK.TSRC that changes SELECT: 3 ends steering in FREE; another source than the active one is acquired when it is present,
and else nothing steers; AUTO keeps the source that steers (R35, R38). DESIGN CHOICE, log entry 136. -/
def State.writeTsrc (s : State) (value : Word) : State :=
  let was := s.get F.tickTsrcSelect
  let s := s.store Reg.tickTsrc value
  let sel := s.get F.tickTsrcSelect
  if sel = was || sel = 0 || (sel == s.activeSource && sel != 3) then s
  else if sel != 3 && s.maySteer sel then s.acquire sel
  else ({ (s.put F.tickTstatActive 3) with time := { s.time with handover := false } }).toTimeState 0

/-- STEP (R40): the write of TICK.TCTL.STEP, ignored while FAULT is clear. DEDUCED, log entry 25. -/
def effStep (value : Word) (s : State) : State :=
  if bit value.toNat 0 && s.flag F.tickTstatFault then s.put F.tickTctlStep 1 else s

/-- The step of R40 at a tick boundary. For a genlock source it is a hardware write of TPHASE (R43), which STEPS counts and TIME_STATE
reports as a step; the TPHASE write at entry to ACQUIRE, or before the first tick, is counted as none. DESIGN CHOICE, log entry 137. A
source lost or deselected since is stepped to by the offset that set FAULT, and steers no more. DESIGN CHOICE, log entry 168. -/
def State.doStep (s : State) : State :=
  if !s.flag F.tickTctlStep then s
  else
    let s := (s.put F.tickTctlStep 0).put F.tickTstatFault 0
    let src := s.time.faultSrc
    let here := s.maySteer src
    let off := if !here then s.time.faultOfs else if src = 2 then s.time.gl.offset else s.time.ptp.offset
    let s := if src = 2 then ((s.hwTphase (-off)).bump F.tickTstatSteps).signal 941 else s.stepBy off
    let s := if !here then s
      else
        let s := { (s.put F.tickTstatActive src) with time := { s.time with
          holdEnd := none, ptp := { s.time.ptp with run := 0 }, gl := { s.time.gl with run := 0 }, handover := false } }
        s.toTimeState 1
    (s.retimeAll s.now).renumber s.now

/-! ## TPHASE and tick structures -/

/-- TPHASE_WRITE: ignored under genlock discipline; in force from the next tick boundary, or with an armed change of rate.
DEDUCED, log entry 28. -/
def effTphaseWrite (value : Word) (s : State) : State :=
  if s.activeSource = 2 then s
  else
    let s := s.wr Reg.tickTphase value
    { s with time := { s.time with tphasePend := some value } }

/-- The structure deadline of tick m for an armed structure `ts` (R50): the boundary is that of the numbering in force, and each
head's frame latch is reckoned from it under the structure in force and under `ts`. -/
def State.structDeadline (s : State) (ts : TickStruct) (m : Nat) : Int :=
  s.txHeads.foldl (fun (e : Int) h =>
    min e (min (s.frameLatchIn s.time.ts h m) (s.frameLatchIn ts h m))) (s.tickT m) - 4000

/-- The first tick boundary from `m` on whose structure deadline lies after `w`, looking at `n` boundaries. -/
def State.structTarget (s : State) (ts : TickStruct) (w : Nat) : Nat → Nat → Nat
  | 0, m => m
  | n + 1, m => if (w : Int) < s.structDeadline ts m then m else s.structTarget ts w n (m + 1)

/-- STRUCT_ARM (R49, R50): the staging copy is armed and validation starts. DEDUCED, log entries 25, 33. -/
def effStructArm (value : Word) (s : State) : State :=
  if !bit value.toNat 1 then s
  else if s.busy.isSome || s.flag F.tickTstructStatBusy then
    (s.put F.tickTstructStatOverrun 1).signal 944
  else
    let ts := s.stagedTick
    let m := s.structTarget ts s.now 256 s.time.nextTick
    let late := m != s.time.nextTick
    let s := { s with time := { s.time with armed := some ⟨ts, s.now, m, late, false⟩ } }
    let s := s.put F.tickTctlStructArm 1
    let s := s.put F.tickTstructStatPending 1
    let s := s.put F.tickTstructStatBusy 1
    let s := s.put F.tickTstructStatOverrun 0
    let s := s.put F.tickTstructStatLate (ofBool late)
    if late then s.signal 945 else s

/-- The first tick from `t` on whose frame latch of head `h` lies at or after `e`, looking at `n` ticks. -/
def State.resumeTick (s : State) (h : Nat) (e : Int) : Nat → Nat → Nat
  | 0, t => t
  | n + 1, t => if e ≤ s.frameLatch h t then t else s.resumeTick h e n (t + 1)

/-- The current tick, or the next one while the numbering has a gap before it (R40, R52). -/
def State.tickFrom (s : State) : Nat :=
  let k := s.time.ticknum.toNat
  if s.time.nextTick = k + 1 then k else s.time.nextTick

/-- The first tick, from the current one, at which every head of a mask resumes composition after the latest rate change (R52). -/
def State.resumeAll (s : State) (mask : List Nat) : Nat :=
  mask.foldl (fun m h => max m (s.resumeTick h s.time.rateEnd 256 s.tickFrom)) s.tickFrom

/-- A commit armed at a change of rate, for the first tick at which its heads resume (R52). DEDUCED, log entries 32, 33. -/
def State.rearm (s : State) (c : Commit) : Commit := { c with target := s.resumeAll c.mask }

/-- An armed structure takes effect at the tick boundary (R50, R52). DEDUCED, log entry 32. -/
def State.structEffect (s : State) (a : ArmedStruct) : State :=
  let old := s.time.ts.rate
  let s := { s with time := { s.time with ts := a.ts, armed := none } }
  let s := (s.put F.tickTctlStructArm 0).put F.tickTstructStatPending 0
  if old = a.ts.rate then s
  else
    let s := { s with time := { s.time with
      tphase := match s.time.tphasePend with
        | some p => p.toInt
        | none => s.time.tphase
      tphasePend := none, rateEnd := (s.now : Int) + 2 * tickPeriod a.ts.rate } }
    let s := (s.retimeAll s.now).renumber s.now
    { s with accepted := s.accepted.map s.rearm, busy := s.busy.map s.rearm }

/-- The inactive level under CFG.POL is high (R54). -/
def ShutOut.pol (o : ShutOut) : Bool := bit o.cfg.toNat 2

/-- An output with no pulse in progress stands at its inactive level. -/
def ShutOut.rest (o : ShutOut) : ShutOut := if o.activeUntil.isNone then { o with level := o.pol } else o

/-- The setting of a SHUTSYNC output after the writes that are old enough at the tick boundary `t` (R56). DEDUCED, log entry 35. -/
def ShutOut.settle (o : ShutOut) (t : Nat) : ShutOut :=
  let due := o.pend.filter fun w => w.1 + 1000 ≤ t
  if due.isEmpty then o
  else
    let o : ShutOut := due.foldl (fun o w => match w.2.1 with
      | 0 => { o with cfg := w.2.2 }
      | 1 => { o with ofs := w.2.2 }
      | _ => { o with width := w.2.2 })
      { o with pend := o.pend.filter (fun w => !(decide (w.1 + 1000 ≤ t))), since := t }
    o.rest

/-- R55's limits. -/
def ShutOut.ok (o : ShutOut) (period : Nat) : Bool :=
  o.ofs.toInt.natAbs < period && 1 ≤ o.width.toNat && o.width.toNat ≤ period

/-- SHUT settings take effect at the tick boundary, and SHUTSTAT follows (R55, R56). -/
def State.shutBoundary (s : State) : State :=
  let shut := s.time.shut.map (·.settle s.now)
  let p := tickPeriod s.time.ts.rate
  let err := (List.range shut.length).foldl (fun a n =>
    if (shut.getD n ShutOut.init).ok p then a else a + 2 ^ n) 0
  { s.put F.tickShutstatCfgerr err with time := { s.time with shut := shut } }

/-- A tick has ended: each head counts the unchanged ones (R95). -/
def State.countIdle (s : State) : State :=
  s.txHeads.foldl (fun s h =>
    let x := s.headOf h
    s.setHead h { x with idle := if x.unchanged then x.idle + 1 else 0, unchanged := true }) s

/-- The time side of TICK_BOUNDARY (R40, R47, R50, R52, R56, R95). DEDUCED, log entry 28. -/
def State.boundary (s : State) : State :=
  let k := s.time.nextTick
  let s := (s.advanceTo (s.tickT k).toNat).countIdle
  let s := { s with time := { s.time with ticknum := BitVec.ofNat 64 k, nextTick := k + 1 } }
  let s := match s.time.armed with
    | some a => if a.valid && a.target ≤ k then s.structEffect a else s
    | none => s
  let s := match s.time.tphasePend with
    | some p =>
      if (match s.time.armed with | some a => a.ts.rate != s.time.ts.rate | none => false) then s
      else
        let s := { s with time := { s.time with tphase := p.toInt, tphasePend := none } }
        ((s.retimeAll s.now).blackTick s.now).retarget
    | none => s
  let s := { s with time := { s.time with recent := ⟨k, s.now, s.time.ts⟩ :: s.time.recent.take 1 } }
  s.doStep.shutBoundary

/-- DEVTIME at which the current tick began. -/
def State.tickStart (s : State) : Int := ((s.time.recent.head?).map (·.start)).getD (s.tickT s.time.ticknum.toNat)

/-- PHASE_START (R47, R68): phase `i` of the current tick starts; a head's sub-frame of that phase is the one being transmitted. -/
def effPhaseStart (i : Nat) (s : State) : State :=
  if s.time.ts.phases ≤ i then s
  else
    let p := s.tickStart + s.time.ts.ofs i
    let s := s.advanceTo p.toNat
    (s.txHeads.filter fun h => bit (s.headOf h).cfg.phmask i).foldl (fun s h =>
      s.setHead h { s.headOf h with subPhase := i, subStart := p.toNat }) s

def execPhaseStart (phase : Nat) (s : State) : Host.Outcome State Fault Refusal := s.done (effPhaseStart phase s)

/-! ## 1PPS (R45) -/

/-- PPS_OUT: the output rises at the next multiple of 10^9; no edge on a clock that has died (R63). DEDUCED, log entry 36. -/
def effPpsOut (s : State) : State :=
  if s.still then s
  else
    let t := ceilDiv s.now 1000000000 * 1000000000
    let s := s.advanceTo (if s.time.pps && t = s.now then t + 1000000000 else t)
    { s with time := { s.time with pps := true } }

def execPpsOut (s : State) : Host.Outcome State Fault Refusal := s.done (effPpsOut s)

/-- PPS_OUT_FALL: 1 ms after it rose. DEDUCED, log entry 36. Of a pulse in progress when DEVTIME is stepped the fall is reckoned from the
second of the new DEVTIME. DESIGN CHOICE, log entry 169. -/
def effPpsOutFall (s : State) : State :=
  if !s.time.pps || s.still then s
  else
    let s := s.advanceTo (s.now / 1000000000 * 1000000000 + 1000000)
    { s with time := { s.time with pps := false } }

def execPpsOutFall (s : State) : Host.Outcome State Fault Refusal := s.done (effPpsOutFall s)

/-- PPS_IN: a rising edge is stamped. DEDUCED, log entry 36. -/
def effPpsIn (s : State) : State := s.wr64 Reg.tickPpsinLo s.now

def execPpsIn (s : State) : Host.Outcome State Fault Refusal := s.done (effPpsIn s)

/-! ## SHUTSYNC (R54 to R56) -/

/-- Reference instants of an output in the tick of index `k` that starts at `t` under a structure (R54). -/
def shutRefs (o : ShutOut) (k : Nat) (t : Int) (ts : TickStruct) : List Int :=
  match wf o.cfg 0 2 with
  | 1 => [t]
  | 2 => ((List.range ts.phases).filter fun i => bit (wf o.cfg 8 8) i).map fun i => t + (ts.ofs i : Int)
  | 3 => if k % (wf o.cfg 16 4 + 1) = 0 then [t] else []
  | _ => []

/-- The ticks to come that a pulse can refer to: every one after the start of the current tick, those that a re-time leaves without a
TICKNUM among them (R54, R56), up to the one after the next. DEDUCED, log entry 35. -/
def State.ticksAhead (s : State) : List Nat :=
  let k := s.tickAtOrAfter (s.tickStart + 1).toNat
  (List.range (s.time.nextTick + 2 - k)).map (k + ·)

/-- Start of the output's next pulse: the first after the last begun that its setting in force produces (R56), from the ticks
begun and those to come. -/
def State.nextPulse (s : State) (o : ShutOut) : Option Int :=
  let refs := (s.time.recent.flatMap fun r => shutRefs o r.idx r.start r.ts) ++
    (s.ticksAhead.flatMap fun k => shutRefs o k (s.tickT k) (s.structFor k))
  let lo := max o.since (o.began + 1)
  (refs.map (· + o.ofs.toInt)).foldl (fun a t => if t < lo then a else match a with
    | none => some t
    | some u => some (min u t)) none

/-- One output of the list replaced. -/
def setShut (l : List ShutOut) (n : Nat) (o : ShutOut) : List ShutOut := l.set n o

/-- SHUTSYNC_PULSE_BEGIN: the output becomes, or stays, active until WIDTH ns later; touching pulses merge (R55); no edge on a clock that
has died (R63). DEDUCED, log entry 35. -/
def effShutBegin (n : Nat) (s : State) : State :=
  match s.time.shut[n]? with
  | none => s
  | some o =>
    if s.still || !o.ok (tickPeriod s.time.ts.rate) then s
    else match s.nextPulse o with
      | none => s
      | some t =>
        let s := s.advanceTo t.toNat
        let e := (t + o.width.toNat).toNat
        let o := { o with began := t, level := if o.activeUntil.isSome then o.level else !o.pol, activeUntil := some (match o.activeUntil with
          | some u => if t.toNat ≤ u then max u e else e
          | none => e) }
        { s with time := { s.time with shut := setShut s.time.shut n o } }

def execShutsyncPulseBegin (n : Nat) (s : State) : Host.Outcome State Fault Refusal := s.done (effShutBegin n s)

/-- SHUTSYNC_PULSE_END: the active interval ends, unless a pulse that starts by then continues it. -/
def effShutEnd (n : Nat) (s : State) : State :=
  match s.time.shut[n]? with
  | none => s
  | some o =>
    match o.activeUntil with
    | none => s
    | some e =>
      let merges := o.ok (tickPeriod s.time.ts.rate) && (match s.nextPulse o with
        | some t => decide (t ≤ e)
        | none => false)
      if merges || s.still then s
      else
        let s := s.advanceTo e
        { s with time := { s.time with shut := setShut s.time.shut n { o with activeUntil := none, level := o.pol } } }

def execShutsyncPulseEnd (n : Nat) (s : State) : Host.Outcome State Fault Refusal := s.done (effShutEnd n s)

/-- A write to SHUT[n].CFG (0), .OFS (1) or .WIDTH (2): read back at once, in force by R56. DEDUCED, log entry 35. -/
def State.shutWrite (s : State) (n r : Nat) (value : Word) : State :=
  let off := [Reg.tickShutCfg n, Reg.tickShutOfs n, Reg.tickShutWidth n].getD r 0
  let s := s.wr off value
  match s.time.shut[n]? with
  | none => s
  | some o => { s with time := { s.time with
      shut := setShut s.time.shut n { o with pend := o.pend ++ [(s.now, r, value)] } } }

end Sys2Proof.Machine
end

