-- ==== Sys2Proof/Machine/Commit.lean ====
section
/-! DEFINITION. The commit word (R77 to R80), a head's load figures (R28, R76), and the write commands of TICK. -/

namespace Sys2Proof.Machine

/-- Heads named in an agent's CMASK, present or not, ascending (R78). -/
def State.cmask (s : State) (agent : Nat) : List Nat :=
  (List.range 128).filter fun h => bit (s.rd (bank agent (Reg.tickCmask (h / 32)))).toNat (h % 32)

/-- Layer entries that a commit naming `mask` carries: staged or active owner in the mask (R77), ascending. -/
def State.carriedLayers (s : State) (mask : List Nat) : List Nat :=
  let act := s.heads.flatMap fun e => e.2.layers.map (·.1)
  (List.range 1024).filter fun i =>
    (s.touchedLayers.contains i || act.contains i) &&
    (mask.contains (s.stagedLayer i).owner || mask.contains (s.activeOwner i))

/-- Every entry that a commit naming `mask` carries, the untouched ones of head 0 too, as bits (R77). -/
def State.carriedBits (s : State) (mask : List Nat) : Nat :=
  (List.range 1024).foldl (fun a i =>
    if mask.contains (s.get (F.layerCtlOwner i)) || mask.contains (s.activeOwner i) then a + 2 ^ i else a) 0

/-- Writeback ports that a commit naming `mask` carries (R133). -/
def State.carriedPorts (s : State) (mask : List Nat) : List Nat :=
  (List.range 16).filter fun n => mask.contains (s.stagedWb n).head || mask.contains (s.wbOf n).cfg.head

/-- The earliest frame latch for tick t among the heads a snapshot names (R73, R80). DEDUCED, log entry 34. -/
def State.minFrameLatch (s : State) (heads : List (Nat × HeadCfg)) (t : Nat) : Int :=
  match heads.map fun e => min (s.frameLatch e.1 t)
      (s.frameLatchWith (s.structFor t) (s.headOf (s.latchHead e.1)).cfg [s.cloned heads e.2] t) with
  | [] => 0
  | x :: xs => xs.foldl min x

/-- t0 of R80: the first tick from t whose earliest frame latch lies at or after W, looking at n ticks. -/
def State.commitT0 (s : State) (heads : List (Nat × HeadCfg)) (w : Nat) : Nat → Nat → Nat
  | 0, t => t
  | n + 1, t => if (w : Int) ≤ s.minFrameLatch heads t then t else s.commitT0 heads w n (t + 1)

/-- The first tick whose frame latches can still be to come: the one before the current tick, whose latches PHOFS and VSTART can place
after the tick boundary, where the numbering has no gap between them (R50, R80). -/
def State.latchFrom (s : State) : Nat :=
  let k := s.time.ticknum.toNat
  if s.time.nextTick = k + 1 && s.time.recent.any (fun r => r.idx + 1 == k) then k - 1 else s.tickFrom

/-- Target tick of a commit written at W, and whether it is late (R80, R52). -/
def State.commitTarget (s : State) (heads : List (Nat × HeadCfg)) (w : Nat) : Nat × Bool :=
  let t0 := s.commitT0 heads w 256 s.latchFrom
  let late := decide (s.minFrameLatch heads t0 - 4000 ≤ (w : Int))
  let t := if late then t0 + 1 else t0
  (max t (s.resumeAll (heads.map (·.1))), late)

/-- The snapshot of the staging sets named by a mask of present heads (R77, R78), written by an agent at DEVTIME `w`. -/
def State.snapshot (s : State) (agent seq w : Nat) (mask : List Nat) : Commit :=
  let heads := mask.map fun h => (h, s.stagedHead h)
  let t := s.commitTarget heads w
  { order := s.commits + 1, agent := agent, seq := seq, written := w, target := t.1, late := t.2, mask := mask,
    heads := heads,
    layers := (s.carriedLayers mask).map fun i => (i, s.stagedLayer i),
    carries := s.carriedBits mask,
    ports := (s.carriedPorts mask).map fun n => (n, s.stagedWb n) }

/-- COMMIT (R78 to R80): the commit word of an agent. -/
def effCommit (agent : Nat) (value : Word) (s : State) : State :=
  let named := s.cmask agent
  let mask := named.filter (· < s.part.heads)
  let seq := value.toNat % 65536
  if s.busy.isSome || s.flag F.tickTstructStatBusy then
    let s := s.put (bankFld agent F.tickCstatOverrun) 1
    match mask with
    | [] => s
    | h :: _ => s.raise (F.headEventCommitOverrun h) (4 * h + 1)
  else
    let s := s.put (bankFld agent F.tickCstatOverrun) 0
    if mask.isEmpty then
      let s := if named.isEmpty then s else s.signal 950
      ((s.recordCommit agent seq 0 false none none).forward 1 [agent, value.toNat, s.now]).forward 3 [agent, seq, 0, 0]
    else
      let c := s.snapshot agent seq s.now mask
      let s := { s with commits := s.commits + 1, busy := some c }
      let s := s.put (bankFld agent F.tickCstatLate) (ofBool c.late)
      let s := if c.late then
          mask.foldl (fun s h => s.raise (F.headEventCommitLate h) (4 * h + 1)) s else s
      s.forward 1 [agent, value.toNat, c.written]

/-- A commit word that a paired standby ignores (R425): E_PROT in CSTAT and COMMIT_REJECT. -/
def blockedCommit (agent : Nat) (value : Word) (s : State) : State :=
  let mask := (s.cmask agent).filter (· < s.part.heads)
  (s.recordCommit agent (value.toNat % 65536) 7 false none none).rejectCommit mask

def execCommit (agent : Nat) (value : Word) (s : State) : Host.Outcome State Fault Refusal :=
  s.done (s.guardWrite agent Reg.tickCommit (effCommit agent value) (blockedCommit agent value))

/-- STRUCT_ARM, forwarded by a paired primary (R424). -/
def effStructArmForward (agent : Nat) (value : Word) (s : State) : State :=
  let s' := effStructArm value s
  if bit value.toNat 1 && !s.busy.isSome && !s.flag F.tickTstructStatBusy then s'.forward 2 [agent, value.toNat, s.now] else s'

def execStructArm (agent : Nat) (value : Word) (s : State) : Host.Outcome State Fault Refusal :=
  s.done (s.guardWrite agent Reg.tickTctl (effStructArmForward agent value))

def execStep (agent : Nat) (value : Word) (s : State) : Host.Outcome State Fault Refusal :=
  s.done (s.guardWrite agent Reg.tickTctl (effStep value))

def execTphaseWrite (agent : Nat) (value : Word) (s : State) : Host.Outcome State Fault Refusal :=
  s.done (s.guardWrite agent Reg.tickTphase (effTphaseWrite value))

/-! ## Load figures -/

/-- Composite rate of a sector over the sets `cfg h`, in Mpx/s rounded up (R28), at the sub-frame rate of the structure in force: so
also at a frame latch that lies before the boundary of the first tick of an armed structure. DESIGN CHOICE, log entry 138. -/
def State.compositeRate (s : State) (cfg : Nat → HeadCfg) (sector : Nat) : Nat :=
  let px := (List.range 32).foldl (fun a i =>
    let c := cfg (32 * sector + i)
    if c.en then a + c.hact * c.vact * ((List.range s.time.ts.phases).filter (bit c.phmask)).length else a) 0
  ceilDiv (px * (rateND s.time.ts.rate).1) ((rateND s.time.ts.rate).2 * 1000000)

/-- The set a head will have once every accepted commit has been taken: its armed set, else its active set. -/
def State.armedCfg (s : State) (h : Nat) : HeadCfg :=
  (s.accepted.foldl (fun (a : Nat × HeadCfg) c => match c.heads.lookup h with
    | some x => if a.1 < c.order then (c.order, x) else a
    | none => a) ((s.headOf h).order, (s.headOf h).cfg)).2

/-- TOP.SECLOAD's ARMED_RATE of every sector (R28). -/
def State.armedRates (s : State) : State :=
  (List.range s.part.sectors).foldl (fun s i =>
    s.put ⟨Reg.topSecload i, 16, 16⟩ (satAt 0xFFFF (s.compositeRate s.armedCfg i))) s

/-- TOP.SECLOAD of every sector, at a frame latch (R28). -/
def State.sectorLoads (s : State) : State :=
  (List.range s.part.sectors).foldl (fun s i =>
    s.put ⟨Reg.topSecload i, 0, 16⟩ (satAt 0xFFFF (s.compositeRate (fun h => (s.headOf h).cfg) i))) s.armedRates

/-- Latency tolerance of a head in µs (R76); a clone's follows its source's DEPTH and L (R93). -/
def State.lattolOf (s : State) (c : HeadCfg) : Nat :=
  let c := s.cloned [] c
  if c.en then
    let lt := s.lineTime c
    satAt 0xFFFF (((c.depth - c.lead) * c.bandLines * lt.num.toNat) / (lt.den * 1000))
  else 0xFFFF

end Sys2Proof.Machine
end

