-- ==== Sys2Proof/Machine/Pose.lean ====
section
/-! DEFINITION. From pose to transform (R201 to R204, R213 to R218): the record a band selects, staleness and its events, the warp
matrix and the position offset. -/

namespace Sys2Proof.Machine

/-! ## Fields of a record (R204) -/

/-- The little-endian number in bytes [a, a + n) of a record. -/
def recField (r : List Nat) (a n : Nat) : Nat := ofBytesLE ((r.drop a).take n)

/-- The binary32 field at byte `a`. -/
def recF (r : List Nat) (a : Nat) : Fp := Fp.ofCode (recField r a 4)

def recSeq (r : List Nat) : Nat := recField r 2 2

/-- PX, PY, PZ. -/
def recPos (r : List Nat) : List Fp := [recF r 0x10, recF r 0x14, recF r 0x18]

/-- QW, QX, QY, QZ. -/
def recQuat (r : List Nat) : List Fp := [recF r 0x1C, recF r 0x20, recF r 0x24, recF r 0x28]

/-- The pose of a record: its position and orientation fields. -/
def recPose (r : List Nat) : List Nat := (r.drop 0x10).take 0x1C

/-- R205's test on the binary32 fields and the quaternion. -/
def recMalformed (r : List Nat) : Bool :=
  let q (k : Nat) : Fp := (recQuat r).getD k .zero
  let n := (((q 0).mul (q 0)).add ((q 1).mul (q 1))).add ((q 2).mul (q 2)) |>.add ((q 3).mul (q 3))
  let d := n.sub .one
  let mag := if d.signOf then d.neg else d
  (recPos r ++ recQuat r ++ [recF r 0x2C]).any (fun x => !x.isFinite) || (Fp.ofQ ⟨1, 1024⟩).lt mag

/-! ## Matrices in binary32 (R214) -/

/-- Three-term product (a0 × b0 + a1 × b1) + a2 × b2. -/
def dot3 (a b : Nat → Fp) : Fp := (((a 0).mul (b 0)).add ((a 1).mul (b 1))).add ((a 2).mul (b 2))

/-- Element (i, j) of a row-major 3 × 3 matrix. -/
def at3 (m : List Fp) (i j : Nat) : Fp := m.getD (3 * i + j) .zero

def tab3 (f : Nat → Nat → Fp) : List Fp := (List.range 9).map fun k => f (k / 3) (k % 3)

def mul3 (a b : List Fp) : List Fp := tab3 fun i j => dot3 (at3 a i) (fun k => at3 b k j)

def transpose3 (a : List Fp) : List Fp := tab3 fun i j => at3 a j i

def mulVec (a : List Fp) (v : List Fp) : List Fp := (List.range 3).map fun i => dot3 (at3 a i) (fun k => v.getD k .zero)

/-- rot of R214. -/
def rot3 (q : List Fp) : List Fp :=
  let w := q.getD 0 .zero
  let x := q.getD 1 .zero
  let y := q.getD 2 .zero
  let z := q.getD 3 .zero
  let p (a b : Fp) : Fp := a.mul b
  let off (a : Fp) : Fp := Fp.two.mul a
  let dia (a : Fp) : Fp := Fp.one.sub (off a)
  [dia ((p y y).add (p z z)), off ((p x y).sub (p w z)), off ((p x z).add (p w y)),
   off ((p x y).add (p w z)), dia ((p x x).add (p z z)), off ((p y z).sub (p w x)),
   off ((p x z).sub (p w y)), off ((p y z).add (p w x)), dia ((p x x).add (p y y))]

/-- Round to an integer, ties to even, clamped to 16 bits; an infinity clamps, a NaN answers none (R216). -/
def toOffset (x : Fp) : Option Int :=
  match x with
  | .nan => none
  | .inf s => some (if s then -32768 else 32767)
  | x => some (max (-32768) (min 32767 x.toQ.roundEven))

def clampPos (x : Int) : Int := max (-32768) (min 32767 x)

/-! ## The binding at a band latch -/

/-- A coefficient word as a band latch sees it: writes of the last microsecond are not yet in force (R215). -/
def State.coefAt (s : State) (off : Nat) (latch : Int) : Fp :=
  match s.pose.recent.find? fun e => e.1 == off && decide (latch < (e.2.1 : Int) + 1000) with
  | some e => Fp.ofCode e.2.2.toNat
  | none => Fp.ofCode (s.rd off).toNat

/-- DEDUCED, log entry 70. -/
def State.coefs (s : State) (off n : Nat) (latch : Int) : List Fp :=
  (List.range n).map fun k => s.coefAt (off + 4 * k) latch

/-- What is added to arrival stamps: PDLY on both devices of a pair (R428). -/
def State.pairDelay (s : State) : Nat := if s.paired then s.get F.mirCfgPdly else 0

/-- The newest accepted record of a source stamped strictly before a latch (R201, R202). -/
def State.poseAt (s : State) (src : Nat) (latch : Int) : Option PoseRec :=
  (s.poseSrc src).recs.find? fun r => decide (((r.stamp + s.pairDelay : Nat) : Int) < latch)

/-- The warp transform (R214). DESIGN CHOICE, log entry 73. -/
def State.warpM (s : State) (c : LayerCfg) (ref cur : List Nat) (latch : Int) : List Fp :=
  let src := c.poseSrc
  let rr := transpose3 (rot3 (recQuat ref))
  let d := mul3 rr (rot3 (recQuat cur))
  let t := mulVec rr ((List.range 3).map fun k => ((recPos cur).getD k .zero).sub ((recPos ref).getD k .zero))
  let dist := s.coefAt (Reg.poseSrcDist src) latch
  let h := if dist.isFinite && Fp.zero.lt dist then
      tab3 fun i j => if j = 2 then (at3 d i 2).add ((t.getD i .zero).div dist) else at3 d i j
    else d
  let g := mul3 (mul3 (s.coefs (Reg.poseSrcK src 0) 9 latch) h) (s.coefs (Reg.poseSrcKinv src 0) 9 latch)
  mul3 g (c.defM.map Fp.ofCode)

/-- The position offset (R216); (0, 0) for a NaN. -/
def State.posOffset (s : State) (src : Nat) (cur : List Nat) (latch : Int) : Int × Int :=
  let p (k : Nat) : Fp := s.coefAt (Reg.poseSrcPmat src k) latch
  let x (k : Nat) : Fp := (recPos cur).getD k .zero
  let u := (dot3 p x).add (p 3)
  let v := (dot3 (fun k => p (4 + k)) x).add (p 7)
  match toOffset u, toOffset v with
  | some a, some b => (a, b)
  | _, _ => (0, 0)

/-- POSE.STAT's layer with one of its event bits, and the signal (R220). -/
def State.poseLayerEvent (s : State) (f : Fld) (i src : Nat) : State := (s.put F.poseStatLayer i).raise f src

/-- A layer's bit of POSE.STALEMAP. -/
def State.setStale (s : State) (i : Nat) (b : Bool) : State :=
  s.put ⟨Reg.poseStalemap (i / 32), i % 32, 1⟩ (ofBool b)

/-- A layer without an enabled binding has none that is stale. -/
def State.unbind (s : State) (i : Nat) : State :=
  let rt := s.layerRt i
  if rt.binding.isNone then s
  else (s.setLayerRt i { rt with binding := none, lastPose := none }).setStale i false

/-- Staleness of a binding at a band, its map bit and its events (R203). -/
def State.staleness (s : State) (i : Nat) (c : LayerCfg) (stale : Bool) : State :=
  let rt := s.layerRt i
  let was := match rt.binding with
    | some (src, st) => src == c.poseSrc && st
    | none => false
  let s := (s.setLayerRt i { rt with binding := some (c.poseSrc, stale) }).setStale i stale
  if stale && !was then s.poseLayerEvent F.poseStatPoseStale i 837
  else if !stale && was then s.poseLayerEvent F.poseStatPoseFresh i 838
  else s

/-- The band trace (TRCCTL). -/
def State.poseTrace (s : State) (i : Nat) (latch : Int) (r : Option PoseRec) (stale : Bool) : State :=
  if s.flag F.poseTrcctlEn && s.get F.poseTrcctlLayer == i then
    let s := s.put F.poseTrcseqSeq (match r with | some r => recSeq r.bytes | none => 0)
    let s := s.put F.poseTrcseqFallback (ofBool stale)
    let s := s.put F.poseTrcseqValid 1
    let s := s.wr64 Reg.poseTrclatchLo latch.toNat
    s.wr64 Reg.poseTrcarrLo (match r with | some r => r.stamp | none => 0)
  else s

/-- What a layer's binding gives one band of head `h` (R201 to R203, R213 to R216): M as codes and the destination origin. -/
def State.bindBand (s : State) (h i : Nat) (c : LayerCfg) (latch : Int) : State × List Nat × Int × Int :=
  if !c.bound then (s, c.defM, c.dstX, c.dstY)
  else
    let r := s.poseAt c.poseSrc latch
    let stale := match r with
      | none => true
      | some r => c.stale != 0 && decide (((r.stamp + s.pairDelay + c.stale * 1000 : Nat) : Int) < latch)
    let s := s.staleness i c stale
    let s := s.poseTrace i latch r stale
    let rt := s.layerRt i
    let x := s.headOf h
    let pose := r.map fun r => recPose r.bytes
    let s := if rt.lastPose != pose then s.setHead h { x with unchanged := false, twiExit := true } else s
    let s := s.setLayerRt i { rt with lastPose := pose }
    let bad := c.warpBound && (match rt.ref with | some b => recMalformed b | none => false)
    let s := if bad && !rt.badRef then
        (s.setLayerRt i { s.layerRt i with badRef := true }).poseLayerEvent F.poseStatPoseBadref i 839
      else s
    match r with
    | none => (s, c.defM, c.dstX, c.dstY)
    | some r =>
      if stale then (s, c.defM, c.dstX, c.dstY)
      else if c.posMode then
        let (du, dv) := s.posOffset c.poseSrc r.bytes latch
        let m := if c.video then
            (mul3 (c.defM.map Fp.ofCode)
              [.one, .zero, Fp.ofInt (-du), .zero, .one, Fp.ofInt (-dv), .zero, .zero, .one]).map Fp.toCode
          else c.defM
        (s, m, clampPos (c.dstX + du), clampPos (c.dstY + dv))
      else
        match rt.ref with
        | some b => if bad then (s, c.defM, c.dstX, c.dstY)
                    else (s, (s.warpM c b r.bytes latch).map Fp.toCode, c.dstX, c.dstY)
        | none => (s, c.defM, c.dstX, c.dstY)

end Sys2Proof.Machine
end

