-- ==== Sys2Proof/Machine/Frame.lean ====
section
/-! DEFINITION. The frame latch (R73, R76, R81, R90 to R96, R104 to R119, R126 to R130, R136, R440): commits become active, layers
are ready or not, flatten surfaces start, and the tick's bands are scheduled. -/

namespace Sys2Proof.Machine

/-! ## Messages that follow LATMIN -/

/-- Scale and value of an LTR message of `t` ns (R283). -/
def ltrEncode (t : Nat) : Nat × Nat :=
  if t ≤ 1023 then (0, t)
  else if t / 32 ≤ 1023 then (1, t / 32)
  else if t / 1024 ≤ 1023 then (2, t / 1024)
  else if t / 32768 ≤ 1023 then (3, t / 32768)
  else (4, t / 1048576)

/-- LTR_MESSAGE (R283). DEDUCED, log entry 67. -/
def State.sendLtr (s : State) : State :=
  if !s.ltrEn then s
  else
    let lm := s.get F.tickLatminUs
    let (req, scale, value) := if lm = 0xFFFF then (0, 0, 0) else
      let e := ltrEncode ((lm - 2) * 1000)
      (1, e.1, e.2)
    let s := ((s.put F.cxlLtrReq req).put F.cxlLtrScale scale).put F.cxlLtrValue value
    (s.bump F.cxlLtrSent).emit (.ltr req scale value)

/-- LATTOL of head h, LATMIN over the part, and what LATMIN's change brings (R76, R283). DEDUCED, log entry 67. -/
def State.latencyUpdate (s : State) (h : Nat) : State :=
  let s := s.put (F.headStatusLattol h) (s.lattolOf (s.headOf h).cfg)
  let m := s.allHeads.foldl (fun m k => min m (s.get (F.headStatusLattol k))) 0xFFFF
  if s.get F.tickLatminUs = m then s else (s.put F.tickLatminUs m).sendLtr.srCheck

/-! ## A commit becomes active (R81, R90, R92, R106) -/

/-- A layer whose source fields change starts a new set (R117, R112); `new` are its fields from now on. -/
def State.newSource (s : State) (i : Nat) (new : LayerCfg) : State :=
  let rt := s.layerRt i
  let old := rt.cur
  let rt := if old.sourceKey != new.sourceKey then { rt with wasReady := false } else rt
  let rt := if old.srcType != new.srcType || old.idx != new.idx then
      let p := if new.srcType = 3 then 256 + new.idx else new.idx
      { rt with srcBase := (Tbl.get (fun _ => Producer.init) s.producers p).count }
    else rt
  let s := s.setLayerRt i { rt with cur := new }
  if new.en && new.bound then s else s.unbind i

/-- STATUS of a layer at a frame latch. -/
def State.layerFlags (s : State) (i : Nat) (ready shown shedded waiting : Bool) : State :=
  let s := s.put (F.layerStatusReady i) (ofBool ready)
  let s := s.put (F.layerStatusShown i) (ofBool shown)
  let s := s.put (F.layerStatusShedded i) (ofBool shedded)
  s.put (F.layerStatusWaiting i) (ofBool waiting)

/-- An entry that no head lists any more shows nothing: its STATUS flags clear. -/
def State.layerGone (s : State) (i : Nat) : State :=
  ((s.unbind i).layerFlags i false false false false).put (F.layerStatusFlat i) 0

/-- A writeback port follows the commit at the frame latch of its old or new head (R133). DEDUCED, log entry 65. A buffer number
that NBUF no longer reaches starts over at 0. DESIGN CHOICE, log entry 142. -/
def State.applyPort (s : State) (h n : Nat) (w : WbCfg) : State :=
  let x := s.wbOf n
  if w.head = h then
    let fresh := w.en && !x.cfg.en
    s.setWb n { x with cfg := w, k := if fresh || w.nbuf ≤ x.k then 0 else x.k,
                       due := if fresh then none else x.due, past := if fresh then none else x.past }
  else if x.cfg.head = h then s.setWb n { x with cfg := { x.cfg with ctl := x.cfg.ctl &&& 0xFFFFFFFE } }
  else s

/-- A head becomes a clone, or a clone of another source: it takes its source's state (R94), but for a re-time of its own. -/
def State.joinSource (s : State) (h : Nat) : State :=
  let src := s.headOf (s.headOf h).cfg.cloneSrc
  let own := s.get (F.headStatusState h)
  let st := s.get (F.headStatusState (s.headOf h).cfg.cloneSrc)
  if own = 2 || own = st then s
  else match st with
  | 1 => (s.endTwilight h).setHeadState h 1
  | 2 =>
    let s := (s.endTwilight h).dropWork h .black
    (s.setHead h { s.headOf h with retimeEnd := src.retimeEnd, resume := src.resume, duskPend := false }).setHeadState h 2
  | 3 => (s.setHeadState h 3).raise (F.headEventTwilight h) (4 * h + 3)
  | 4 => ((s.endTwilight h).dropWork h .safeFill).setHeadState h 4
  | _ => s

/-- Clone heads that follow head h's state now: not one in a re-time of its own (R94). -/
def State.followers (s : State) (h : Nat) : List Nat := (s.clonesOf h).filter fun c => s.get (F.headStatusState c) != 2

/-- Heads that the peer transmits, which no message tells a standby: which they are is a free value. DESIGN CHOICE, log entry 186. -/
def State.peerHeads (s : State) (k : Nat) : List Nat := s.allHeads.filter fun h => bit (Config.freeNat k) h

/-- A mirrored commit that was accepted after the last gap and names every head that either device transmits becomes active: the standby
is synchronised again (R434). -/
def State.resync (s : State) (c : Commit) : State :=
  if !s.standby || c.order ≤ s.mir.gapOrder || s.flag F.mirStatSync then s
  else if (s.txHeads ++ s.peerHeads s.fresh).all c.mask.contains then s.tick.put F.mirStatSync 1
  else s.tick

/-- COMMIT_APPLIED: the commit's set becomes head h's active set (R81). A head that the set enables or re-clocks during Dusk completes
its re-time before it sends safe fill (R90, R97). DESIGN CHOICE, log entry 139. -/
def State.applyCommit (s : State) (h : Nat) (c : Commit) : State :=
  let x := s.headOf h
  let old := x.cfg
  let new := (c.heads.lookup h).getD old
  let layers := ownedAfter h x.layers c.layers
  let port := c.ports.any fun e => (e.2.head == h || (s.wbOf e.1).cfg.head == h) && (s.wbOf e.1).cfg != e.2
  let differs := new != old || layers != x.layers || port
  let anew := new.en && (!old.en || old.synth != new.synth || old.div != new.div || old.htotal != new.htotal)
  let s := if anew then s.quietBlack h else s
  let s := (c.layers.filter fun e => e.2.owner == h).foldl (fun s e => s.newSource e.1 e.2) s
  let listed (i : Nat) : Bool := layers.any (fun n => n.1 == i) || s.heads.any fun y => y.1 != h && y.2.layers.any fun n => n.1 == i
  let s := (x.layers.filter fun e => !listed e.1).foldl (fun s e => s.layerGone e.1) s
  let s := s.setHead h { s.headOf h with
    cfg := new, layers := layers, order := c.order, agent := c.agent,
    unchanged := x.unchanged && !differs, twiExit := x.twiExit || differs }
  let s := c.ports.foldl (fun s e => s.applyPort h e.1 e.2) s
  let s := s.pruneAccepted.refreshArmed h
  let s := s.raise (F.headEventCommitApplied h) (4 * h + 1)
  let s := s.resync c
  if old.en && !new.en then s.stopHead h
  else if anew then (h :: s.followers h).foldl (fun s k => s.startRetime s.now k) s
  else if new.en && new.clone && !(old.clone && old.cloneSrc == new.cloneSrc) then s.joinSource h
  else s

/-! ## Readiness (R112, R116 to R119, R136) -/

/-- Number of a layer's producer. -/
def LayerCfg.producer (c : LayerCfg) : Nat := if c.srcType = 3 then 256 + c.idx else c.idx

/-- The frames of a layer's producer completed strictly before an instant (R307, R342). -/
def State.producerOf (s : State) (c : LayerCfg) (t : Nat) : Producer :=
  let p := Tbl.get (fun _ => Producer.init) s.producers c.producer
  let l := p.newest.toList ++ p.older
  let late := l.takeWhile fun f => t ≤ f.stamp
  ⟨p.count - late.length, l[late.length]?, l.drop (late.length + 1)⟩

/-- The frame a layer takes at a frame latch at `t`: its producer's newest, or the one of that producer that it holds (R112). -/
def State.frameFor (s : State) (rt : LayerRt) (c : LayerCfg) (t : Nat) : Option FrameRef :=
  match (s.producerOf c t).newest with
  | some f => some f
  | none => match rt.held with
    | some f => if f.producer = c.producer then some f else none
    | none => none

/-- Band-time of a set in ns, rounded down. -/
def State.bandTimeNs (s : State) (c : HeadCfg) : Nat := c.bandLines * (s.lineTime c).num.toNat / (s.lineTime c).den

/-- The reference record of layer i on head h, the 64 bytes that end at ADDR, is read (R213): local memory gives it at once, and a frozen
controller gives none (R265); a record in host memory comes with its CXL.cache read. A refused granule is not read and gives zeros (R450,
R452). DEDUCED, log entry 152. -/
def State.readRef (s : State) (h i : Nat) (c : LayerCfg) : State :=
  let a := c.addr - 64
  let rt := { s.layerRt i with badRef := false, refFrom := none, ref := none }
  let agent := (s.headOf h).agent
  if s.granuleRefused agent (c.srcType == 1) a 64 then
    (s.setLayerRt i { rt with ref := some (List.replicate 64 0) }).violation agent false 2 a
  else if c.srcType = 1 then
    (s.setLayerRt i { rt with refFrom := some a }).cxlAskAll
      ⟨0, 0, .record, true, h / 32, i, 0, (h, 0, 0, 0), false, 0, s.bandTimeNs (s.headOf h).cfg⟩ [a / 64]
  else if s.frozen then s.setLayerRt i rt
  else ((s.setLayerRt i { rt with ref := some (s.dramSee a 64) }).ticks (if s.localDead a 64 then 64 else 0)).useLocal (h / 32) a 64

/-- A ready layer of head h shows its buffer: the newest frame of a ring is taken (R112), and a warp-bound layer's reference record is
read once with the decision to show the buffer (R213). -/
def State.showReady (s : State) (h i : Nat) (c : LayerCfg) (t : Nat) : State × Shown :=
  let rt := s.layerRt i
  if 2 ≤ c.srcType then
    let f := s.frameFor rt c t
    let s := s.setLayerRt i { rt with
      wasReady := true, lastReady := some c, held := f, ref := none, refFrom := none, badRef := false }
    (s, ⟨i, c, c, (f.map (·.addr)).getD 0, (f.map (·.pitch)).getD 0, false, false, none⟩)
  else
    let fresh := !rt.wasReady || (rt.ref.isNone && rt.refFrom != some (c.addr - 64))
    let s := s.setLayerRt i { rt with wasReady := true, lastReady := some c, held := none }
    let s := if c.warpBound then (if fresh then s.readRef h i c else s)
      else s.setLayerRt i { s.layerRt i with ref := none, refFrom := none, badRef := false }
    (s, ⟨i, c, c, c.addr, c.pitchB, false, false, none⟩)

/-- A layer shown as REPEAT (R118). -/
def State.showRepeat (s : State) (i : Nat) (c : LayerCfg) : Shown :=
  match (s.layerRt i).lastReady with
  | none => ⟨i, c, c, 0, 0, false, true, none⟩
  | some o =>
    let c' := c.withSource o
    if 2 ≤ o.srcType then
      let f := (s.layerRt i).held
      ⟨i, c, c', (f.map (·.addr)).getD 0, (f.map (·.pitch)).getD 0, false, f.isNone, none⟩
    else ⟨i, c, c', o.addr, o.pitchB, false, false, none⟩

/-- The shed level in force (R136, R414). -/
def State.shedLevel (s : State) : Nat := max (min 8 (s.get F.thmShedMin)) s.pwr.shedL

/-- One shown layer of head h at the frame latch at instant `fl`. DEDUCED, log entry 57. POLICY = WAIT_BANDS tests no INGEST or DECODER
source at its band latches. DESIGN CHOICE, log entry 171. -/
def State.latchLayer (s : State) (h : Nat) (hc : HeadCfg) (composing : Bool) (fl : Nat) (i : Nat) (c : LayerCfg) :
    State × Shown :=
  let rt := s.layerRt i
  let ready := if 2 ≤ c.srcType then decide (rt.srcBase < (s.producerOf c fl).count) && (s.frameFor rt c fl).isSome
    else !c.fen || rt.wasReady || s.fenceTest c.fidx c.fval fl
  if c.shed && c.shedpri < s.shedLevel then
    let s := if ready then s.setLayerRt i { rt with
        wasReady := true, lastReady := some c, held := if 2 ≤ c.srcType then s.frameFor rt c fl else none,
        ref := if rt.wasReady && c.srcType < 2 then rt.ref else none
        refFrom := if rt.wasReady && c.srcType < 2 then rt.refFrom else none } else s
    (s.layerFlags i ready false true false, ⟨i, c, c, 0, 0, false, true, none⟩)
  else
    if ready then
      let r := s.showReady h i c fl
      (r.1.layerFlags i true true false false, r.2)
    else
      let s := s.put (F.headEventNrlayer h) i
      let s := s.raise (F.headEventLayerNotReady h) (4 * h + 2)
      let s := s.bumpSat (F.layerStatusNrcnt i)
      let waits := composing && c.policy == 3 && c.srcType < 2 && 1 ≤ c.waitn && c.waitn < hc.nb
      let sh : Shown := match c.policy with
        | 1 => ⟨i, c, c, 0, 0, false, true, none⟩
        | 2 => ⟨i, c, c, 0, 0, true, false, none⟩
        | _ => { s.showRepeat i c with waiting := if waits then some c else none }
      (s.layerFlags i false (!sh.empty) false waits, sh)

/-- Every layer of head h at its frame latch: those shown in some phase it sends (R104). STATUS.READY of an enabled one that is not
shown keeps its value. DESIGN CHOICE, log entry 170. -/
def State.latchLayers (s : State) (h phases : Nat) (composing : Bool) (fl : Nat) : State × List Shown :=
  let hc := (s.headOf h).cfg
  let pm := hc.phmask % 2 ^ phases
  (s.headOf h).layers.foldl (fun (a : State × List Shown) e =>
    if hc.en && e.2.en && (e.2.phmask &&& pm) != 0 then
      let r := a.1.latchLayer h hc composing fl e.1 e.2
      (r.1, a.2 ++ [r.2])
    else (a.1.layerFlags e.1 (a.1.flag (F.layerStatusReady e.1)) false false false, a.2)) (s, [])

/-! ## The flatten cache (R126 to R130) -/

/-- The flatten run of a phase, lowest layer first (R126); empty when nothing is flattened. -/
def State.flattenRun (s : State) (h phase : Nat) : List (Nat × LayerCfg) :=
  let x := s.headOf h
  let r := (layerOrder x.cfg x.layers phase).takeWhile fun e => e.2.static && !e.2.shed
  if 2 ≤ r.length && s.flag F.fltCtlEn && s.flag F.topCaps1Flatten then r else []

/-- Flatten events of head h: STAT bit, HEAD, and the source of its group (R137). -/
def State.flattenEvent (s : State) (h : Nat) (f : Fld) : State :=
  (s.put F.fltStatHead h).raise f (516 + 4 * groupOfHead h (s.headOf h).cfg)

/-- The lowest place for `mib` MiB in a sector's part of the flatten region, among the surfaces held. DEDUCED, log entry 66. -/
def State.flattenPlace (s : State) (sector mib : Nat) : Option Nat :=
  let base := (sector + 1) * s.regionSize - s.flattenPart
  (List.range (s.flattenPart / 1048576)).findSome? fun k =>
    let a := base + k * 1048576
    let e := a + mib * 1048576
    if e ≤ base + s.flattenPart && s.surfaces.all (fun f => e ≤ f.addr || f.addr + f.mib * 1048576 ≤ a)
    then some a else none

/-- FLT.SIZE.USED and FLT.STAT.PENDING follow the surfaces held. -/
def State.flattenCounts (s : State) : State :=
  let s := s.put F.fltSizeUsed (s.surfaces.foldl (fun a f => a + f.mib) 0)
  s.put F.fltStatPending (satAt 255 ((s.surfaces.filter fun f => !f.valid).length))

/-- Phases of a head with equal runs share a surface: the distinct runs of the tick, with their phases as a mask. -/
def State.flattenWanted (s : State) (h phases : Nat) : List (Nat × List (Nat × LayerCfg)) :=
  let hc := (s.headOf h).cfg
  (List.range phases).foldl (fun acc p =>
    let r := if bit hc.phmask p then s.flattenRun h p else []
    if r.isEmpty then acc
    else if acc.any (fun e => e.2 == r) then acc.map fun e => if e.2 == r then (e.1 + 2 ^ p, e.2) else e
    else acc ++ [(2 ^ p, r)]) []

/-- One wanted surface at the frame latch: kept, started to be used, rebuilt, or allocated (R127, R129, R130). `bad`: some member is
not ready. DEDUCED, log entry 66. A commit applied at this frame latch that changes a member starts the rebuild at this latch.
DESIGN CHOICE, log entry 141. A change of band size starts a rebuild under way over. -/
def State.flattenStep (s : State) (h : Nat) (shown : List Shown) (w : Nat × List (Nat × LayerCfg)) : State :=
  let bad := w.2.any fun e => !(s.flag (F.layerStatusReady e.1)) || shown.all (fun x => x.layer != e.1)
  let hc := (s.headOf h).cfg
  match s.surfaces.find? fun f => f.head == h && f.members == w.2 && f.size == (hc.hact, hc.vact) with
  | some f =>
    let f' : Surface :=
      if bad then { f with phases := w.1, valid := false, inUse := false, building := false }
      else if f.valid then
        { f with phases := w.1, inUse := f.inUse || !s.standby || s.mir.flat.contains h }
      else { f with
        phases := w.1, building := true, lines := hc.bandLines,
        nextBand := if f.building && f.lines = hc.bandLines then f.nextBand else 0 }
    let s := { s with surfaces := s.surfaces.map fun x => if x == f then f' else x }
    let s := if f'.building && !f.building then s.forward 8 [h] else s
    if f'.inUse && !f.inUse then s.forward 9 [h] else s
  | none =>
    let mib := ceilDiv (ceilDiv (hc.hact * 8) 64 * 64 * hc.vact) 1048576
    match s.flattenPlace (h / 32) mib with
    | none => s.flattenEvent h F.fltStatFlattenFull
    | some a =>
      let f : Surface := ⟨h, w.1, w.2, (hc.hact, hc.vact), a, mib, false, false, !bad, 0, hc.bandLines⟩
      let s := { s with surfaces := s.surfaces ++ [f] }
      if bad then s else s.forward 8 [h]

/-- Every surface of head h at its frame latch: those of other members or of another size are given up, with the rebuild bands under
way for them (R127, R130). -/
def State.flattenLatch (s : State) (h phases : Nat) (shown : List Shown) : State :=
  let wanted := s.flattenWanted h phases
  let hc := (s.headOf h).cfg
  let s := { s with surfaces := s.surfaces.filter fun f =>
    f.head != h || (f.size == (hc.hact, hc.vact) && wanted.any fun w => w.2 == f.members) }
  let s := s.settleRebuilds
  (wanted.foldl (fun s w => s.flattenStep h shown w) s).flattenCounts.settleRebuilds

/-- The surfaces a head uses in the tick: phase, address, members. -/
def State.flattenUse (s : State) (h phases : Nat) : List (Nat × Nat × List Nat) :=
  (s.surfaces.filter fun f => f.head == h && f.inUse && f.valid).flatMap fun f =>
    ((List.range phases).filter (bit f.phases)).map fun p => (p, f.addr, f.members.map (·.1))

/-- LAYER.STATUS.FLAT of a head's layers follows the surfaces used. -/
def State.showFlat (s : State) (h phases : Nat) : State :=
  (s.flattenUse h phases).foldl (fun s u => u.2.2.foldl (fun s i => s.put (F.layerStatusFlat i) 1) s)
    ((s.headOf h).layers.foldl (fun s e => s.put (F.layerStatusFlat e.1) 0) s)

/-- A standby whose own surface is complete starts to use it with its primary, from the tick latched last on: the word that says so comes
just after that tick's frame latch, and by R131 the bands already latched are the same (R430). -/
def State.useWithPrimary (s : State) (h : Nat) : State :=
  let s := { s with surfaces := s.surfaces.map fun (f : Surface) => if f.head == h && f.valid then { f with inUse := true } else f }
  let phases := s.time.ts.phases
  let x := s.headOf h
  (s.setHead h { x with runs := x.runs.map fun (r : Run) =>
    if r.tick + 1 = x.latchTick then { r with flat := s.flattenUse h phases } else r }).showFlat h phases

/-! ## Roles of a pair at a frame latch (R426, R432, R433) -/

/-- Takeover at the earliest frame latch of its tick (R432). -/
def State.takeoverLatch (s : State) (t : Nat) : State :=
  match s.mir.takeTick with
  | some t0 => if t0 ≤ t then
      ((({ s with mir := { s.mir with takeTick := none } }.put F.mirCtlRole 0).put F.mirStatSync 1).put F.mirTerrNs 0).ownCorr.raise
        F.mirEventMirTakeover 927
    else s
  | none => s

/-- A swap at the earliest frame latch of its tick (R433). -/
def State.swapLatch (s : State) (t : Nat) : State :=
  match s.mir.swapTick with
  | some t0 => if t0 ≤ t then
      let was := s.get F.mirCtlRole
      let s := { s with mir := { s.mir with
        swapTick := none, locked := true, timeAt := s.now, tail := was == 1,
        owes := was == 0 && (s.busy.isSome || s.flag F.tickTstructStatBusy) } }
      let s := (((s.put F.mirCtlRole (1 - was)).put F.mirCtlSwap 0).put F.mirTerrNs 0).put F.mirStatSync 1
      s.ownCorr.raise F.mirEventMirSwap 928
    else s
  | none => s

/-- Commit words that head h's frame latch for tick t finds without the primary's result are discarded, and so is a structure commit whose
first tick has come (R426). -/
def State.discardWords (s : State) (h t : Nat) : State :=
  let gone (m : MirCommit) : Bool := match m.commit with
    | some c => c.mask.contains h && c.target ≤ t
    | none => s.time.armed.any fun a => !a.valid && a.target ≤ t
  if s.mir.waiting.any gone then
    let st := s.mir.waiting.any fun m => m.commit.isNone && gone m
    let s := { s with mir := { s.mir with waiting := s.mir.waiting.filter fun m => !gone m } }
    if st then
      (({ s with time := { s.time with armed := none } }).put F.tickTstructStatPending 0).put F.tickTctlStructArm 0
    else s
  else s

/-- What a frame latch of head h for tick t does to a device of a pair. -/
def State.mirrorLatch (s : State) (h t : Nat) : State := ((s.takeoverLatch t).swapLatch t).discardWords h t

/-! ## FRAME_LATCH -/

/-- A change of HEAD.STATUS.STATE of head h and of the clones that follow it (R94). -/
def State.setStateWithClones (s : State) (h st : Nat) : State :=
  (s.followers h).foldl (fun s c => s.setHeadState c st) (s.setHeadState h st)

/-- Entry to, or exit from, Twilight (R96). DEDUCED, log entry 41. -/
def State.twilightEvent (s : State) (h st : Nat) : State :=
  (s.followers h).foldl (fun s c => s.raise (F.headEventTwilight c) (4 * c + 3))
    ((s.setStateWithClones h st).raise (F.headEventTwilight h) (4 * h + 3))

/-- Head h and its clones go to DUSK at a band boundary (R62, R94, R97): bands whose deadlines lie after it are safe fill.
DEDUCED, log entry 39. -/
def State.duskHead (s : State) (h : Nat) : State :=
  let go (s : State) (k : Nat) : State := (s.endTwilight k).setHead k { s.headOf k with duskPend := false }
  ((s.followers h).foldl go (go s h)).setStateWithClones h 4 |>.dropWork h .safeFill

/-- The end of a re-time, of a Twilight, and the start of Dusk, at the frame latch for a tick (R91, R96, R97). DEDUCED, log entry 41. -/
def State.latchState (s : State) (h phases : Nat) : State :=
  let x := s.headOf h
  let st := s.get (F.headStatusState h)
  let ended := x.resume || (match x.retimeEnd with | some e => decide (e ≤ s.now) | none => false)
  if st = 2 && ended then
    let s := s.setHead h { x with retimeEnd := none, resume := false }
    let follows := x.cfg.clone && s.get (F.headStatusState x.cfg.cloneSrc) == 3
    let s := (s.setHeadState h (if s.inDusk then 4 else if follows then 3 else 1)).raise (F.headEventRetimeDone h) (4 * h + 3)
    if follows && !s.inDusk then s.raise (F.headEventTwilight h) (4 * h + 3) else s
  else if st = 3 && !x.cfg.clone && (x.twiExit || x.cfg.twiK = 0 || 1 < phases) then s.twilightEvent h 1
  else if x.duskPend && !x.cfg.clone && x.bands.isEmpty && x.runs.isEmpty then
    s.duskHead h
  else s

/-- The bands of tick t are scheduled for head h, unless it sends none in it. -/
def State.schedule (s : State) (h t : Nat) (ts : TickStruct) (shown : List Shown) : State :=
  let x := s.headOf h
  let st := s.get (F.headStatusState h)
  let quiet := x.cfg.clone || (st == 3 && t % (x.cfg.twiK + 1) != 0)
  match x.cfg.phaseFrom ts.phases 0 with
  | none => s
  | some p =>
    if quiet then s
    else
      let mode : BandStage := if st = 2 then .black else if st = 4 then .safeFill else .queued
      let starts := (List.range ts.phases).map fun i => s.tickT t + (ts.ofs i : Int)
      let r : Run := ⟨t, false, x.cfg, x.agent, starts, mode, p, 0, shown, s.flattenUse h ts.phases⟩
      s.setHead h { x with runs := x.runs ++ [r] }

/-- DAWN_DONE (R440): the first frame latch with an enabled head. -/
def State.dawn (s : State) : State :=
  if s.time.ticked then s
  else
    let s := { s with time := { s.time with ticked := true } }
    (s.put F.bootStatusState 2).raise F.bootEventDawnDone 949

/-- FRAME_LATCH of head h for its next tick. -/
def effFrameLatch (h : Nat) (s : State) : State :=
  if s.part.heads ≤ h then s
  else
    let t := (s.headOf h).latchTick
    let ts := s.structFor t
    let fl := s.frameLatch h t
    let s := s.advanceTo fl.toNat
    let s := s.mirrorLatch h t
    let x := s.headOf h
    let s := s.setHead h { x with lastTick := t, cfgWas := x.cfg }
    let s := match s.selects h t with
      | some c => s.applyCommit h c
      | none => s
    let s := s.setHead h { s.headOf h with latchTick := t + 1 }
    let x := s.headOf h
    let s := s.put (F.headStatusTwiBlock h) (ofBool (x.cfg.twiK != 0 && 1 < ts.phases))
    let s := if x.cfg.en then
        let s := s.latchState h ts.phases
        let s := s.setHead h { s.headOf h with twiExit := false }
        let st := s.get (F.headStatusState h)
        let composing := st == 1 || (st == 3 && t % (x.cfg.twiK + 1) == 0)
        let r := s.latchLayers h ts.phases composing fl.toNat
        let s := (r.1.flattenLatch h ts.phases r.2).showFlat h ts.phases
        (s.schedule h t ts r.2).dawn
      else (s.latchLayers h ts.phases false fl.toNat).1.flattenLatch h 0 []
    (s.latencyUpdate h).sectorLoads

def execFrameLatch (head : Nat) (s : State) : Host.Outcome State Fault Refusal := s.done (effFrameLatch head s)

/-- TWILIGHT_ENTRY (R95); a tick in progress that Twilight leaves out is sent no further (R96). DEDUCED, log entry 41. -/
def effTwilightEntry (h : Nat) (s : State) : State :=
  let x := s.headOf h
  if h < s.part.heads && x.cfg.en && !x.cfg.clone && s.get (F.headStatusState h) == 1 && x.cfg.twiK != 0 &&
      s.time.ts.phases == 1 && x.cfg.twiIdle != 0 && x.cfg.twiIdle ≤ x.idle
  then (s.twilightEvent h 3).dropTicks h fun t => t % (x.cfg.twiK + 1) != 0
  else s

def execTwilightEntry (head : Nat) (s : State) : Host.Outcome State Fault Refusal := s.done (effTwilightEntry head s)

/-- RETIME_END (R91): the head resumes with the next frame latch at or after this instant. -/
def effRetimeEnd (h : Nat) (s : State) : State :=
  match (s.headOf h).retimeEnd with
  | none => s
  | some e =>
    let s := s.advanceTo e
    s.setHead h { s.headOf h with resume := true }

def execRetimeEnd (head : Nat) (s : State) : Host.Outcome State Fault Refusal := s.done (effRetimeEnd head s)

end Sys2Proof.Machine
end

