-- ==== Sys2Proof/Machine/Pixel.lean ====
section
/-! DEFINITION. Pixel arithmetic (R142 to R166): unpacking, input conversion, the scaler/warp filter (R108, R109), blending, and
the head stage. Values are exact fractions, rounded where the chapter rounds. -/

namespace Sys2Proof.Machine

/-! ## Source pixels (R144 to R146) -/

/-- A source pixel as unpacked. -/
inductive Raw where
  /-- R, G, B codes of a width in bits, and unorm16 alpha. -/
  | rgb (bits r g b a : Nat)
  /-- Y′, Cb, Cr codes of a width in bits. -/
  | ycc (bits y cb cr : Nat)
  /-- binary16 codes R, G, B, A. -/
  | half (r g b a : Nat)
  deriving DecidableEq, Repr

/-- The little-endian number of `n` bytes at address `a` of a layer's memory: host memory for a CXL source, else local. -/
def State.srcNum (s : State) (host : Bool) (a n : Nat) : Nat :=
  ofBytesLE (if host then s.hostRead a n else s.dramRead a n)

/-- First byte and byte count of pixel (col, row) of a buffer at `base`; both columns of its pair for the 4:2:2 formats. -/
def pixelSpan (fmt base pitch col row : Nat) : Nat × Nat :=
  let a := base + row * pitch
  match fmt with
  | 0x0A => (a + col / 2 * 5, 5)
  | 0x0B => (a + col / 2 * 8, 8)
  | 0x10 => (a + col / 8, 1)
  | 0x11 => (a + col / 4, 1)
  | 0x12 => (a + col / 2, 1)
  | f => let n := formatBits f / 8; (a + col * n, n)

/-- Y′0, Y′1, Cb, Cr of a 4:2:2 pixel pair (R144). -/
def pairCodes (fmt x : Nat) : Nat × Nat × Nat × Nat :=
  if fmt = 0x0A then (field x 10 10, field x 30 10, field x 0 10, field x 20 10)
  else (field x 20 12, field x 52 12, field x 4 12, field x 36 12)

/-- A 4:2:2 pixel: an odd pixel's chroma averages its pair with the next, the crop's last pair standing for its own next (R145). -/
def State.raw422 (s : State) (host : Bool) (fmt base pitch col row lastCol : Nat) : Raw :=
  let pair (c : Nat) := let p := pixelSpan fmt base pitch c row; pairCodes fmt (s.srcNum host p.1 p.2)
  let (y0, y1, cb, cr) := pair col
  let bits := if fmt = 0x0A then 10 else 12
  if col % 2 = 0 then .ycc bits y0 cb cr
  else
    let (_, _, cb', cr') := if col / 2 < lastCol / 2 then pair (col + 1) else (y0, y1, cb, cr)
    .ycc bits y1 ((cb + cb' + 1) / 2) ((cr + cr' + 1) / 2)

/-- Palette entry e of palette n (R146). -/
def State.palette (s : State) (n e : Nat) : Raw :=
  .rgb 16 (s.get (F.layerPal0R n e)) (s.get (F.layerPal0G n e)) (s.get (F.layerPal1B n e)) (s.get (F.layerPal1A n e))

/-- Pixel (col, row) of a buffer, unpacked (R144 to R146). `lastCol` is the last column of the crop. -/
def State.rawPx (s : State) (host : Bool) (fmt pal base pitch col row lastCol : Nat) : Raw :=
  if fmt = 0x0A ∨ fmt = 0x0B then s.raw422 host fmt base pitch col row lastCol
  else
    let p := pixelSpan fmt base pitch col row
    let x := s.srcNum host p.1 p.2
    let b (i : Nat) := field x (8 * i) 8
    let w (i : Nat) := field x (16 * i) 16
    let t (i : Nat) := field x (16 * i + 4) 12
    let d (i : Nat) := field x (10 * i) 10
    match fmt with
    | 0x00 => .rgb 8 (b 0) (b 1) (b 2) 65535
    | 0x01 => .rgb 8 (b 2) (b 1) (b 0) 65535
    | 0x02 => .rgb 10 (d 0) (d 1) (d 2) 65535
    | 0x03 => .rgb 10 (d 2) (d 1) (d 0) 65535
    | 0x04 => .rgb 12 (t 0) (t 1) (t 2) 65535
    | 0x05 => .rgb 12 (t 2) (t 1) (t 0) 65535
    | 0x06 => .rgb 16 (w 0) (w 1) (w 2) 65535
    | 0x07 => .rgb 16 (w 2) (w 1) (w 0) 65535
    | 0x08 => .rgb 8 (b 0) (b 1) (b 2) (b 3 * 257)
    | 0x09 => .rgb 16 (w 0) (w 1) (w 2) (w 3)
    | 0x0C => .ycc 10 (d 1) (d 0) (d 2)
    | 0x0D => .ycc 12 (t 1) (t 0) (t 2)
    | 0x0E => .half (w 0) (w 1) (w 2) (w 3)
    | 0x10 => s.palette pal (field x (col % 8) 1)
    | 0x11 => s.palette pal (field x (2 * (col % 4)) 2)
    | 0x12 => s.palette pal (field x (4 * (col % 2)) 4)
    | _ => s.palette pal (x % 256)

/-! ## Tables of binary16 entries (R149, R154) -/

/-- Entry k of a table of binary16 values packed two to a word at `off`. -/
def State.entry16 (s : State) (off k : Nat) : Q :=
  value16 (field (s.rd (off + 4 * (k / 2))).toNat (16 * (k % 2)) 16)

/-- E[i] + (E[i + 1] − E[i]) × f of a 1,024-entry table at c in [0, 1] (R149), exact. -/
def State.interp1024 (s : State) (off : Nat) (c : Q) : Q :=
  let x := c.mul (.ofNat 1023)
  let i := x.floor.toNat
  let f := x.sub (.ofNat i)
  let e := s.entry16 off i
  if f.num = 0 then e else e.add (((s.entry16 off (i + 1)).sub e).mul f)

/-- Curve(y) of R154 for the non-negative binary16 code `h`, exact. -/
def State.curve (s : State) (off h : Nat) : Q :=
  let i := h % 0x8000 / 8
  let f := h % 8
  let e := s.entry16 off i
  if f = 0 then e else e.add (((s.entry16 off (i + 1)).sub e).mul ⟨f, 8⟩)

/-- sign(x) × Curve(|x|), rounded once (R155, TONE = 1); the sign of +0 is +1. DESIGN CHOICE, log entry 173. -/
def State.tone1 (s : State) (off x : Nat) : Nat :=
  let v := s.curve off (x % 0x8000)
  round16 (if 0x8000 ≤ x then v.neg else v)

/-- R155 with TONE = 2: each channel times Curve(M) ÷ M. -/
def State.tone2 (s : State) (off r g b : Nat) : Nat × Nat × Nat :=
  let m := ((value16 r).max (value16 g)).max (value16 b)
  if m.num ≤ 0 then (r, g, b)
  else
    let k := (s.curve off (round16 m)).div m
    let f (x : Nat) := round16 ((value16 x).mul k)
    (f r, f g, f b)

/-- M × (R, G, B) with signed 3.16 elements, each channel rounded once (R153). -/
def matRgb (m : Nat → Nat) (r g b : Nat) : Nat × Nat × Nat :=
  let row (i : Nat) : Nat :=
    let p (k x : Nat) : Q := (value16 x).mul ⟨signed 19 (m (3 * i + k)), 65536⟩
    round16 (((p 0 r).add (p 1 g)).add (p 2 b))
  (row 0, row 1, row 2)

/-! ## The input converter (R143, R147 to R152, R159) -/

def Q.unit (x : Q) : Q := Q.clamp (.ofNat 0) (.ofNat 1) x

/-- A colour or luma code normalised (R147). -/
def normCode (narrow : Bool) (bits v : Nat) : Q :=
  if narrow then
    let q : Nat := 2 ^ (bits - 8)
    Q.unit ⟨(v : Int) - 16 * (q : Int), 219 * q⟩
  else ⟨v, 2 ^ bits - 1⟩

/-- A chroma code normalised (R147). -/
def normChroma (narrow : Bool) (bits v : Nat) : Q :=
  if narrow then
    let q : Nat := 2 ^ (bits - 8)
    Q.clamp ⟨-1, 2⟩ ⟨1, 2⟩ ⟨(v : Int) - 128 * (q : Int), 224 * q⟩
  else ⟨(v : Int) - 2 ^ (bits - 1), 2 ^ bits - 1⟩

/-- Y′CbCr to R′G′B′ (R148): BT.2020 coefficients for PQ and HLG, BT.709 otherwise. -/
def yccRgb (eotf : Nat) (y cb cr : Q) : Q × Q × Q :=
  let k (n : Int) (x : Q) : Q := x.mul ⟨n, 65536⟩
  if eotf = 3 ∨ eotf = 4 then
    ((y.add (k 96639 cr)).unit, ((y.add (k (-10784) cb)).add (k (-37444) cr)).unit, (y.add (k 123299 cb)).unit)
  else
    ((y.add (k 103206 cr)).unit, ((y.add (k (-12276) cb)).add (k (-30679) cr)).unit, (y.add (k 121609 cb)).unit)

/-- The offset of the input decode's table (R150). -/
def eotfTable (eotf elut : Nat) : Nat := if eotf = 5 then Reg.layerElut elut 0 else Reg.layerPreset eotf 0

/-- A binary16 colour channel of format 0x0E (R151). A channel of -0 becomes +0. DESIGN CHOICE, log entry 144. -/
def halfColour (c : Nat) : Nat :=
  if isNan16 c then 0 else if isInf16 c then (c / 0x8000 * 0x8000 + 0x7BFF) else if c = 0x8000 then 0 else c

/-- A binary16 alpha of format 0x0E (R151). -/
def halfAlpha (c : Nat) : Nat :=
  if isNan16 c then 0
  else if isInf16 c then (if 0x8000 ≤ c then 0 else 65535)
  else (((value16 c).unit).mul (.ofNat 65535)).roundEven.toNat

/-- A pixel from channel codes. -/
def mkPx (r g b a : Nat) : Px := ⟨BitVec.ofNat 16 r, BitVec.ofNat 16 g, BitVec.ofNat 16 b, BitVec.ofNat 16 a⟩

/-- The input converter: gamut matrix and tone curve of a layer on a decoded colour (R143 steps 6 and 7). -/
def State.afterDecode (s : State) (c : LayerCfg) (r g b a : Nat) : Px :=
  let (r, g, b) := if c.matEn then matRgb (fun k => (c.gamut.getD k 0).toNat) r g b else (r, g, b)
  let t := Reg.layerTone c.tlut 0
  match c.tone with
  | 1 => mkPx (s.tone1 t r) (s.tone1 t g) (s.tone1 t b) a
  | 2 => let (r, g, b) := s.tone2 t r g b; mkPx r g b a
  | _ => mkPx r g b a

/-- The input converter for a linear layer (R143). -/
def State.convert (s : State) (c : LayerCfg) (x : Raw) : Px :=
  let t := eotfTable c.eotf c.elut
  let dec (v : Q) : Nat := round16 (s.interp1024 t v)
  match x with
  | .rgb bits r g b a =>
    let n (v : Nat) := dec (normCode c.narrow bits v)
    s.afterDecode c (n r) (n g) (n b) a
  | .ycc bits y cb cr =>
    let (r, g, b) := yccRgb c.eotf (normCode c.narrow bits y) (normChroma c.narrow bits cb) (normChroma c.narrow bits cr)
    s.afterDecode c (dec r) (dec g) (dec b) 65535
  | .half r g b a => s.afterDecode c (halfColour r) (halfColour g) (halfColour b) (halfAlpha a)

/-- A code expanded to 16 bits (R159). -/
def expandCode (bits v : Nat) : Nat :=
  match bits with
  | 8 => v * 257
  | 10 => v * 64 + v / 16
  | 12 => v * 16 + v / 256
  | _ => v

/-- A pixel of an encoded-domain layer: 16-bit codes and per-pixel alpha (R22, R159). -/
def encodedPx (x : Raw) : Px :=
  match x with
  | .rgb bits r g b a => mkPx (expandCode bits r) (expandCode bits g) (expandCode bits b) a
  | .ycc bits y cb cr => mkPx (expandCode bits y) (expandCode bits cb) (expandCode bits cr) 65535
  | .half r g b a => mkPx r g b a

/-! ## Reading a layer's buffer -/

/-- Some granule of [a, a + n) failed to be read from host memory (R278). -/
def State.granuleBad (s : State) (host : Bool) (a n : Nat) : Bool :=
  host && (List.range ((a + n - 1) / 64 - a / 64 + 1)).any fun i => s.hostBad.contains (a / 64 + i)

/-- Bytes that a pixel is unpacked from: its own, and for an odd 4:2:2 pixel its neighbour's pair (R144). -/
def pixelSpans (fmt base pitch col row lastCol : Nat) : List (Nat × Nat) :=
  pixelSpan fmt base pitch col row ::
    (if (fmt = 0x0A ∨ fmt = 0x0B) ∧ col % 2 = 1 ∧ col / 2 < lastCol / 2 then [pixelSpan fmt base pitch (col + 1) row] else [])

/-- Those bytes, for source pixel (col, row) of the crop of a walk layer. -/
def Walk.spans (w : Walk) (col row : Nat) : List (Nat × Nat) :=
  pixelSpans w.cfg.format w.addr w.pitch (w.cfg.sx + col) (w.cfg.sy + row) (w.cfg.sx + w.cfg.sw - 1)

/-- Source pixel (col, row) of the crop of a layer, in working format or, in the encoded domain, as codes; zero where one of the granules it
is unpacked from failed or is refused (R278, R452). DEDUCED, log entry 181. -/
def State.srcPx (s : State) (agent : Nat) (w : Walk) (col row : Nat) : Px :=
  let c := w.cfg
  let host := c.srcType == 1
  let x := c.sx + col
  let y := c.sy + row
  if (w.spans col row).any fun p => s.granuleBad host p.1 p.2 || s.granuleRefused agent host p.1 p.2 then Px.zero
  else
    let raw := s.rawPx host c.format c.pal w.addr w.pitch x y (c.sx + c.sw - 1)
    if c.encoded then encodedPx raw else s.convert c raw

/-- A pixel of a flatten surface (R127). -/
def State.surfacePx (s : State) (w : Walk) (x y : Nat) : Px :=
  let a := w.addr + y * w.pitch + 8 * x
  let n := s.srcNum false a 8
  mkPx (field n 0 16) (field n 16 16) (field n 32 16) (field n 48 16)

/-! ## The scaler/warp unit (R108, R109, R122) -/

/-- u and v of an output pixel (R108 steps 1 to 3). -/
def warpUV (c : LayerCfg) (m : List Nat) (x y : Nat) : Fp × Fp :=
  let e (k : Nat) : Fp := Fp.ofCode (m.getD k 0)
  let px := (Fp.ofInt x).add .half
  let py := (Fp.ofInt y).add .half
  let row (i : Nat) : Fp := (((e (3 * i)).mul px).add ((e (3 * i + 1)).mul py)).add (e (3 * i + 2))
  let w := row 2
  let u := (row 0).div w
  let v := (row 1).div w
  if c.raden then
    let cx := (Fp.ofInt c.sw).div .two
    let cy := (Fp.ofInt c.sh).div .two
    let dx := u.sub cx
    let dy := v.sub cy
    let r2 := ((dx.mul dx).add (dy.mul dy)).div ((cx.mul cx).add (cy.mul cy))
    let k := Fp.ofHalf c.radk
    let g := Fp.one.add (k.mul r2)
    (cx.add (dx.mul g), cy.add (dy.mul g))
  else (u, v)

/-- The source position of an output pixel, or none where R108 step 4 gives transparent black. DESIGN CHOICE, log entry 73. -/
def warpPos (c : LayerCfg) (m : List Nat) (x y : Nat) : Option (Q × Q) :=
  let (u, v) := warpUV c m x y
  if !u.isFinite || !v.isFinite then none
  else
    let (a, b) := (u.toQ, v.toQ)
    if a.num < 0 || b.num < 0 || (Q.ofNat c.sw).le a || (Q.ofNat c.sh).le b then none else some (a, b)

/-- Tap centre and phase of a coordinate (R109). -/
def tapCentre (u : Q) : Int × Nat :=
  let t := u.sub ⟨1, 2⟩
  let i := t.floor
  (i, ((t.sub (.ofInt i)).mul (.ofNat 32)).floor.toNat)

/-- Tap t of phase p in coefficient words of `per` words a phase (R141). -/
def coefOf (words : List Nat) (per p t : Nat) : Int := signed 16 (field (words.getD (per * p + t / 2) 0) (16 * (t % 2)) 16)

/-- An index moved into [0, n). -/
def clampIdx (n : Nat) (i : Int) : Nat := min (n - 1) i.toNat

/-- One output pixel of a scaler band, or transparent black (R108, R109). -/
def State.scalePx (s : State) (agent : Nat) (w : Walk) (sc : Scaled) (x y : Nat) : Px :=
  let c := w.cfg
  match warpPos c sc.m x y with
  | none => Px.zero
  | some (u, v) =>
    let (cu, pu) := tapCentre u
    let (cv, pv) := tapCentre v
    let rows := (List.range 6).map fun (j : Nat) =>
      let row := clampIdx c.sh (cv - 2 + (j : Int))
      (List.range 8).map fun (i : Nat) => s.srcPx agent w (clampIdx c.sw (cu - 3 + (i : Int))) row
    let h (i : Nat) : Int := coefOf sc.hcoef 4 pu i
    let vc (j : Nat) : Int := coefOf sc.vcoef 3 pv j
    let colour (f : Px → Nat) : Nat :=
      let sums := rows.map fun r => (Fp.ofQ ((r.zipIdx).foldl (fun (a : Q) e =>
        a.add ((value16 (f e.1)).mul ⟨h e.2, 16384⟩)) (.ofNat 0))).toQ
      round16 ((sums.zipIdx).foldl (fun (a : Q) e => a.add (e.1.mul ⟨vc e.2, 16384⟩)) (.ofNat 0))
    let alpha : Int := (rows.zipIdx).foldl (fun a r =>
      a + vc r.2 * (r.1.zipIdx).foldl (fun b e => b + h e.2 * (e.1.a.toNat : Int)) 0) 0
    let a := max 0 (min 65535 ((alpha + 2 ^ 27) / 2 ^ 28))
    mkPx (colour (·.r.toNat)) (colour (·.g.toNat)) (colour (·.b.toNat)) a.toNat

/-- The pixel a layer of the walk list gives at active position (x, y) of the head (R182), before any wait. DEDUCED, log entry 43. A fill
colour that codes no number is kept as it is and reads as ±65,536 or 0. DESIGN CHOICE, log entry 143. -/
def State.walkPx (s : State) (b : Band) (w : Walk) (x y : Nat) : Px :=
  match w.layer with
  | none => s.surfacePx w x y
  | some _ =>
    let r := clipRect b.cfg w.cfg w.dx w.dy
    if r.x0 ≤ x && x < r.x1 && r.y0 ≤ y && y < r.y1 then
      if w.fill then mkPx (wf w.cfg.fillrg 0 16) (wf w.cfg.fillrg 16 16) (wf w.cfg.fillba 0 16) (wf w.cfg.fillba 16 16)
      else if w.cfg.video then
        match b.scaled.find? fun sc => sc.pos == w.pos with
        | some sc => s.scalePx b.agent w sc x y
        | none => Px.zero
      else s.srcPx b.agent w ((x : Int) - w.dx).toNat ((y : Int) - w.dy).toNat
    else Px.zero

/-! ## Blending (R114, R156, R157, R159) -/

/-- The alpha of a layer pixel (R114). -/
def resolveAlpha (asrc const pa : Nat) : Nat :=
  match asrc with
  | 2 => const
  | 3 => (pa * const + 32767) / 65535
  | _ => pa

/-- A(x) of R156. -/
def overAlpha (da x : Nat) : Nat := x + (da * (65535 - x) + 32767) / 65535

/-- One colour channel of a blend into the linear accumulator (R157). -/
def blendChannel (mode : Nat) (premul : Bool) (sv d : Nat) (a k : Nat) : Nat :=
  let one : Q := .ofNat 1
  let s0 := value16 sv
  let s' := if premul then s0 else s0.mul ⟨a, 65535⟩
  let d' := value16 d
  let keep (x : Nat) : Q := d'.mul (one.sub ⟨x, 65535⟩)
  round16 (match mode with
    | 0 => s'.add (keep a)
    | 1 => s'.add d'
    | 2 => (keep a).add (s'.mul d')
    | 3 => (s'.add d').sub (s'.mul d')
    | 4 => (s'.mul ⟨k, 65535⟩).add (keep ((a * k + 32767) / 65535))
    | _ => s')

/-- Alpha out of a blend (R157). -/
def blendAlpha (mode a k da : Nat) : Nat :=
  match mode with
  | 1 => min 65535 (a + da)
  | 4 => overAlpha da ((a * k + 32767) / 65535)
  | 5 => a
  | _ => overAlpha da a

/-- A blend into the linear accumulator. -/
def blendPx (mode : Nat) (premul : Bool) (sp dp : Px) (a k : Nat) : Px :=
  let ch (f : Px → BitVec 16) : Nat := blendChannel mode premul (f sp).toNat (f dp).toNat a k
  mkPx (ch (·.r)) (ch (·.g)) (ch (·.b)) (blendAlpha mode a k dp.a.toNat)

/-- One channel of a blend into the encoded accumulator (R159). -/
def blendCode (mode : Nat) (premul : Bool) (sv d a : Nat) : Nat :=
  if mode = 5 then sv
  else if premul then min 65535 (sv + (d * (65535 - a) + 32767) / 65535)
  else (sv * a + d * (65535 - a) + 32767) / 65535

/-- A blend into the encoded accumulator. -/
def blendEncoded (mode : Nat) (premul : Bool) (sp dp : Px) (a : Nat) : Px :=
  let ch (f : Px → BitVec 16) : Nat := blendCode mode premul (f sp).toNat (f dp).toNat a
  mkPx (ch (·.r)) (ch (·.g)) (ch (·.b)) (blendAlpha mode a 0 dp.a.toNat)

/-! ## The head stage (R158, R160 to R165) -/

/-- An entry of the 3D LUT of group g, calibration table t: channel ch of grid point (r, gr, b) (R168). -/
def State.lut3d (s : State) (g t r gr b ch : Nat) : Nat :=
  let n := 3 * (1089 * r + 33 * gr + b) + ch
  field (s.rd (Reg.psLut3d g t (n / 2))).toNat (16 * (n % 2)) 16

/-- Tetrahedral interpolation of the 3D LUT (R164): the three channels t, exact. -/
def State.applyLut3d (s : State) (g t : Nat) (sig : List Q) : List Q :=
  let p := sig.map fun x => x.mul (.ofNat 32)
  let idx := p.map fun x => min x.floor.toNat 31
  let fr := (p.zip idx).map fun e => e.1.sub (.ofNat e.2)
  let f (a : Nat) : Q := fr.getD a (.ofNat 0)
  -- Axes by falling fraction: insertion into a list of three.
  let ins (a : Nat) (l : List Nat) : List Nat := l.takeWhile (fun b => (f a).le (f b)) ++ a :: l.dropWhile (fun b => (f a).le (f b))
  let axes := ins 2 (ins 1 (ins 0 []))
  let corner (n : Nat) : List Nat := (List.range 3).map fun a =>
    idx.getD a 0 + (if (axes.take n).contains a then 1 else 0)
  let c (n ch : Nat) : Q :=
    let k := corner n
    .ofNat (s.lut3d g t (k.getD 0 0) (k.getD 1 0) (k.getD 2 0) ch)
  let fa (n : Nat) : Q := f (axes.getD n 0)
  (List.range 3).map fun ch =>
    (((c 0 ch).add ((fa 0).mul ((c 1 ch).sub (c 0 ch)))).add ((fa 1).mul ((c 2 ch).sub (c 1 ch)))).add
      ((fa 2).mul ((c 3 ch).sub (c 2 ch)))

/-- One pixel through the head stage: its three code values, packed as the band store holds them, and the channels clamped. -/
def State.headStage (s : State) (g : Nat) (c : HeadCfg) (px : Px) : Nat × Nat :=
  let t := c.calTable
  let (r, gr, b) := if c.bypMat then (px.r.toNat, px.g.toNat, px.b.toNat)
    else matRgb (fun k => (s.rd (Reg.psMat g t k)).toNat) px.r.toNat px.g.toNat px.b.toNat
  let shape (x : Nat) : Q := value16 (round16 (s.curve (Reg.psShaper g t 0) (if 0x8000 ≤ x then 0 else x)))
  let raw := [shape r, shape gr, shape b]
  let clamps := (raw.filter fun x => x.num < 0 || (Q.ofNat 1).lt x).length
  let sig := raw.map Q.unit
  let out := if c.bypLut then sig.map fun x => x.mul (.ofNat 65535) else s.applyLut3d g t sig
  let enc (x : Q) : Nat := (x.mul ⟨2 ^ c.bits - 1, 65535⟩).roundUp.toNat
  let k (i : Nat) : Nat := enc (out.getD i (.ofNat 0))
  (k 0 + 2 ^ 16 * k 1 + 2 ^ 32 * k 2, clamps)

/-- An encoded pixel's bytes (R166). -/
def pxBytes (c : HeadCfg) (v : Nat) : List Nat :=
  let r := field v 0 16
  let g := field v 16 16
  let b := field v 32 16
  if c.enc = 0 then bytesLE 4 (r % 1024 + 1024 * (g % 1024) + 1048576 * (b % 1024))
  else bytesLE 2 r ++ bytesLE 2 g ++ bytesLE 2 b

/-- A line's bytes, padded to 64 (R74, R166). -/
def lineImage (c : HeadCfg) (l : List Nat) : List Nat :=
  let bs := l.flatMap (pxBytes c)
  bs ++ List.replicate (c.lineBytes - bs.length) 0

end Sys2Proof.Machine
end

