-- ==== Sys2Proof/Machine/Packet.lean ====
section
/-! DEFINITION. What a band packet carries and when (R99, R190, R319, R361, R362): packing, the pixel map's samples, and a release
that reaches the band buffer after the packet has begun. -/

namespace Sys2Proof.Machine

/-! ## Packing (R362) -/

/-- Channel codes of a packed pixel. -/
def pxCodes (v : Nat) : List Nat := [field v 0 16, field v 16 16, field v 32 16]

/-- A band's packed payload. -/
def packBand (c : HeadCfg) (image : List (List Nat)) : List Nat := packBits c.bits ((image.flatMap id).flatMap pxCodes)

/-- The band-buffer image that a payload unpacks to, line padding included (R99, R362). -/
def unpackBand (c : HeadCfg) (lines : Nat) (payload : List Nat) : List Nat :=
  let x := ofBytesLE payload
  let code (n : Nat) : Nat := field x (n * c.bits) c.bits
  (List.range lines).flatMap fun l => lineImage c ((List.range c.hact).map fun i =>
    let n := 3 * (l * c.hact + i)
    code n + 2 ^ 16 * code (n + 1) + 2 ^ 32 * code (n + 2))

/-! ## The pixel map's samples (R319) -/

/-- Pixel-map entries that a register write has touched. -/
def State.touchedPmap (s : State) : List Nat :=
  s.regs.filterMap fun e => if 0x818000 ≤ e.1 && e.1 < 0x820000 && e.1 % 16 = 0 then some ((e.1 - 0x818000) / 16) else none

/-- Position of pixel i of an entry. -/
def State.pmapPos (s : State) (u i : Nat) : Int × Int :=
  ((s.get (F.tspPmap1X u) : Int) + i * signed 8 (s.get (F.tspPmap2Dx u)),
   (s.get (F.tspPmap1Y u) : Int) + i * signed 8 (s.get (F.tspPmap2Dy u)))

/-- The samples one entry takes from a band of head h. -/
def State.sampleEntry (s : State) (x : Sent) (u : Nat) : State :=
  let c := x.cfg
  let old := Tbl.get (fun _ => []) s.pix u
  let new := (List.range (s.get (F.tspPmap2Count u))).map fun i =>
    let p := s.pmapPos u i
    if p.1 < 0 || p.2 < 0 || (c.hact : Int) ≤ p.1 || (c.vact : Int) ≤ p.2 then (0, c.bits)
    else
      let y := p.2.toNat
      if y / c.bandLines = x.j then
        (((x.image.getD (y % c.bandLines) []).getD p.1.toNat 0), c.bits)
      else old.getD i (0, c.bits)
  { s with pix := Tbl.set (fun _ => []) s.pix u new }

/-- PIXMAP_SAMPLE: the entries that sample the sub-frame of a band being sent. -/
def State.samplePix (s : State) (h : Nat) (x : Sent) : State :=
  (s.touchedPmap.filter fun u => s.flag (F.tspPmap0En u) && s.get (F.tspPmap0Head u) == h &&
    s.get (F.tspPmap0Phase u) == x.phase).foldl (fun s u => s.sampleEntry x u) s

/-- The first two 63-byte payload cells exchanged (R455). -/
def swapCells (p : List Nat) : List Nat :=
  if p.length ≤ 63 then p
  else
    let second := (p.drop 63).take 63
    second ++ List.replicate (63 - second.length) 0 ++ p.take 63 ++ p.drop 126

/-! ## Cells (R360, R361) -/

/-- The payload cells of a band packet: 63 bytes each, the last one filled with zeros. -/
def payloadCells (p : List Nat) : List (List Nat) :=
  (List.range (ceilDiv p.length 63)).map fun i =>
    let b := (p.drop (63 * i)).take 63
    2 :: b ++ List.replicate (63 - b.length) 0

/-- The cells of a band packet. -/
def packetCells (header payload : List Nat) : List (List Nat) := header :: payloadCells payload

/-- What payload cells carry. -/
def cellBytes (cells : List (List Nat)) : List Nat := cells.flatMap (·.drop 1)

/-- Cells left idle (R360). -/
def idleCells (cells : List (List Nat)) : List (List Nat) := cells.map fun _ => List.replicate 64 0

/-! ## Cells and lines of a packet in time (R190, R361) -/

/-- Slots of a head: S. -/
def HeadCfg.slotCount (c : HeadCfg) : Nat := max 1 ((List.range 8).filter (bit c.slots)).length

/-- Nanoseconds after a packet's start at which its cell `m` begins: one every 8 ÷ S cell times of 1,088 ÷ 225 ns (R358, R361). -/
def cellTimeIn (c : HeadCfg) (m : Nat) : Nat := m * 8 * 1088 / (c.slotCount * 225)

/-- Nanoseconds after the start at which it begins to send byte `n` of its payload: cells 1 on, 63 bytes each. -/
def byteTime (c : HeadCfg) (n : Nat) : Nat := cellTimeIn c (1 + n / 63)

/-- Nanoseconds after the start at which line `l` begins. -/
def lineTimeIn (c : HeadCfg) (l : Nat) : Nat := byteTime c (l * c.hact * 3 * c.bits / 8)

/-- Line `l` of a sent band has not begun to be sent: its packet has not, or has and is before that line. -/
def State.lineOpen (s : State) (x : Sent) (l : Nat) : Bool :=
  if !x.started then true
  else match x.pkt with
  | none => false
  | some p => decide (s.time.uptime < p.1 + lineTimeIn x.cfg l)

/-- uptime at which the last line of a sent band has begun, which fixes its image; none while the packet has not begun. -/
def Sent.fixedAt (x : Sent) : Option Nat :=
  if !x.started then none
  else match x.pkt with
  | none => some 0
  | some p => some (p.1 + lineTimeIn x.cfg (x.image.length - 1))

/-- Two payloads' difference, laid over a third. -/
def overlay (p old new : List Nat) : List Nat := p.zipIdx.map fun e => e.1 ^^^ (old.getD e.2 0) ^^^ (new.getD e.2 0)

/-- A message of the link with the new lines in its payload; an injected change of the payload stays. -/
def patchPacket (kind : Nat) (old new : List Nat) (m : Msg) : Msg :=
  match m with
  | .packet lane slots first (h :: cells) =>
    let place (p : List Nat) : List Nat := if kind = 3 then swapCells p else p
    if kind = 0 then m else .packet lane slots first (packetCells h (overlay (cellBytes cells) (place old) (place new)))
  | m => m

/-- A line of a sent band of head `h` takes the pixels of a core's span, in the band buffer and, where the packet has begun, in what the
lane, a capture and the pixel map have yet to take of it. DEDUCED, log entry 48. -/
def State.patchSent (s : State) (h core line : Nat) (px : List Nat) (x : Sent) : State :=
  let c := x.cfg
  let image := x.image.modify line fun l => l.take (c.spanX core) ++ px ++ l.drop (c.spanX core + c.spanPx core)
  let y := s.headOf h
  let x' := { x with image := image }
  let s := s.setHead h { y with sent := y.sent.map fun z => if z == x then x' else z }
  match x.pkt with
  | none => s
  | some (_, i, kind) =>
    let old := packBand c x.image
    let new := packBand c image
    let s := { s with out := s.out.modify i (patchPacket kind old new) }
    let s := match s.out[i]?, (s.headOf h).capture with
      | some (.packet _ _ _ cells), some (t, _) =>
        if t = x.tick && s.get (F.headRbctlPhase h) == x.phase && s.get (F.headRbctlBand h) == x.j && kind != 0 then
          s.setHead h { s.headOf h with capture := some (t, unpackBand c image.length (cellBytes cells.tail)) }
        else s
      | _, _ => s
    s.samplePix h x'

/-! ## The cells of a lane (R358 to R361, R373) -/

def State.laneOf (s : State) (n : Nat) : LaneSt := Tbl.get (fun _ => LaneSt.init) s.wlk.lanes n

def State.setLane (s : State) (n : Nat) (x : LaneSt) : State :=
  { s with wlk := { s.wlk with lanes := Tbl.set (fun _ => LaneSt.init) s.wlk.lanes n x } }

/-- First cell of a lane that begins at an uptime or after it: a cell lasts 1,088 ÷ 225 ns (R358). -/
def LaneSt.cellFrom (l : LaneSt) (u : Nat) : Nat := ceilDiv (225 * (u - l.grid)) 1088

/-- uptime at which cell i of a lane begins, rounded up. -/
def LaneSt.cellAt (l : LaneSt) (i : Nat) : Nat := l.grid + ceilDiv (1088 * i) 225

/-- First cell from i on that belongs to a slot of a mask: cell i is in slot i mod 8 (R359). -/
def slotCell (mask i : Nat) : Nat := ((List.range 8).map (i + ·)).find? (fun j => bit mask (j % 8)) |>.getD i

/-- Cells from one of a head's slots to its next one. -/
def HeadCfg.slotStep (c : HeadCfg) : Nat := 8 / c.slotCount

/-- Cell of lane n from which no packet of head h is in progress (R361). -/
def State.cellFree (s : State) (h n : Nat) : Nat :=
  (s.headOf h).sent.foldl (fun a z => match z.pkt with
    | some (_, i, _) => if i < (s.laneOf n).outFrom then a else match s.out[i]? with
      | some (.packet _ _ f cs) => max a (f + cs.length * z.cfg.slotStep)
      | _ => a
    | none => a) 0

/-- What lane n sends in cell i: a band packet's cell, or an idle one (R360, R361). -/
def State.cellOn (s : State) (n i : Nat) : List Nat :=
  (s.out.zipIdx.findSome? fun e => match e.1 with
    | .packet lane slots f cs =>
      let step := 8 / max 1 ((List.range 8).filter (bit slots)).length
      if lane == n && (s.laneOf n).outFrom ≤ e.2 && f ≤ i && (i - f) % step == 0 then cs[(i - f) / step]? else none
    | _ => none).getD (List.replicate 64 0)

/-! ## A lane that stops (R357, R373) -/

/-- A packet loses the cells from cell number `stop` on. -/
def cutPacket (step stop : Nat) (m : Msg) : Msg :=
  match m with
  | .packet lane slots first cells => .packet lane slots first (cells.take (ceilDiv (stop - first) step))
  | m => m

/-- Lane n stops sending at the codeword boundary that follows: a packet in progress on it is cut there. DEDUCED, log entry 103. -/
def State.cutLane (s : State) (n : Nat) : State :=
  let stop := ceilDiv ((s.laneOf n).cellFrom s.time.uptime) 10 * 10
  let going := s.heads.flatMap fun e => e.2.sent.filterMap fun x =>
    if laneOfHead e.1 x.cfg = n then x.pkt.bind fun p => if p.2.1 < (s.laneOf n).outFrom then none else some (p.2.1, x.cfg) else none
  { s with out := going.foldl (fun out p => out.modify p.1 (cutPacket p.2.slotStep stop)) s.out }

end Sys2Proof.Machine
end

