-- ==== Sys2Proof/Machine/Band.lean ====
section
/-! DEFINITION. Bands (R13, R72, R88, R97, R98, R119, R176): latch, walk list, queue, start, completion, deadline, and the flatten
rebuild bands (R129, R195). -/

namespace Sys2Proof.Machine

/-! ## BAND_LATCH -/

/-- The band's latch is one of bands 1 to n of the head's first transmitted sub-frame of the tick (R119). -/
def Run.waitBand (r : Run) (n : Nat) : Bool :=
  r.cfg.phaseFrom r.starts.length 0 == some r.phase && 1 ≤ r.j && r.j ≤ n

/-- WAIT_BANDS_TEST of one layer (R119). DEDUCED, log entry 57. -/
def State.waitTest (s : State) (h : Nat) (r : Run) (latch : Nat) (x : Shown) : State × Shown :=
  match x.waiting with
  | none => (s, x)
  | some c =>
    if !r.waitBand c.waitn then (s, x)
    else if s.fenceTest c.fidx c.fval latch then
      let y := s.showReady h x.layer c latch
      (y.1.layerFlags x.layer true true false false, y.2)
    else if r.j = c.waitn then (s.put (F.layerStatusWaiting x.layer) 0, { x with waiting := none })
    else (s, x)

/-- WAIT_BANDS_TEST of every layer of the tick. -/
def State.waitTests (s : State) (h : Nat) (r : Run) (latch : Nat) : State × List Shown :=
  r.shown.foldl (fun a x => let y := a.1.waitTest h r latch x; (y.1, a.2 ++ [y.2])) (s, [])

/-- The shown layer as the walk list holds it, with its binding's result for the band (R201, R214, R216). -/
def State.walkEntry (s : State) (h : Nat) (latch : Int) (x : Shown) (pos : Nat) : State × Walk :=
  let b := s.bindBand h x.layer x.cfg latch
  (b.1, ⟨some x.layer, x.cfg, x.addr, x.pitch, x.fill, b.2.2.1, b.2.2.2, b.2.1, pos⟩)

/-- A flatten surface as the walk list holds it (R127, R176). -/
def surfaceWalk (c : HeadCfg) (addr : Nat) : Walk :=
  ⟨none, LayerCfg.init, addr, ceilDiv (c.hact * 8) 64 * 64, false, 0, 0, LayerCfg.init.defM, 0⟩

/-- The walk list of a band (R176): the band's layer list without hidden layers, its flattened run replaced by the surface. Every
binding of the layer list is computed. A graphic layer shown as REPEAT is in the list by the rectangle of the set in force, and drawn
with that of the set it repeats. DESIGN CHOICE, log entry 172. -/
def State.walkList (s : State) (h : Nat) (r : Run) (latch : Int) : State × List Walk :=
  let order := layerOrder r.cfg (r.shown.map fun x => (x.layer, x.own)) r.phase
  let list := layerList r.cfg order r.j
  let flat := r.flat.find? fun f => f.1 == r.phase
  let inFlat (i : Nat) : Bool := match flat with | some f => f.2.2.contains i | none => false
  let top : List Walk := match flat with
    | some f => if list.any fun e => f.2.2.contains e.1 then [surfaceWalk r.cfg f.2.1] else []
    | none => []
  list.foldl (fun (a : State × List Walk) e =>
    match r.shown.find? fun x => x.layer == e.1 with
    | none => a
    | some x =>
      let w := a.1.walkEntry h latch x (order.findIdx fun o => o.1 == e.1)
      (w.1, if x.empty || inFlat e.1 then a.2 else a.2 ++ [w.2])) (s, top)

/-- Insert into a group's queue by deadline, then head number (R13). -/
def queueInsert (e : Nat × Nat × Nat × Nat × Nat) : List (Nat × Nat × Nat × Nat × Nat) → List (Nat × Nat × Nat × Nat × Nat)
  | [] => [e]
  | x :: xs =>
    if e.2.2.2.2 < x.2.2.2.2 ∨ (e.2.2.2.2 = x.2.2.2.2 ∧ e.1 < x.1) then e :: x :: xs else x :: queueInsert e xs

/-- A band as its run gives it, not yet composed. -/
def Run.band (r : Run) (h : Nat) (latch deadline : Int) (walk : List Walk) : Band where
  head := h
  tick := r.tick
  phase := r.phase
  j := r.j
  latch := latch.toNat
  deadline := deadline.toNat
  lines := r.cfg.linesOf r.j
  stage := r.mode
  cfg := r.cfg
  agent := r.agent
  walk := walk
  scaled := []
  swi := false
  refused := false
  parity := false
  surface := none
  store := []
  fetched := []
  early := []

/-- The band has what was fetched early for it (R25). -/
def Band.takeEarly (b : Band) (e : Option Early) : Band :=
  match e with
  | some e => if e.tick = b.tick ∧ e.phase = b.phase ∧ e.j = b.j then { b with fetched := e.host, early := e.mem } else b
  | none => b

/-- The band latch of head h's next band in latch order. -/
def State.bandLatch (h : Nat) (s : State) : State :=
  if s.part.heads ≤ h then s
  else match s.nextRun (s.headOf h).runs with
  | none => s
  | some r =>
    let latch := s.latchAt r.cfg r.start r.j
    let s := (s.advanceTo latch.toNat).noonApply
    let composing := r.mode == .queued
    let (s, shown) := if composing then s.waitTests h r latch.toNat else (s, r.shown)
    let r := { r with shown := shown }
    let (s, walk) := if composing then s.walkList h r latch else (s, [])
    let x := s.headOf h
    let b := (r.band h latch (s.deadlineAt r.cfg r.start r.j) walk).takeEarly x.early
    let s := s.setHead h { x with
      bands := x.bands ++ [b], runs := advanceRun x.runs r, lastLatch := some latch.toNat, early := none }
    let s := if s.get F.mirCfgHbhead = h then s.heartbeat false r.tick (1024 * r.phase + r.j) else s
    if composing then
      let g := groupOfHead h r.cfg
      let y := s.groupOf g
      s.setGroup g { y with queue := queueInsert (h, b.tick, b.phase, b.j, b.deadline) y.queue }
    else s

/-! ## The band a group works on -/

/-- The band carries a key. -/
def Band.isKey (b : Band) (k : Nat × Nat × Nat × Nat) : Bool := b.head == k.1 && b.tick == k.2.1 && b.phase == k.2.2.1 && b.j == k.2.2.2

/-- The band in flight with a key. -/
def State.bandOf (s : State) (k : Nat × Nat × Nat × Nat) : Option Band := (s.headOf k.1).bands.find? fun b => b.isKey k

/-- The band the cores of group g run: its real-time band, else its rebuild band. -/
def State.current (s : State) (g : Nat) : Option Band :=
  let x := s.groupOf g
  match x.running with
  | some k => s.bandOf k
  | none => x.rebuild

/-- A band in flight, or a group's rebuild band, replaced. -/
def State.putBand (s : State) (g : Nat) (b : Band) : State :=
  if b.surface.isSome then s.setGroup g { s.groupOf g with rebuild := some b }
  else
    let x := s.headOf b.head
    s.setHead b.head { x with bands := x.bands.map fun c => if c.isKey b.key then b else c }

/-! ## BAND_START -/

/-- A core at the start of a band (R174). -/
def CoreSt.start (on : Bool) (tag : Nat) : CoreSt := { CoreSt.init with on := on, scratchTag := tag }

/-- The eight cores of a group at the start of a band of a head set; a core with an empty span does not start. -/
def State.startCores (s : State) (c : HeadCfg) : State × Tbl CoreSt :=
  (List.range 8).foldl (fun (a : State × Tbl CoreSt) k =>
    (a.1.tick, Tbl.set (fun _ => CoreSt.init) a.2 k (CoreSt.start (k * c.spanCols < c.vcols) a.1.fresh))) (s, [])

/-- The rebuild band that a group takes next: the next band of the first surface in rebuild of a head it serves (R129, R195).
DEDUCED, log entry 66. -/
def State.nextRebuild (s : State) (g : Nat) : Option Band :=
  (s.surfaces.find? fun f => f.building && groupOfHead f.head (s.headOf f.head).cfg == g &&
      f.nextBand < (s.headOf f.head).cfg.nb).bind fun f =>
    let x := s.headOf f.head
    ((List.range 8).find? (bit f.phases)).map fun p =>
      let list := layerList x.cfg f.members f.nextBand
      { head := f.head, tick := 0, phase := p, j := f.nextBand, latch := s.now, deadline := 0,
        lines := x.cfg.linesOf f.nextBand, stage := .running, cfg := x.cfg, agent := x.agent,
        walk := list.map fun e => ⟨some e.1, e.2, e.2.addr, e.2.pitchB, false, e.2.dstX, e.2.dstY, e.2.defM,
          f.members.findIdx fun o => o.1 == e.1⟩,
        scaled := [], swi := false, refused := false, parity := false, surface := some f.addr, store := [],
        fetched := [], early := [] }

/-- BAND_START (R13): a free group starts the first band of its queue; with none queued, a rebuild band (R129). -/
def effBandStart (g : Nat) (s : State) : State :=
  let x := s.groupOf g
  if s.part.groups ≤ g || x.running.isSome then s
  else match x.queue with
  | e :: q =>
    let k := (e.1, e.2.1, e.2.2.1, e.2.2.2.1)
    match s.bandOf k with
    | none => s.setGroup g { x with queue := q }
    | some b =>
      let (s, cores) := s.startCores b.cfg
      let s := s.putBand g { b with stage := .running }
      let s := (b.head / 32 :: b.scaled.map fun q => 4 + q.unit).foldl State.portBand s
      s.setGroup g { x with
        queue := q, running := some k, cores := cores, saved := if x.rebuild.isSome then x.cores else [] }
  | [] =>
    if x.rebuild.isSome then s
    else match s.nextRebuild g with
    | none => s
    | some b =>
      let (s, cores) := s.startCores b.cfg
      s.setGroup g { x with rebuild := some b, cores := cores }

def execBandStart (group : Nat) (s : State) : Host.Outcome State Fault Refusal := s.done (effBandStart group s)

/-! ## The head stage and the band buffer (R23, R163, R189) -/

/-- The pixel a store line holds at column x of the head's active area; none where nothing was written. -/
def StoreLine.px (l : StoreLine) (spanX x : Nat) : Option Px :=
  ((l.cols.find? fun e => e.1 == (x - spanX) / 16).bind fun e => e.2[(x - spanX) % 16]?)

/-- CLAMP (R100, R163): n channel values of head h clamped in a sub-frame. DEDUCED, log entry 68. -/
def State.clamp (s : State) (h tick phase n : Nat) : State :=
  if n = 0 then s
  else
    let s := s.bumpSat (F.headCountClampcnt h) n
    let x := s.headOf h
    if x.clampSeen = some (tick, phase) then s
    else (s.setHead h { x with clampSeen := some (tick, phase) }).raise (F.headEventClamp h) (4 * h + 4)

/-- A span of a line through the head stage: its encoded pixels and the channels clamped. Vectors never written are HEAD.FILL. -/
def State.encodeSpan (s : State) (g : Nat) (c : HeadCfg) (core : Nat) (l : StoreLine) : List Nat × Nat :=
  ((List.range (c.spanPx core)).map (c.spanX core + ·)).foldl (fun (a : List Nat × Nat) x =>
    match l.px (c.spanX core) x with
    | none => (a.1 ++ [c.fillPx], a.2)
    | some p => let e := s.headStage g c p; (a.1 ++ [e.1], a.2 + e.2)) ([], 0)

/-- The image of a band from its store: a span of a line with no release is HEAD.FILL (R88). DEDUCED, log entry 49. -/
def Band.image (b : Band) : List (List Nat) :=
  (List.range b.lines).map fun l =>
    ((List.range 8).filter fun k => k * b.cfg.spanCols < b.cfg.vcols).flatMap fun k =>
      match b.store.find? fun e => e.1 == 8 * l + k with
      | some e => e.2
      | none => List.replicate (b.cfg.spanPx k) b.cfg.fillPx

/-- A release leaves the head stage: the line is in the band buffer (R189), of a band in flight, or of a band sent whose transmission
has not reached the line (R190). A second release of a line is discarded. DEDUCED, log entry 48. -/
def State.encodeRelease (s : State) (g : Nat) (r : Release) : State :=
  let h := r.key.1
  let line := r.line.line
  let clamped (s : State) (n : Nat) : State :=
    ((h :: s.copiesOf h r.key.2.1).filter fun k => k == h || s.get (F.headStatusState k) != 2).foldl
      (fun s k => s.clamp k r.key.2.1 r.key.2.2.1 n) s
  match s.bandOf r.key with
  | some b =>
    if b.store.any fun e => e.1 == 8 * line + r.core then s
    else
      let e := s.encodeSpan g b.cfg r.core r.line
      clamped (s.putBand g { b with store := b.store ++ [(8 * line + r.core, e.1)] }) e.2
  | none =>
    let same (s : State) (x : Sent) : Bool :=
      x.tick == r.key.2.1 && x.phase == r.key.2.2.1 && x.j == r.key.2.2.2 && x.kind == 0 && s.lineOpen x line
    let hs := (h :: s.copiesOf h r.key.2.1).filter fun k => (s.headOf k).sent.any (same s)
    match (s.headOf h).sent.find? (same s) with
    | none => s
    | some x =>
      let e := s.encodeSpan g x.cfg r.core r.line
      let s' := hs.foldl (fun s k => match (s.headOf k).sent.find? (same s) with
        | some y => s.patchSent k r.core line e.1 y
        | none => s) s
      clamped s' e.2

/-- Checkpoint releases go before all waiting work of the head stage, behind the release it is encoding (R189, R190).
DEDUCED, log entry 48. -/
def stageCheckpoint (q cps : List Release) : List Release :=
  match q with
  | [] => cps
  | x :: xs => x :: (xs.takeWhile (·.checkpoint) ++ cps ++ xs.dropWhile (·.checkpoint))

/-- The open store line of core k as a checkpoint release. -/
def CoreSt.checkpoint (c : CoreSt) (k : Nat) (key : Nat × Nat × Nat × Nat) : Option Release :=
  if !c.on then none
  else match c.line with
  | none => none
  | some l => if c.released.contains l.line then none else some ⟨k, l, true, key⟩

/-! ## BAND_COMPLETE -/

/-- BAND_COMPLETE (R191): every core of the group has ended and every release has been encoded. -/
def effBandComplete (g : Nat) (s : State) : State :=
  let x := s.groupOf g
  let ended := x.cores.all fun e => !e.2.on
  match x.running with
  | some k =>
    if !ended || x.stageQ.any (fun r => r.key == k) then s
    else match s.bandOf k with
    | none => s.setGroup g x.leave
    | some b => (s.putBand g { b with stage := .complete }).setGroup g x.leave
  | none =>
    match x.rebuild with
    | none => s
    | some b =>
      if !ended then s
      else
        let next (f : Surface) : Surface := if f.building && some f.addr == b.surface then { f with nextBand := b.j + 1 } else f
        { s with surfaces := s.surfaces.map next }.setGroup g { x with rebuild := none, cores := [] }

def execBandComplete (group : Nat) (s : State) : Host.Outcome State Fault Refusal := s.done (effBandComplete group s)

/-- FLATTEN_DONE (R129): every band of a surface of head h has been rebuilt. -/
def effFlattenDone (h : Nat) (s : State) : State :=
  let full (f : Surface) : Bool := f.head == h && f.building && (s.headOf h).cfg.nb ≤ f.nextBand
  match s.surfaces.find? full with
  | none => s
  | some f =>
    let s := { s with surfaces := s.surfaces.map fun y => if y == f then { f with valid := true, building := false } else y }
    s.flattenCounts.flattenEvent h F.fltStatFlattenDone

def execFlattenDone (head : Nat) (s : State) : Host.Outcome State Fault Refusal := s.done (effFlattenDone head s)

/-! ## BAND_DEADLINE -/

/-- A late or broken band is counted (R88, R173): GRP.ABANDON, LATECNT, BAND_LATE once in a sub-frame. DEDUCED, log entry 68. -/
def State.countLate (s : State) (g : Nat) (b : Band) : State :=
  let s := s.bump (F.grpAbandonCount g)
  let s := s.bumpSat (F.headCountLatecnt b.head)
  let x := s.headOf b.head
  if x.lateSeen = some (b.tick, b.phase) then s
  else (s.setHead b.head { x with lateSeen := some (b.tick, b.phase) }).raise (F.headEventBandLate b.head) (4 * b.head + 2)

/-- Wait cycles of a core (R194): STALLMAX follows, and STALL_LIMIT when the band's waits pass STALLTHR. DESIGN CHOICE, log entries 7,
45. The comparison is made as waits are added. DESIGN CHOICE, log entry 174. -/
def State.addWait (s : State) (g : Nat) (b : Band) (c : CoreSt) (n : Nat) : State × CoreSt :=
  let w := c.waited + n
  let s := if s.get (F.grpStallmaxCycles g) < w then
      (s.put (F.grpStallmaxCycles g) (satAt 0xFFFFFF w)).put (F.grpStallmaxHead g) b.head else s
  let thr := s.get (F.grpStallthrCycles g)
  let s := if c.waited ≤ thr && thr < w then
      (s.put (F.grpEventHead g) b.head).raise (F.grpEventStallLimit g) (514 + 4 * g) else s
  (s, { c with waited := w })

/-- Cycles of the compose clock since it stood at `since` tenths. -/
def State.composeCycles (s : State) (since : Nat) : Nat := (s.time.compTenths - since) / 10

/-- The waits that a band's end cuts short are counted up to then (R194). DEDUCED, log entry 162. -/
def State.cutWaits (s : State) (g : Nat) (b : Band) : State :=
  (s.groupOf g).cores.foldl (fun s e =>
    if e.2.on && e.2.wait != .none then
      (s.addWait g b e.2 (s.composeCycles e.2.since - e.2.listed)).1
    else s) s

/-- The group gives up a band at its deadline: it leaves the queue, or its cores stop with their checkpoints (R88, R190). -/
def State.abandon (s : State) (g : Nat) (b : Band) : State :=
  let s := if (s.groupOf g).running = some b.key then s.cutWaits g b else s
  let x := s.groupOf g
  let x := { x with queue := x.queue.filter fun e => !b.isKey (e.1, e.2.1, e.2.2.1, e.2.2.2.1) }
  if x.running = some b.key then
    let cps := x.cores.filterMap fun e => e.2.checkpoint e.1 b.key
    s.setGroup g { x.leave with stageQ := stageCheckpoint x.stageQ cps }
  else s.setGroup g x

/-- A band sent on head h, and how many stay in its band buffer. -/
def State.sendBand (s : State) (h : Nat) (depth : Nat) (x : Sent) : State :=
  let y := s.headOf h
  let l := y.sent ++ [x]
  s.setHead h { y with sent := l.drop (l.length - max 1 depth) }

/-- The head's band in flight of earliest deadline, the oldest of equals. -/
def HeadSt.earliest (x : HeadSt) : Option Band :=
  x.bands.foldl (fun (a : Option Band) b => match a with
    | none => some b
    | some c => if b.deadline < c.deadline then some b else some c) none

/-- What a band sends at its deadline (R88, R91, R97): what kind of band it is, and its lines. -/
def Band.sends (b : Band) : Nat × List (List Nat) :=
  let line (v : Nat) : List (List Nat) := List.replicate b.lines (List.replicate b.cfg.hact v)
  match b.stage with
  | .black => (1, line 0)
  | .safeFill => (2, line b.cfg.fillPx)
  | _ => (0, b.image)

/-- BAND_DEADLINE of head h: its band of earliest deadline is sent (R88, R91, R97), and Dusk begins at that boundary (R62).
DEDUCED, log entries 39, 40. -/
def effBandDeadline (h : Nat) (s : State) : State :=
  match (s.headOf h).earliest with
  | none => s
  | some b =>
    let s := s.advanceTo b.deadline
    let g := groupOfHead h b.cfg
    let late := b.stage == .queued || b.stage == .running
    let s := if late then
        let s := s.abandon g b
        if b.parity then s else s.countLate g b
      else s
    let x := s.headOf h
    let s := s.setHead h { x with bands := x.bands.filter fun c => !(c.isKey b.key && c.deadline == b.deadline) }
    let sent : Sent := ⟨b.tick, b.phase, b.j, b.deadline, b.sends.1, b.cfg, b.sends.2, false, none, b.j + 1 == b.cfg.nb, late || b.parity⟩
    let s := s.sendBand h b.cfg.depth sent
    let s := (s.copiesOf h b.tick).foldl (fun s k =>
      let copy := { sent with cfg := ((s.headOf k).cfgAt b.tick).copyOf b.cfg }
      s.sendBand k b.cfg.depth (if s.get (F.headStatusState k) = 2 then
        { copy with kind := 1, image := List.replicate b.lines (List.replicate b.cfg.hact 0) } else copy)) s
    if (s.headOf h).duskPend then s.duskHead h else s

def execBandDeadline (head : Nat) (s : State) : Host.Outcome State Fault Refusal := s.done (effBandDeadline head s)

end Sys2Proof.Machine
end

