-- ==== Sys2Proof/Machine/Fence.lean ====
section
/-! DEFINITION. Fence signals (R116, R130) and the flush of the flatten cache (R130). -/

namespace Sys2Proof.Machine

/-- Surfaces that `hit` names are invalidated; a partial rebuild is discarded (R130). -/
def State.invalidate (s : State) (hit : Surface → Bool) : State :=
  let f (x : Surface) : Surface := if hit x then { x with valid := false, inUse := false, building := false, nextBand := 0 } else x
  ({ s with surfaces := s.surfaces.map f }).flattenCounts.settleRebuilds

/-- A layer that refers to fence n. -/
def LayerCfg.usesFence (c : LayerCfg) (n : Nat) : Bool := c.fen && c.fidx == n

/-- Heads that show a layer referring to fence n do not stay unchanged (R95). -/
def State.fenceSeen (s : State) (n : Nat) : State :=
  s.txHeads.foldl (fun s h =>
    let x := s.headOf h
    if x.layers.any fun e => e.2.en && (e.2.phmask &&& x.cfg.phmask) != 0 && e.2.usesFence n then
      s.setHead h { x with unchanged := false, twiExit := true }
    else s) s

/-- A fence signal, stamped (R116): what depends on it follows. -/
def State.takeSignal (s : State) (n v stamp : Nat) : State :=
  ((s.signalFence n v stamp).invalidate fun f => f.members.any fun e => e.2.usesFence n).fenceSeen n

/-- FENCE_SIGNAL: the write of LAYER.FENCE[n] by an agent. -/
def effFence (n : Nat) (value : Word) (s : State) : State :=
  if 1024 ≤ n then s
  else (s.takeSignal n (value.toNat % 65536) s.now).forward 5 [n, value.toNat % 65536, s.now]

def execFenceSignal (agent n : Nat) (value : Word) (s : State) : Host.Outcome State Fault Refusal :=
  s.done (s.guardWrite agent (Reg.layerFence n) (effFence n value))

/-- FLUSH: a write to FLT.CTL; EN is stored, and FLUSH written with 1 invalidates every surface. -/
def effFlush (value : Word) (s : State) : State :=
  let s := s.store Reg.fltCtl value
  if bit value.toNat 1 then s.invalidate fun _ => true else s

def execFlush (agent : Nat) (value : Word) (s : State) : Host.Outcome State Fault Refusal :=
  s.done (s.guardWrite agent Reg.fltCtl (effFlush value))

end Sys2Proof.Machine
end

