-- ==== Sys2Proof/Machine/Cxl.lean ====
section
/-! DEFINITION. The CXL host interface (R269 to R284): link state and budget, snoops, the CXL.mem window, and MSI-X unmasking. -/

namespace Sys2Proof.Machine

/-! ## The link (R269, R272) and its budgets (R275, R276) -/

/-- GT/s of a rate code. -/
def cxlRateGt : Nat → Nat
  | 1 => 16
  | 2 => 32
  | 3 => 64
  | _ => 0

/-- 80 × (width × rate) ÷ (16 × 64) ÷ S in bytes per ns: the write share, and the first term of B_rd; 0 outside L0. -/
def State.cxlWriteShare (s : State) : Q :=
  if s.flag F.cxlLinkL0 then ⟨(80 * (s.get F.cxlLinkWidth * cxlRateGt (s.get F.cxlLinkRate)) : Nat), 1024 * s.part.sectors⟩ else ⟨0, 1⟩

/-- B_rd in bytes per ns (R275). -/
def State.cxlReadShare (s : State) : Q :=
  if s.flag F.cxlLinkL0 then s.cxlWriteShare.min ⟨(s.cxlReserved * 64 : Nat), s.cxlLat⟩ else ⟨0, 1⟩

/-- CXL.BUDGET follows the link state and LAT. -/
def State.cxlBudget (s : State) : State :=
  let u (x : Q) : Nat := (x.mul (.ofNat 500)).floor.toNat
  (s.put F.cxlBudgetRdshare (u s.cxlReadShare)).put F.cxlBudgetWrshare (u s.cxlWriteShare)

/-- Messages that waited for the link are sent (R394). -/
def State.flushMsix (s : State) : State :=
  let s' := s.icu.msixHeld.foldl (fun s e => s.emit (.msix e.1 e.2)) s
  { s' with icu := { s'.icu with msixHeld := [] } }

/-- A width and rate that the link trains to (R269). -/
def cxlTrains (width rate : Nat) : Bool := (width == 16 || width == 8 || width == 4) && 1 ≤ rate && rate ≤ 3

/-- Some function that SR-IOV enables is in D0; the link is in L1 where none is (R269, R270). -/
def State.someD0 (s : State) : Bool :=
  (List.range 8).any fun f =>
    (f == 0 || (bit (s.cfgWord 0 0x108) 0 && f ≤ s.cfgWord 0 0x110 % 2 ^ 16)) && s.cfgWord f 0x44 % 4 == 0

/-- LINK_STATE. An exit from L0 to L1 is none for recovery. DEDUCED, log entry 67. -/
def effLinkState (l0 : Bool) (width rate : Nat) (s : State) : State :=
  let w := if l0 then width else 0
  let r := if l0 then rate else 0
  let was := s.flag F.cxlLinkL0
  if l0 && !cxlTrains width rate then s
  else if was == l0 && s.get F.cxlLinkWidth == w && s.get F.cxlLinkRate == r then s
  else
    let s := ((s.put F.cxlLinkL0 (ofBool l0)).put F.cxlLinkWidth w).put F.cxlLinkRate r
    let s := s.put F.cxlLinkFlit256 (ofBool (r == 3))
    let s := if was && !l0 && s.someD0 then s.bump F.cxlLinkRetrains else s
    let s := s.cxlBudget.raise F.cxlEventLinkState 717
    if !l0 then s
    else
      let s := { s with cxl := { s.cxl with up := true } }
      let s := if w < 16 || r < 3 then s.raise F.cxlEventCxlDegraded 718 else s
      s.flushMsix.flushHost

def execLinkState (l0 : Bool) (width rate : Nat) (s : State) : Host.Outcome State Fault Refusal :=
  s.done (effLinkState l0 width rate s)

/-! ## Snoops (R273) and the CXL.mem window (R282) -/

def execHostSnoop (addr : Nat) (s : State) : Host.Outcome State Fault Refusal := s.done (s.emit (.snoopMiss addr))

/-- Local address of a host physical address inside the HDM decoder. -/
def State.hdmLocal (s : State) (hpa n : Nat) : Option Nat :=
  let b := s.cxl.hdmBase * 2 ^ 28
  if b ≤ hpa ∧ hpa + n ≤ b + min (s.cxl.hdmSize * 2 ^ 28) s.capacity then some (hpa - b) else none

/-- A host read answered with poison (R128, R282). -/
def State.hostPoison (s : State) (hpa len : Nat) : State :=
  (s.raise F.cxlEventHdmPoison 721).emit (.completion hpa (List.replicate len 0) true)

/-- HOST_MEM_READ: checked as the host PF. The flatten region, a check part and a frozen controller give poison (R128, R282); what a
read outside every granting window returns the spec does not say, so its bytes and its poison are free. DESIGN CHOICE, log entry 87. -/
def effHostRead (hpa len : Nat) (s : State) : State :=
  match s.hdmLocal hpa len with
  | none => s.emit (.unsupported hpa)
  | some a =>
    if s.meetsFlatten a len then (s.violation 4 false 1 a).hostPoison hpa len
    else if !s.granted 4 false 0 a len then
      let k := s.fresh
      let s := (s.violation 4 false 1 a).ticks (len + 1)
      if Config.freeNat k % 2 = 1 then s.hostPoison hpa len
      else s.emit (.completion hpa ((List.range len).map fun i => (Config.freeByte (k + i)).toNat) false)
    else if s.localDead a len then s.hostPoison hpa len
    else (s.useLocal 30 a len).emit (.completion hpa (s.dramRead a len) false)

def execHostMemRead (hpa len : Nat) (s : State) : Host.Outcome State Fault Refusal := s.done (effHostRead hpa len s)

/-- HOST_MEM_WRITE. -/
def effHostWrite (hpa : Nat) (data : List Nat) (s : State) : State :=
  match s.hdmLocal hpa data.length with
  | none => s.emit (.unsupported hpa)
  | some a =>
    let s := if !s.granted 4 true 0 a data.length then s.violation 4 true 1 a else s.localStore 30 a data
    s.emit (.completion hpa [] false)

def execHostMemWrite (hpa : Nat) (data : List Byte) (s : State) : Host.Outcome State Fault Refusal :=
  s.done (effHostWrite hpa (data.map BitVec.toNat) s)

/-! ## MSI-X (R284) -/

/-- Messages whose function and entry are no longer masked leave, oldest first. -/
def State.msixFlow (s : State) : State :=
  let due := s.icu.msixPend.filter s.msixOpen
  let s := due.foldl State.emitMsix s
  { s with icu := { s.icu with msixPend := s.icu.msixPend.filter fun e => !due.contains e } }

/-- MSIX_UNMASK: the entry of a function is unmasked. PRESUMED, log entry 91. -/
def effUnmask (func entry : Nat) (s : State) : State :=
  let e := (func, entry)
  if 8 ≤ func || 4 ≤ entry || s.icu.unmasked.contains e then s
  else ({ s with icu := { s.icu with unmasked := s.icu.unmasked ++ [e] } }).msixFlow

def execMsixUnmask (func entry : Nat) (s : State) : Host.Outcome State Fault Refusal := s.done (effUnmask func entry s)

end Sys2Proof.Machine
end

