-- ==== Sys2Proof/Machine/Flags.lean ====
section
/-! DEFINITION. An FKL instruction word (R178), scalar arithmetic, conditions and predicates (R179, R180). -/

namespace Sys2Proof.Machine

/-- An instruction word's fields (R178). -/
structure Ins where
  op : Nat
  pr : Nat
  pn : Bool
  d : Nat
  a : Nat
  b : Nat
  c : Nat
  imm : Nat
  deriving DecidableEq, Repr

/-- The fields of a 64-bit word. -/
def Ins.ofNat (x : Nat) : Ins :=
  ⟨field x 0 8, field x 8 3, bit x 11, field x 12 5, field x 17 5, field x 22 5, field x 27 5, field x 32 32⟩

/-- IMM as a signed 32-bit value. -/
def Ins.simm (i : Ins) : Int := signed 32 i.imm

/-- LSEL, or UNIT of WAIT. -/
def Ins.lsel (i : Ins) : Nat := field i.imm 0 8

/-- FN. -/
def Ins.fn (i : Ins) : Nat := field i.imm 8 8

/-- COUNT of LOOP. -/
def Ins.count (i : Ins) : Nat := field i.imm 0 16

/-- BLEN of LOOP. -/
def Ins.blen (i : Ins) : Nat := field i.imm 16 14

/-- A scalar register; s0 reads zero (R178). -/
def sreg (r : List Word64) (n : Nat) : Word64 := if n = 0 then 0 else r.getD n 0

/-- A scalar register written; a write to s0 is discarded. -/
def setSreg (r : List Word64) (n : Nat) (v : Word64) : List Word64 := if n = 0 then r else r.set n v

/-- A predicate register, bits [2:0] of its field; p0 is true. -/
def preg (p : List Bool) (n : Nat) : Bool := if n % 8 = 0 then true else p.getD (n % 8) false

/-- A predicate register written; a write to p0 is discarded. -/
def setPreg (p : List Bool) (n : Nat) (v : Bool) : List Bool := if n % 8 = 0 then p else p.set (n % 8) v

/-- The instruction's predicate holds: p[PR] XOR PN is 1 (R178). -/
def Ins.holds (i : Ins) (p : List Bool) : Bool := preg p i.pr != i.pn

/-- ADD, SUB, AND, OR, XOR, SHL, SHR, SRA, MUL by opcode (R179, R180). -/
def aluOp (op : Nat) (a b : Word64) : Word64 :=
  match op with
  | 0x01 => a + b
  | 0x02 => a - b
  | 0x03 => a &&& b
  | 0x04 => a ||| b
  | 0x05 => a ^^^ b
  | 0x06 => a <<< (b.toNat % 64)
  | 0x07 => a >>> (b.toNat % 64)
  | 0x08 => a.sshiftRight (b.toNat % 64)
  | _ => a * b

/-- A signed 32-bit immediate as a 64-bit value. -/
def simm64 (i : Ins) : Word64 := BitVec.ofInt 64 i.simm

/-- MOVHI (R179): the low half kept, IMM above it. -/
def movhi (a : Word64) (imm : Nat) : Word64 := BitVec.ofNat 64 (a.toNat % 2 ^ 32 + imm * 2 ^ 32)

/-- The condition C of CMP and CMPI (R180); an undefined one holds for none. -/
def cmpHolds (c : Nat) (a b : Word64) : Bool :=
  match c with
  | 0 => a == b
  | 1 => a != b
  | 2 => a.ult b
  | 3 => b.ule a
  | 4 => a.slt b
  | 5 => b.sle a
  | _ => false

/-- The operation C of PLOG (R180). -/
def plogOp (c : Nat) (a b : Bool) : Bool :=
  match c with
  | 0 => a && b
  | 1 => a || b
  | 2 => a != b
  | 3 => a && !b
  | _ => false

/-- A value of `n` bytes extended to 64 bits, with its sign when `sx` (LD). -/
def extend (n : Nat) (sx : Bool) (x : Nat) : Word64 :=
  if sx then BitVec.ofInt 64 (signed (8 * n) x) else BitVec.ofNat 64 x

end Sys2Proof.Machine
end

