-- ==== Sys2Proof/Machine/Compose.lean ====
section
/-! DEFINITION. The compose cores (R170 to R191, R194): reading an instruction of the head program, and the effect of each. -/

namespace Sys2Proof.Machine

/-! ## Program store (R170 to R173) -/

/-- BAR0 offset of byte `o` of group g's program store. -/
def pstore (g o : Nat) : Nat := 0x1000000 + 0x100000 * g + o

/-- The 64-bit word at byte `o` of the program store. -/
def State.progWord (s : State) (g o : Nat) : Nat := s.rd64 (pstore g o)

/-- A phase table entry (R171). -/
structure PhaseEntry where
  prog : Nat
  len : Nat
  keymap : Nat
  keyn : Nat
  deriving DecidableEq, Repr

def PhaseEntry.ofNat (x : Nat) : PhaseEntry :=
  ⟨field x 0 18, if field x 18 14 = 0 then 16384 else field x 18 14, field x 32 18, field x 50 4⟩

/-- Entry of a phase in the table of a head's set. -/
def State.phaseEntry (s : State) (g : Nat) (c : HeadCfg) (phase : Nat) : PhaseEntry :=
  .ofNat (s.progWord g (c.table + 8 * phase))

/-! ## A core's place in its band -/

/-- Cursor of a kind of band constant: the iteration of the enclosing loop (R177). -/
def CoreSt.cursor (c : CoreSt) (kind : Nat) : Nat :=
  match c.loops.find? fun f => f.kind == kind with
  | some f => f.iter
  | none => 0

/-- The core is inside a loop of a kind. -/
def CoreSt.inside (c : CoreSt) (kind : Nat) : Bool := c.loops.any fun f => f.kind == kind

/-- The walk position that LSEL names (R182). -/
def CoreSt.walkPos (c : CoreSt) (lsel : Nat) : Nat := if lsel = 0xFF then c.cursor 3 else lsel

/-- A band constant of the running band (R175): 1 LINES, 2 SPANV, 3 LAYERS. -/
def Band.const (b : Band) (k kind : Nat) : Nat :=
  match kind with
  | 1 => b.lines
  | 2 => b.cfg.spanV k
  | _ => b.walk.length

/-- Active line and first column of the cursor (R177). -/
def CoreSt.at (c : CoreSt) (b : Band) (k : Nat) : Nat × Nat :=
  (b.j * b.cfg.bandLines + c.cursor 1, b.cfg.spanX k + 16 * c.cursor 2)

/-- Loops that end at the next instruction take their next iteration or end (R191). -/
def settleLoops : List LoopFrame → Nat → List LoopFrame × Nat
  | [], pc => ([], pc)
  | f :: fs, pc =>
    if pc = f.stop then
      if f.iter + 1 < f.count then ({ f with iter := f.iter + 1 } :: fs, f.start) else settleLoops fs pc
    else (f :: fs, pc)

/-- The core goes on at instruction `pc`. -/
def CoreSt.goto (c : CoreSt) (pc : Nat) : CoreSt :=
  let r := settleLoops c.loops pc
  { c with loops := r.1, pc := r.2 }

/-- Core k of group g with a new state. -/
def State.putCore (s : State) (g k : Nat) (c : CoreSt) : State := s.setGroup g ((s.groupOf g).setCore k c)

/-- Cycles issued by a core: RTCYC, or NRTCYC for a rebuild band (GRP). DESIGN CHOICE, log entry 7. -/
def State.addCycles (s : State) (g : Nat) (b : Band) (n : Nat) : State :=
  let off := if b.surface.isSome then Reg.grpNrtcycLo g else Reg.grpRtcycLo g
  s.wr64 off ((s.rd64 off + n) % 2 ^ 64)

/-- The word at byte `o` of a program store shows a parity error from now on (R173). -/
def State.markBad (s : State) (g o : Nat) : State :=
  let x := s.groupOf g
  let w := o / 8 * 8
  if 0x40000 ≤ o || x.badWords.contains w then s else s.setGroup g { x with badWords := x.badWords ++ [w] }

/-- A lane as its eight bytes' number, and back. -/
def Px.toNat (p : Px) : Nat := p.r.toNat + 2 ^ 16 * p.g.toNat + 2 ^ 32 * p.b.toNat + 2 ^ 48 * p.a.toNat

def Px.ofNat (x : Nat) : Px := mkPx (field x 0 16) (field x 16 16) (field x 32 16) (field x 48 16)

/-- A store line of a rebuild band goes to its surface in working format (R195). -/
def State.toSurface (s : State) (b : Band) (k : Nat) (l : StoreLine) : State :=
  match b.surface with
  | none => s
  | some a =>
    let row := a + (b.j * b.cfg.bandLines + l.line) * (ceilDiv (b.cfg.hact * 8) 64 * 64)
    l.cols.foldl (fun s e => e.2.zipIdx.foldl (fun s p =>
      let x := b.cfg.spanX k + 16 * e.1 + p.2
      if x < b.cfg.hact then s.localStore 29 (row + 8 * x) (bytesLE 8 p.1.toNat) else s) s) s

/-- PSTORE_PARITY at byte `o` (R173): the core's work on the band ends as at its deadline, its open store line released, and the band is
counted once, a rebuild band in the sub-frame of the current tick.
DEDUCED, log entry 50. -/
def State.parityEnd (s : State) (g k o : Nat) (b : Band) (c : CoreSt) : State :=
  let x := s.groupOf g
  let x := { x with badWords := if x.badWords.contains (o / 8 * 8) then x.badWords else x.badWords ++ [o / 8 * 8] }
  let cps := if b.surface.isSome then [] else (c.checkpoint k b.key).toList
  let s := match c.line with
    | some l => s.toSurface b k l
    | none => s
  let s := s.setGroup g ({ x with stageQ := stageCheckpoint x.stageQ cps }.setCore k { c with on := false, line := none })
  let s := (s.put (F.grpPaddrOffset g) o).put (F.grpPaddrKind g) 0
  let s := s.raise (F.grpEventPstoreParity g) (513 + 4 * g)
  if b.parity then s
  else (s.putBand g { b with parity := true }).countLate g (if b.surface.isSome then { b with tick := s.time.ticknum.toNat } else b)

/-- What core k of group g runs now: its band, the offset and the fields of its instruction, and its state; a waiting core runs the
instruction it waits on. A core that passes its program's last END, predicated false, runs whatever words follow in the store.
DESIGN CHOICE, log entry 145. -/
def State.composeAt (s : State) (g k : Nat) : Option (Band × Nat × Ins × CoreSt) :=
  let c := (s.groupOf g).coreOf k
  match s.current g with
  | none => none
  | some b =>
    if c.on then
      let e := s.phaseEntry g b.cfg b.phase
      let o := e.prog + 8 * c.pc
      let w := if c.wait = .none then s.progWord g o else c.ins
      some (b, o, Ins.ofNat w, { c with ins := w })
    else none

/-- One instruction of opcode `op` on core k of group g: nothing when the core's next instruction is another, or it waits; its cycles
count whatever its predicate (R178). `eff` answers the core with its pc still on the instruction, or moved by a branch, a loop or END. -/
def effCompose (g k op : Nat) (cost : Ins → Nat) (eff : State → Band → Ins → CoreSt → State × CoreSt) (s : State) : State :=
  match s.composeAt g k with
  | none => s
  | some (b, o, i, c) =>
    if c.wait != .none || i.op != op then s
    else if (s.groupOf g).badWords.contains (o / 8 * 8) then s.parityEnd g k o b c
    else
      let s := s.addCycles g b (cost i)
      if i.holds c.p then
        let r := eff s b i c
        r.1.putCore g k r.2
      else
        let skip := if i.op = 0x61 then i.blen + 1 else 1
        s.putCore g k (c.goto (c.pc + skip))

/-- An instruction that only changes the core and goes on. -/
def effPlain (g k op cost : Nat) (f : Ins → CoreSt → CoreSt) (s : State) : State :=
  effCompose g k op (fun _ => cost) (fun s _ i c => (s, (f i c).goto (c.pc + 1))) s

/-! ## Scratch (R181) -/

def CoreSt.scratchDefault (c : CoreSt) (a : Nat) : Byte := Config.scratchByte c.scratchTag a

def CoreSt.scratchRead (c : CoreSt) (a n : Nat) : Nat := ofBytesLE ((Mem.readBytes c.scratchDefault c.scratch a n).map BitVec.toNat)

def CoreSt.scratchWrite (c : CoreSt) (a n v : Nat) : CoreSt :=
  { c with scratch := Mem.writeBytes c.scratchDefault c.scratch a ((bytesLE n v).map (BitVec.ofNat 8)) }

/-- Scratch address of an access of `n` bytes: (sA + IMM) mod 65,536 aligned down. -/
def CoreSt.scratchAt (c : CoreSt) (i : Ins) (n : Nat) : Nat :=
  unsigned 16 (((sreg c.s i.a).toNat : Int) + i.simm) / n * n

/-- A vector register. -/
def CoreSt.vec (c : CoreSt) (n : Nat) : List Px := c.v.getD n Vec.zero

def CoreSt.setVec (c : CoreSt) (n : Nat) (v : List Px) : CoreSt := { c with v := c.v.set n v }

def CoreSt.setS (c : CoreSt) (n : Nat) (v : Word64) : CoreSt := { c with s := setSreg c.s n v }

def CoreSt.setP (c : CoreSt) (n : Nat) (v : Bool) : CoreSt := { c with p := setPreg c.p n v }

/-! ## Scalar, scratch and vector instructions -/

/-- SREAD (R177). DESIGN CHOICE, log entry 52. -/
def State.sread (s : State) (b : Band) (k : Nat) (c : CoreSt) (sel : Nat) : Nat :=
  match sel with
  | 0 => c.cursor 1
  | 1 => c.cursor 2
  | 2 => b.j
  | 3 => b.phase
  | 4 => b.head
  | 5 => b.walk.length
  | 6 => if c.inside 3 then (match b.walk[c.cursor 3]? with
      | some w => w.layer.getD 0x3FF
      | none => 0x3FF) else 0x3FF
  | 7 => b.cfg.spanX k
  | 8 => b.cfg.spanV k
  | 9 => b.lines
  | 10 => s.time.ticknum.toNat % 2 ^ 32
  | _ => (Config.freeWord s.fresh).toNat

/-- VLD: sixteen lanes from scratch. -/
def CoreSt.vld (c : CoreSt) (i : Ins) : CoreSt :=
  let a := c.scratchAt i 128
  c.setVec i.d ((List.range 16).map fun l => Px.ofNat (c.scratchRead (a + 8 * l) 8))

/-- VST: sixteen lanes to scratch. -/
def CoreSt.vst (c : CoreSt) (i : Ins) : CoreSt :=
  let a := c.scratchAt i 128
  (c.vec i.b).zipIdx.foldl (fun c e => c.scratchWrite (a + 8 * e.2) 8 e.1.toNat) c

/-! ## FETCH (R182) -/

/-- The data of a walk layer can come: a video layer needs its scaler band in a unit, and nothing comes from local memory while its
controller is frozen (R265). DESIGN CHOICE, log entry 44; DEDUCED, log entry 46. -/
def State.present (s : State) (b : Band) (w : Walk) : Bool :=
  w.fill || ((w.layer.isNone || !w.cfg.video || b.scaled.any fun x => x.pos == w.pos) &&
    !(s.frozen && (w.layer.isNone || w.cfg.srcType != 1)))

/-- Source columns and rows that an output pixel of a layer reads. -/
def Band.taps (b : Band) (w : Walk) (x y : Nat) : List (Nat × Nat) :=
  let c := w.cfg
  let r := clipRect b.cfg c w.dx w.dy
  if w.fill || !(r.x0 ≤ x && x < r.x1 && r.y0 ≤ y && y < r.y1) then []
  else if !c.video then [(((x : Int) - w.dx).toNat, ((y : Int) - w.dy).toNat)]
  else match b.scaled.find? fun q => q.pos == w.pos with
    | none => []
    | some q => match warpPos c q.m x y with
      | none => []
      | some (u, v) =>
        (List.range 6).flatMap fun (j : Nat) => (List.range 8).map fun (i : Nat) =>
          (clampIdx c.sw ((tapCentre u).1 - 3 + (i : Int)), clampIdx c.sh ((tapCentre v).1 - 2 + (j : Int)))

/-- The first granule refused to the band's agent among those the pixel reads (R452). -/
def State.refusedGranule (s : State) (b : Band) (w : Walk) (x y : Nat) : Option Nat :=
  if w.layer.isNone then none
  else (b.taps w x y).findSome? fun t => (w.spans t.1 t.2).findSome? fun p =>
    if s.granuleRefused b.agent (w.cfg.srcType == 1) p.1 p.2 then some (p.1 / 64 * 64) else none

/-- Granules, by address ÷ 64, of [a, a + n). -/
def granulesOf (p : Nat × Nat) : List Nat := (List.range ((p.1 + p.2 - 1) / 64 - p.1 / 64 + 1)).map (p.1 / 64 + ·)

/-- Granules that an output pixel of a walk layer reads; a 4:2:2 pixel also reads its neighbour's pair (R144). -/
def Band.pixelGranules (b : Band) (w : Walk) (x y : Nat) : List Nat :=
  if w.fill || b.cfg.hact ≤ x || b.cfg.vact ≤ y then []
  else if w.layer.isNone then granulesOf (w.addr + y * w.pitch + 8 * x, 8)
  else (b.taps w x y).flatMap fun t => (w.spans t.1 t.2).flatMap granulesOf

/-- The walk layer's buffer lies in host memory. -/
def Walk.host (w : Walk) : Bool := w.layer.isSome && w.cfg.srcType == 1

/-- Columns of the sixteen pixels at a core's cursor, and their line. -/
def CoreSt.fetchAt (c : CoreSt) (k : Nat) (b : Band) : List Nat × Nat :=
  ((List.range 16).map ((c.at b k).2 + ·), (c.at b k).1)

/-- Granules that a FETCH reads. -/
def CoreSt.fetchGranules (c : CoreSt) (k : Nat) (b : Band) (w : Walk) : List Nat :=
  ((c.fetchAt k b).1.flatMap fun x => b.pixelGranules w x (c.fetchAt k b).2).eraseDups

/-- Local buffer of a walk layer as an early fetch has read it. -/
def Band.earlyMem (b : Band) (w : Walk) : Option EarlyMem :=
  b.early.find? fun e => w.layer == some e.layer && e.addr == w.addr && e.pitch == w.pitch

/-- Memory as the fetch path sees it for a FETCH of granules `gs`: host granules as read for the band, and none else (R273, R278); local
memory as fetched early (R25), or as it is, with free bytes in a granule whose reads are poisoned. -/
def State.fetchView (s : State) (b : Band) (w : Walk) (gs : List Nat) : State :=
  if w.host then
    let got := b.fetched.filter fun e => gs.contains e.1
    { s with
      host := got.foldl (fun m e => hostStore m (64 * e.1) (e.2.getD [])) []
      hostBad := (got.filter (·.2.isNone)).map (·.1) }
  else match b.earlyMem w with
  | some e => { s with dram := e.dram }
  | none => gs.foldl (fun v g => if s.localDead (64 * g) 64 then v.dramWrite (64 * g) (s.dramSee (64 * g) 64) else v) s

/-- Requester whose port fetches a walk layer (R244): the flatten engine for a rebuild band, else the scaler that serves a video layer,
else the sector's head-fetch port. -/
def Band.fetchPort (b : Band) (w : Walk) : Nat :=
  if b.surface.isSome then 29
  else match b.scaled.find? fun q => q.pos == w.pos with
  | some q => if w.layer.isSome && w.cfg.video then 4 + q.unit else b.head / 32
  | none => b.head / 32

/-- Local granules that a FETCH reads now; the protection map's refusals are not read (R452). -/
def State.fetchUse (s : State) (b : Band) (w : Walk) (all : List Nat) : State :=
  if w.host || (b.earlyMem w).isSome then s
  else
    let gs := all.filter fun g => w.layer.isNone || !s.granuleRefused b.agent false (64 * g) 64
    (gs.foldl (fun s g => s.granuleAccess (b.fetchPort w) (64 * g)) s).ticks
    (if gs.any fun g => s.localDead (64 * g) 64 then 64 else 0)

/-- The sixteen pixels at the cursor of the layer LSEL names, and the protection refusal it meets, once a band. -/
def State.fetchVec (s : State) (g k : Nat) (b : Band) (i : Ins) (c : CoreSt) : State × CoreSt :=
  let at0 := c.fetchAt k b
  match b.walk[c.walkPos i.lsel]? with
  | none => (s, c.setVec i.d Vec.zero)
  | some w =>
    let inHead (x : Nat) : Bool := x < b.cfg.hact && at0.2 < b.cfg.vact
    let gs := c.fetchGranules k b w
    let v := s.fetchView b w gs
    let px := at0.1.map fun x => if inHead x then v.walkPx b w x at0.2 else Px.zero
    let bad := if b.refused then none else at0.1.findSome? fun x => if inHead x then s.refusedGranule b w x at0.2 else none
    let s := match bad with
      | none => s
      | some a => (s.violation b.agent false 2 a).putBand g { b with refused := true }
    (s.fetchUse b w gs, c.setVec i.d px)

/-- Those of some granules of a walk layer that are still to be read from host memory; the protection map's refusals are not read (R450,
R452). -/
def State.hostNeeds (s : State) (b : Band) (w : Walk) (gs : List Nat) : List Nat :=
  if w.host then gs.filter fun g => !b.fetched.any (·.1 == g) && !s.granuleRefused b.agent true (64 * g) 64 else []

/-- Granules that a FETCH still needs from host memory. -/
def State.fetchNeeds (s : State) (c : CoreSt) (k : Nat) (b : Band) (i : Ins) : List Nat :=
  match b.walk[c.walkPos i.lsel]? with
  | none => []
  | some w => s.hostNeeds b w (c.fetchGranules k b w)

/-- CXL.cache reads of granules for a band, those apart that are outstanding (R273, R274). -/
def State.askGranules (s : State) (r : CxlRead) (gs : List Nat) : State := s.cxlAskAll r (gs.filter fun g => !s.cxlAsked r g)

/-- The CXL.cache read that fetches for a band of group g. -/
def State.fetchRead (s : State) (g : Nat) (b : Band) (layer : Nat) : CxlRead :=
  ⟨0, 0, .fetch, b.surface.isNone, b.head / 32, layer, if b.surface.isSome then g else 0, b.key, false, 0, s.bandTimeNs b.cfg⟩

/-- FETCH: waits until its data is present; data in host memory is present once it has been read for the band.
DESIGN CHOICE, log entry 44. -/
def effFetchStart (g k : Nat) (ready : Bool) (s : State) (b : Band) (i : Ins) (c : CoreSt) : State × CoreSt :=
  let here := match b.walk[c.walkPos i.lsel]? with
    | none => true
    | some w => s.present b w
  let need := s.fetchNeeds c k b i
  if ready && here && need.isEmpty then
    let r := s.fetchVec g k b i c
    (r.1, r.2.goto (c.pc + 1))
  else
    let s := match b.walk[c.walkPos i.lsel]? with
      | some w => s.askGranules (s.fetchRead g b (w.layer.getD 0)) need
      | none => s
    (s, { c with wait := .fetch, since := s.time.compTenths, listed := 2 })

/-- FETCH_DATA_READY: the waiting FETCH completes after `cycles` wait cycles. -/
def effFetchReady (g k cycles : Nat) (s : State) : State :=
  match s.composeAt g k with
  | none => s
  | some (b, _, i, c) =>
    let here := match b.walk[c.walkPos i.lsel]? with
      | none => true
      | some w => s.present b w
    if c.wait != .fetch || !here || !(s.fetchNeeds c k b i).isEmpty then s
    else
      let w := s.addWait g b { c with wait := .none } cycles
      let r := w.1.fetchVec g k b i w.2
      r.1.putCore g k (r.2.goto (c.pc + 1))

/-! ## Early fetch (R25, R280) -/

/-- What layer i of head h may fetch early: the band (tick, phase, number, first line's place, set) and the layer as the band will walk
it. A buffer that a commit newly selects, or that a WAIT_BANDS layer waits for, needs its fence at the instant of issue, or none; a
layer with a pose binding fetches nothing early. -/
def State.earlyPlan (s : State) (h i : Nat) : Option (Run × Walk) :=
  let x := s.headOf h
  let walk (c : LayerCfg) (addr pitch : Nat) (fill : Bool) : Walk := ⟨some i, c, addr, pitch, fill, c.dstX, c.dstY, c.defM, 0⟩
  match s.nextRun x.runs with
  | some r =>
    if r.mode != .queued then none
    else (r.shown.find? fun e => e.layer == i && !e.cfg.bound).bind fun e => match e.waiting with
      | some c => if s.fenceTest c.fidx c.fval s.now then some (r, walk c c.addr c.pitchB false) else none
      | none => if e.empty then none else some (r, walk e.cfg e.addr e.pitch e.fill)
  | none =>
    let t := x.latchTick
    let ts := s.structFor t
    let set := s.selects h t
    let hc := (set.bind fun c => c.heads.lookup h).getD x.cfg
    let old := x.layers.lookup i
    match (set.bind fun c => c.layers.lookup i) <|> old, hc.phaseFrom ts.phases 0 with
    | some c, some p =>
      let known := old == some c && (s.layerRt i).wasReady
      if c.owner = h && hc.en && c.en && c.srcType < 2 && !c.bound && (known || !c.fen || s.fenceTest c.fidx c.fval s.now) then
        some (⟨t, false, hc, x.agent, (List.range ts.phases).map fun k => s.tickT t + (ts.ofs k : Int), .queued, p, 0, [], []⟩,
          walk c c.addr c.pitchB false)
      else none
    | _, _ => none

/-- The earliest instant of a fetch for a run's next band: one band-time before its latch (R25). -/
def State.earlyFrom (s : State) (r : Run) : Int :=
  lineAt (s.lineTime r.cfg) r.start
    (((r.cfg.vstart + r.j * r.cfg.bandLines : Nat) : Int) - (((r.cfg.lead + 1) * r.cfg.bandLines : Nat) : Int))

/-- What the head has fetched early for a run's next band. -/
def HeadSt.earlyOf (x : HeadSt) (r : Run) : Early :=
  match x.early with
  | some e => if e.tick = r.tick ∧ e.phase = r.phase ∧ e.j = r.j then e else ⟨r.tick, r.phase, r.j, [], []⟩
  | none => ⟨r.tick, r.phase, r.j, [], []⟩

/-- Granules that the lines of a run's next band read of a walk layer. -/
def Run.footprint (r : Run) (h : Nat) (w : Walk) : List Nat :=
  let b := { r.band h 0 0 [w] with scaled := [⟨0, 0, w.m, [], [], true⟩] }
  ((List.range (r.cfg.linesOf r.j)).flatMap fun y =>
    ((List.range r.cfg.hact).flatMap fun x => b.pixelGranules w x (r.j * r.cfg.bandLines + y)).eraseDups).eraseDups

/-- EARLY_FETCH_START (R25, R280): a layer with no pose binding is read for the head's next band, into the fetch path's buffers.
DEDUCED, log entry 42. -/
def effEarlyFetch (h i : Nat) (s : State) : State :=
  match s.earlyPlan h i with
  | none => s
  | some p =>
    let s := s.advanceTo (s.earlyFrom p.1).toNat
    match s.earlyPlan h i with
    | none => s
    | some (r, w) =>
      if w.fill || (s.frozen && !w.host) then s
      else
        let x := s.headOf h
        let e := x.earlyOf r
        let gs := r.footprint h w
        let b := r.band h 0 0 [w]
        if w.host then
          (s.setHead h { x with early := some e }).askGranules (s.fetchRead 0 b i) (s.hostNeeds { b with fetched := e.host } w gs)
        else
          let m : EarlyMem := ⟨i, w.addr, w.pitch, (s.fetchView b w gs).dram⟩
          (s.setHead h { x with early := some { e with mem := m :: e.mem.filter (·.layer != i) } }).fetchUse b w gs

def execEarlyFetchStart (head layer : Nat) (s : State) : Host.Outcome State Fault Refusal := s.done (effEarlyFetch head layer s)

/-! ## SWI (R183) -/

/-- Place in a sector's scaler queue: deadline (a rebuild band has none and goes last), head, position (R110). DEDUCED, log entry 47. -/
def ScalerBand.before (x y : ScalerBand) : Bool :=
  let k (b : ScalerBand) : Nat := if b.rebuild then 2 ^ 64 else b.deadline
  if k x = k y then (if x.head = y.head then x.pos < y.pos else x.head < y.head) else k x < k y

/-- DEDUCED, log entry 47. -/
def scalerInsert (e : ScalerBand) : List ScalerBand → List ScalerBand
  | [] => [e]
  | x :: xs => if e.before x then e :: x :: xs else x :: scalerInsert e xs

def State.scalerQ (s : State) (sector : Nat) : List ScalerBand := Tbl.get (fun _ => []) s.scalQ sector

def State.setScalerQ (s : State) (sector : Nat) (q : List ScalerBand) : State :=
  { s with scalQ := Tbl.set (fun _ => []) s.scalQ sector q }

/-- SWI: the scaler bands of the video layers of the walk list go to the sector's queue, once a band. DEDUCED, log entry 46. -/
def effSwi (g : Nat) (s : State) (b : Band) (_ : Ins) (c : CoreSt) : State × CoreSt :=
  let c' := c.goto (c.pc + 1)
  if b.swi then (s, c')
  else
    let sector := b.head / 32
    let q := (b.walk.filter fun w => w.layer.isSome && w.cfg.video).foldl (fun q w =>
      scalerInsert ⟨b.head, b.tick, b.phase, b.j, w.pos, b.deadline, w, b.cfg, b.surface.isSome⟩ q) (s.scalerQ sector)
    ((s.putBand g { b with swi := true }).setScalerQ sector q, c')

/-! ## WAIT (R184) -/

/-- The head stage has accepted every release of core k: none waits behind the one it encodes. -/
def State.stageAccepted (s : State) (g k : Nat) : Bool := ((s.groupOf g).stageQ.drop 1).all fun r => r.core != k

/-- The line of the band whose data a WAIT of unit 0 or 2 waits for (R184). -/
def CoreSt.waitLine (c : CoreSt) (unit : Nat) : Nat := if unit = 0 then 0 else c.cursor 1

/-- Granules of a walk layer in host memory that core k's span of a line of the band still needs. -/
def State.lineNeeds (s : State) (k : Nat) (b : Band) (line : Nat) (w : Walk) : List Nat :=
  if w.host then
    s.hostNeeds b w (((List.range (b.cfg.spanPx k)).flatMap fun x =>
      b.pixelGranules w (b.cfg.spanX k + x) (b.j * b.cfg.bandLines + line)).eraseDups)
  else []

/-- The part of a WAIT's condition that the state decides: for units 0 and 2 every walk layer's data of the line is present for the
core's span. DEDUCED, log entry 55. -/
def State.waitHolds (s : State) (g k : Nat) (b : Band) (unit : Nat) (c : CoreSt) : Bool :=
  if unit = 1 then c.line.isNone && s.stageAccepted g k
  else b.walk.all fun w => s.present b w && (s.lineNeeds k b (c.waitLine unit) w).isEmpty

/-- The reads of host memory that a WAIT of unit 0 or 2 waits for. -/
def State.askLine (s : State) (g k : Nat) (b : Band) (unit : Nat) (c : CoreSt) : State :=
  if unit = 1 then s
  else b.walk.foldl (fun s w => s.askGranules (s.fetchRead g b (w.layer.getD 0)) (s.lineNeeds k b (c.waitLine unit) w)) s

/-- Charge of a WAIT (R184). -/
def waitCharge (i : Ins) : Nat :=
  match i.lsel with
  | 0 => 128
  | 1 => 2
  | _ => 16

/-- WAIT. DEDUCED, log entry 55. -/
def effWaitStart (g k : Nat) (ready : Bool) (s : State) (b : Band) (i : Ins) (c : CoreSt) : State × CoreSt :=
  if ready && s.waitHolds g k b i.lsel c then (s, c.goto (c.pc + 1)) else
    (s.askLine g k b i.lsel c, { c with wait := .unit i.lsel, since := s.time.compTenths, listed := waitCharge i })

/-- WAIT_CONDITION_MET, `cycles` beyond the charge. DEDUCED, log entry 55. -/
def effWaitMet (g k cycles : Nat) (s : State) : State :=
  match s.composeAt g k with
  | none => s
  | some (b, _, _, c) =>
    match c.wait with
    | .unit u =>
      if s.waitHolds g k b u c then
        let w := s.addWait g b { c with wait := .none } cycles
        w.1.putCore g k (w.2.goto (c.pc + 1))
      else s
    | _ => s

/-! ## KEY (R185, R186), BLEND (R187), LUT and MAT (R188) -/

/-- The word in error that a read of `n` bytes at `o` of the program store meets: a word known bad, or, where the read shows a new error
(`parity`), one of its words; which one is a free value. DEDUCED, log entry 50. -/
def State.tableError (s : State) (g o n : Nat) (parity : Bool) : Option Nat :=
  let m := (o % 8 + n + 7) / 8
  match ((List.range m).map (o / 8 * 8 + 8 * ·)).find? (s.groupOf g).badWords.contains with
  | some w => some w
  | none => if parity then some (o / 8 * 8 + 8 * (Config.freeNat s.fresh % m)) else none

/-- A key record (R185). -/
structure KeyRec where
  layer : Nat
  kind : Nat
  inv : Bool
  lo : Nat
  hi : Nat
  wr : Nat
  wg : Nat
  wb : Nat
  deriving DecidableEq, Repr

/-- The record at byte `o` of a program store. -/
def State.keyRec (s : State) (g o : Nat) : KeyRec :=
  let a := s.progWord g o
  let b := s.progWord g (o + 8)
  let c := s.progWord g (o + 16)
  ⟨field a 0 10, field a 10 2, bit a 12, field a 32 16, field a 48 16, field b 0 19, field b 32 19, field c 0 19⟩

/-- The key value of a pixel (R186). -/
def KeyRec.value (r : KeyRec) (p : Px) : Nat :=
  let x := value16 p.r.toNat
  let y := value16 p.g.toNat
  let z := value16 p.b.toNat
  let w (n : Nat) (v : Q) : Q := v.mul ⟨signed 19 n, 65536⟩
  let e := match r.kind with
    | 0 => ((w r.wr x).add (w r.wg y)).add (w r.wb z)
    | 1 => x.sub (y.max z)
    | 2 => y.sub (x.max z)
    | _ => z.sub (x.max y)
  let t := ((e.sub (value16 r.lo)).div ((value16 r.hi).sub (value16 r.lo))).unit
  let k := (t.mul (.ofNat 65535)).roundUp.toNat
  if r.inv then 65535 - k else k

/-- The byte of the program store at which the key record of a layer stands. DESIGN CHOICE, log entry 51. -/
def State.keyAt (s : State) (g : Nat) (b : Band) (layer : Nat) : Option Nat :=
  let e := s.phaseEntry g b.cfg b.phase
  ((List.range e.keyn).map (e.keymap + 32 * ·)).find? fun o => (s.keyRec g o).layer == layer

/-- KEY; a layer in key mode whose record has gone since validation gives a free value. DESIGN CHOICE, log entry 51. -/
def effKey (g k : Nat) (parity : Bool) (s : State) (b : Band) (i : Ins) (c : CoreSt) : State × CoreSt :=
  let key (v : Nat) : Px := mkPx 0 0 0 v
  let rest (s : State) (f : Px → Px) : State × CoreSt := (s, (c.setVec i.d ((c.vec i.a).map f)).goto (c.pc + 1))
  match b.walk[c.walkPos i.lsel]? with
  | none => rest s fun _ => key 65535
  | some w =>
    if w.layer.isNone || w.cfg.mode != 4 then rest s fun _ => key 65535
    else match s.keyAt g b (w.layer.getD 0) with
    | none => rest s.tick fun _ => key (Config.freeNat s.fresh % 65536)
    | some o =>
      let r := s.keyRec g o
      match s.tableError g o 32 parity with
      | some w =>
        let s := s.tick.parityEnd g k w b c
        (s, (s.groupOf g).coreOf k)
      | none =>
      if (value16 r.hi).le (value16 r.lo) then rest s.tick fun _ => key (Config.freeNat s.fresh % 65536)
      else rest s fun p => key (r.value p)

/-- Two vectors and a key vector combined lane by lane. -/
def lanes3 (f : Px → Px → Px → Px) (a b k : List Px) : List Px :=
  (List.range 16).map fun l => f (a.getD l Px.zero) (b.getD l Px.zero) (k.getD l Px.zero)

/-- BLEND. -/
def effBlend (s : State) (b : Band) (i : Ins) (c : CoreSt) : State × CoreSt :=
  let next (c' : CoreSt) : State × CoreSt := (s, c'.goto (c.pc + 1))
  let src := c.vec i.a
  let key := c.vec i.b
  let lin (f : Px → Px → Px → Px) : State × CoreSt := next (c.setVec i.d (lanes3 f src (c.vec i.d) key))
  if i.fn = 0 then
    match b.walk[c.walkPos i.lsel]? with
    | none => next c
    | some w =>
      let l := w.cfg
      if w.layer.isNone then lin fun sp dp _ => blendPx 0 true sp dp sp.a.toNat 0
      else if w.fill then lin fun sp dp kp => blendPx l.mode false sp dp sp.a.toNat kp.a.toNat
      else if l.encoded then
        next (c.setVec (i.d + 1) (lanes3 (fun sp dp _ =>
          blendEncoded l.mode (l.asrc == 1) sp dp (resolveAlpha l.asrc l.const sp.a.toNat)) src (c.vec (i.d + 1)) key))
      else lin fun sp dp kp =>
        blendPx l.mode (l.asrc == 1) sp dp (resolveAlpha l.asrc l.const sp.a.toNat) kp.a.toNat
  else
    let premul := 9 ≤ i.fn
    let mode := if premul then i.fn - 9 else i.fn - 1
    lin fun sp dp kp => blendPx mode premul sp dp sp.a.toNat kp.a.toNat

/-- LUT (R188). -/
def effLut (g k : Nat) (parity : Bool) (s : State) (b : Band) (i : Ins) (c : CoreSt) : State × CoreSt :=
  let n := if i.c = 0 then 2048 else 8192
  match if i.c < 8 then s.tableError g i.imm n parity else none with
  | some w =>
    let s := s.tick.parityEnd g k w b c
    (s, (s.groupOf g).coreOf k)
  | none =>
    let t := if 8 ≤ i.c then Reg.layerPreset (i.c - 8) 0 else pstore g i.imm
    let dec (v : BitVec 16) : Nat := round16 (s.interp1024 t ⟨v.toNat, 65535⟩)
    let one (v : BitVec 16) : Nat := s.tone1 t v.toNat
    let f (p : Px) : Px :=
      if i.c = 1 then mkPx (one p.r) (one p.g) (one p.b) p.a.toNat
      else if i.c = 2 then let q := s.tone2 t p.r.toNat p.g.toNat p.b.toNat; mkPx q.1 q.2.1 q.2.2 p.a.toNat
      else mkPx (dec p.r) (dec p.g) (dec p.b) p.a.toNat
    (s, (c.setVec i.d ((c.vec i.a).map f)).goto (c.pc + 1))

/-- MAT (R188). -/
def effMat (g k : Nat) (parity : Bool) (s : State) (b : Band) (i : Ins) (c : CoreSt) : State × CoreSt :=
  match s.tableError g i.imm 36 parity with
  | some w =>
    let s := s.tick.parityEnd g k w b c
    (s, (s.groupOf g).coreOf k)
  | none =>
    let m (n : Nat) : Nat := (s.rd (pstore g (i.imm + 4 * n))).toNat
    let f (p : Px) : Px := let q := matRgb m p.r.toNat p.g.toNat p.b.toNat; mkPx q.1 q.2.1 q.2.2 p.a.toNat
    (s, (c.setVec i.d ((c.vec i.a).map f)).goto (c.pc + 1))

/-! ## BST and the head stage (R189, R195) -/

/-- The open store line is released: to the surface, which takes each vector's latest store (R195), or to the head stage, where a second
release of a line is discarded. -/
def State.release (s : State) (g k : Nat) (b : Band) (c : CoreSt) : State × CoreSt :=
  match c.line with
  | none => (s, c)
  | some l =>
    let c' := { c with line := none, released := if c.released.contains l.line then c.released else c.released ++ [l.line] }
    if b.surface.isSome then (s.toSurface b k l, c')
    else if c.released.contains l.line then (s, c')
    else
      let x := s.groupOf g
      (s.setGroup g { x with stageQ := x.stageQ ++ [⟨k, l, false, b.key⟩] }, c')

/-- Store lines of core k that the head stage holds. DEDUCED, log entry 56. -/
def State.linesHeld (s : State) (g k : Nat) : Nat := ((s.groupOf g).stageQ.filter fun r => r.core == k).length

/-- The sixteen pixels at a column of a line. -/
def StoreLine.store (l : StoreLine) (col : Nat) (v : List Px) : StoreLine :=
  { l with cols := (l.cols.filter fun e => e.1 != col) ++ [(col, v)] }

/-- BST.R on the last column of the span releases the line. -/
def Ins.releases (i : Ins) (b : Band) (k : Nat) (c : CoreSt) : Bool := i.fn % 2 == 1 && c.cursor 2 + 1 == b.cfg.spanV k

/-- BST: a new line when the cursor line is another; it waits while both store lines await the head stage. In a rebuild band a BST
outside the LAYERS loop stores nothing, and its release still takes place. DEDUCED, log entry 56. -/
def effBst (g k : Nat) (s : State) (b : Band) (i : Ins) (c : CoreSt) : State × CoreSt :=
  if b.surface.isSome && !c.inside 3 then
    let r := if i.releases b k c then s.release g k b c else (s, c)
    (r.1, r.2.goto (c.pc + 1))
  else
    let line := c.cursor 1
    let other := match c.line with
      | some l => l.line != line
      | none => false
    let (s, c) := if other then s.release g k b c else (s, c)
    if c.line.isNone && 2 ≤ s.linesHeld g k then
      (s, if c.wait == .store then c else { c with wait := .store, since := s.time.compTenths, listed := 2 })
    else
      let l := (c.line.getD ⟨line, []⟩).store (c.cursor 2) (c.vec i.a)
      let c := { c with line := some l, wait := .none }
      let (s, c) := if i.releases b k c then s.release g k b c else (s, c)
      (s, c.goto (c.pc + 1))

/-- A core whose BST waits for a store line stores when one is free. DEDUCED, log entry 56. -/
def State.retryBst (s : State) (g cycles k : Nat) : State :=
  match s.composeAt g k with
  | none => s
  | some (b, _, i, c) =>
    if c.wait != .store then s
    else
      let r := effBst g k s b i c
      if r.2.wait == .store then s
      else
        let w := r.1.addWait g b r.2 cycles
        w.1.putCore g k w.2

/-- HEAD_STAGE_RELEASE_DONE: the release being encoded is in the band buffer; a waiting BST goes on after `cycles` wait cycles. -/
def effStageDone (g cycles : Nat) (s : State) : State :=
  let x := s.groupOf g
  match x.stageQ with
  | [] => s
  | r :: q =>
    let s := (s.setGroup g { x with stageQ := q }).encodeRelease g r
    (List.range 8).foldl (fun s k => s.retryBst g cycles k) s

def execHeadStageReleaseDone (group cycles : Nat) (s : State) : Host.Outcome State Fault Refusal :=
  s.done (effStageDone group cycles s)

/-! ## BR, LOOP, END -/

/-- BR taken. -/
def effBr (s : State) (_ : Band) (i : Ins) (c : CoreSt) : State × CoreSt := (s, c.goto (c.pc + i.imm))

/-- LOOP entered. -/
def effLoop (k : Nat) (s : State) (b : Band) (i : Ins) (c : CoreSt) : State × CoreSt :=
  let kind := if i.count < 0xFFFD then 0 else i.count - 0xFFFC
  let n := if kind = 0 then i.count else b.const k kind
  if n = 0 then (s, c.goto (c.pc + 1 + i.blen))
  else (s, { c with loops := ⟨c.pc + 1, c.pc + 1 + i.blen, n, 0, kind⟩ :: c.loops, pc := c.pc + 1 })

/-- Entry cycles of a LOOP (R179). -/
def loopCost (i : Ins) : Nat := if i.count < 0xFFFD then 1 else 4

/-- END: the open store line is released and the core's band ends. -/
def effEnd (g k : Nat) (s : State) (b : Band) (_ : Ins) (c : CoreSt) : State × CoreSt :=
  let r := s.release g k b c
  (r.1, { r.2 with on := false })

/-! ## Scaler bands (R110, R122) -/

def State.unitOf (s : State) (u : Nat) : Option ScalerBand := Tbl.get (fun _ => none) s.scalers u

def State.setUnit (s : State) (u : Nat) (b : Option ScalerBand) : State :=
  { s with scalers := Tbl.set (fun _ => none) s.scalers u b }

/-- Declared footprint width Wd and rows Hf (R121). -/
def declaredWd (c : HeadCfg) (l : LayerCfg) : Nat :=
  let r := clipRect c l l.dstX l.dstY
  ceilDiv ((r.x1 - r.x0) * l.sw) (max 1 l.dw) + 7 + 2 * l.hmarg

def declaredHf (c : HeadCfg) (l : LayerCfg) : Nat := ceilDiv (c.bandLines * l.sh) (max 1 l.dh) + 5 + l.skew

/-- Spread of a list of integers: the largest less the smallest, 0 for an empty list. -/
def spread (l : List Int) : Int :=
  match l with
  | [] => 0
  | x :: xs => xs.foldl max x - xs.foldl min x

/-- The band's footprint under a transform keeps its declared margins (R122). -/
def footprintOk (c : HeadCfg) (l : LayerCfg) (w : Walk) (j : Nat) (m : List Nat) : Bool :=
  let r := clipRect c l w.dx w.dy
  let y0 := max r.y0 (j * c.bandLines)
  let y1 := min r.y1 (j * c.bandLines + c.linesOf j)
  let lines := ((List.range (y1 - y0)).map (y0 + ·)).map fun y =>
    ((List.range (r.x1 - r.x0)).map (r.x0 + ·)).filterMap fun x =>
      (warpPos l m x y).map fun p => ((tapCentre p.1).1, (tapCentre p.2).1)
  (lines.all fun t => spread (t.map (·.1)) ≤ (declaredWd c l : Int) - 8 && spread (t.map (·.2)) ≤ (l.skew : Int)) &&
    spread (lines.flatten.map (·.2)) ≤ (declaredHf c l : Int) - 6

/-- The band a scaler band belongs to, and its group. -/
def State.scalerTarget (s : State) (x : ScalerBand) : Option (Nat × Band) :=
  let g := groupOfHead x.head x.cfg
  let same (b : Band) : Bool := b.isKey (x.head, x.tick, x.phase, x.j)
  if x.rebuild then ((s.groupOf g).rebuild.filter same).map fun b => (g, b)
  else ((s.headOf x.head).bands.find? same).map fun b => (g, b)

/-- SCALER_BAND_START (R110, R122). DEDUCED, log entry 43. -/
def effScalerStart (sector : Nat) (s : State) : State :=
  match s.scalerQ sector, (List.range 6).find? fun n => (s.unitOf (6 * sector + n)).isNone with
  | x :: q, some n =>
    let u := 6 * sector + n
    let s := (s.setScalerQ sector q).setUnit u (some x)
    let l := x.walk.cfg
    let layer := x.walk.layer.getD 0
    let rt := s.layerRt layer
    let ok := footprintOk x.cfg l x.walk x.j x.walk.m
    let m := if ok then x.walk.m else (rt.lastM.lookup x.head).getD l.defM
    let s := if ok then s else
      (((s.bumpSat (F.sclCountWlimcnt u)).put (F.sclStatusLayer u) layer).raise (F.sclStatusWarpLimit u) (561 + u))
    let s := s.setLayerRt layer { s.layerRt layer with lastM := (x.head, m) :: rt.lastM.filter fun e => e.1 != x.head }
    let sc : Scaled := ⟨x.pos, u, m, (s.rdList (Reg.sclHcoef u 0) 128).map BitVec.toNat,
      (s.rdList (Reg.sclVcoef u 0) 96).map BitVec.toNat, false⟩
    match s.scalerTarget x with
    | none => s
    | some (g, b) => s.putBand g { b with scaled := b.scaled ++ [sc] }
  | _, _ => s

def execScalerBandStart (sector : Nat) (s : State) : Host.Outcome State Fault Refusal := s.done (effScalerStart sector s)

/-- SCALER_BAND_DONE: the unit has delivered its band and is free. DEDUCED, log entry 47. -/
def effScalerDone (u : Nat) (s : State) : State :=
  match s.unitOf u with
  | none => s
  | some x =>
    let s := (s.setUnit u none).bump (F.sclCountBands u)
    match s.scalerTarget x with
    | none => s
    | some (g, b) => s.putBand g { b with scaled := b.scaled.map fun q => if q.pos = x.pos then { q with done := true } else q }

def execScalerBandDone (unit : Nat) (s : State) : Host.Outcome State Fault Refusal := s.done (effScalerDone unit s)

end Sys2Proof.Machine
end

