-- ==== Sys2Proof/Machine/Finj.lean ====
section
/-! DEFINITION. The fault injector's register (R454): enabling a link. -/

namespace Sys2Proof.Machine

/-- FINJ_LINK_ENABLE: a write to FINJ.LINK[k].CFG; EN from 0 to 1 loads SEED and clears COUNT (R454). -/
def effFinjEnable (k : Nat) (value : Word) (s : State) : State :=
  if 36 ≤ k then s
  else
    let was := s.flag (F.finjLinkCfgEn k)
    let s := s.store (Reg.finjLinkCfg k) value
    if !was && s.flag (F.finjLinkCfgEn k) then
      let seed := s.get (F.finjLinkSeedSeed k)
      let s := { s with finj := { s.finj with gen := Tbl.set (fun _ => 0) s.finj.gen k (if seed = 0 then 1 else seed) } }
      s.put (F.finjLinkCountCount k) 0
    else s

def execFinjLinkEnable (agent link : Nat) (value : Word) (s : State) : Host.Outcome State Fault Refusal :=
  s.done (s.guardWrite agent (Reg.finjLinkCfg link) (effFinjEnable link value))

end Sys2Proof.Machine
end

