-- ==== Sys2Proof/Machine/Tsp.lean ====
section
/-! DEFINITION. The traffic shaper (R312 to R321): ports, egress classes and their credit, header templates, the firmware transmit
ring, encoder streams, the pixel map's packets and pose echo. -/

namespace Sys2Proof.Machine

def State.flowOf (s : State) (f : Nat) : FlowSt := Tbl.get (fun _ => FlowSt.init) s.net.flows f

def State.setFlow (s : State) (f : Nat) (x : FlowSt) : State :=
  { s with net := { s.net with flows := Tbl.set (fun _ => FlowSt.init) s.net.flows f x } }

def State.classOf (s : State) (n : Nat) : ClassSt := Tbl.get (fun _ => ClassSt.init) s.net.classes n

def State.setClass (s : State) (n : Nat) (x : ClassSt) : State :=
  { s with net := { s.net with classes := Tbl.set (fun _ => ClassSt.init) s.net.classes n x } }

def State.sendingOf (s : State) (p : Nat) : Option Sending := Tbl.get (fun _ => none) s.net.ports p

def State.setSending (s : State) (p : Nat) (x : Option Sending) : State :=
  { s with net := { s.net with ports := Tbl.set (fun _ => none) s.net.ports p x } }

/-! ## Ports (R298) -/

/-- Port p exists in a mode. -/
def portExists (mode p : Nat) : Bool :=
  match mode with
  | 1 => p == 0 || p == 4
  | 2 => p == 0 || (4 ≤ p && p < 8)
  | _ => p < 8

/-- Rate of port p in Mbit/s. -/
def portRate (mode p : Nat) : Nat := if (mode = 1 ∧ (p = 0 ∨ p = 4)) ∨ (mode = 2 ∧ p = 0) then 400000 else 100000

/-- Port p's medium uses no link training: C2M (R299). -/
def State.untrained (s : State) (p : Nat) : Bool := s.get (F.netPortCfgMedia p) == 2

/-- Bytes in the ingest buffer. -/
def State.setFill (s : State) (n : Nat) : State := { s with net := { s.net with fill := n } }.put F.netIbufFill (n / 4096)

/-- The ingest buffer has drained by now; how far is free. DESIGN CHOICE, log entry 92. -/
def State.drain (s : State) : State := (s.setFill (s.net.fill - Config.freeNat s.fresh % (s.net.fill + 1))).tick

/-- Port p moves frames: present, enabled, linked and powered. -/
def State.portUp (s : State) (p : Nat) : Bool :=
  portExists (s.get F.netCfgMode) p && s.flag (F.netPortCfgEn p) && s.flag (F.netPortStatLink p) && s.domOn (45 + p)

/-! ## Classes and credit (R314 to R316) -/

/-- Bytes of a frame with its FCS. DEDUCED, log entry 96. -/
def TxFrame.len (f : TxFrame) : Nat := max 64 (f.bytes.length + 4)

/-- The class FIFOs together fit the egress buffer. -/
def State.queuesFit (s : State) : Bool :=
  (List.range 32).foldl (fun a n => a + s.get (F.tspShaperCfgQdepth n)) 0 * 16384 ≤ 8 * 1048576

def State.classPort (s : State) (n : Nat) : Nat := s.get (F.tspShaperCfgPort n)

/-- Class n is shaped. -/
def State.shaped (s : State) (n : Nat) : Bool := n != 0 && s.flag (F.tspShaperCfgShape n)

/-- The port on which class n is sending, which a write of CFG.PORT does not change. -/
def State.classSends (s : State) (n : Nat) : Option Nat :=
  (List.range 8).find? fun p => match s.sendingOf p with
    | some x => x.cls == n
    | none => false

/-- The credit of class n now, in 1/8,000 byte (R315). -/
def State.creditNow (s : State) (n : Nat) : Int :=
  let c := s.classOf n
  let d : Int := (s.time.uptime - c.at0 : Nat)
  let rate : Int := (s.get (F.tspShaperRateValue n) : Nat)
  if !s.shaped n then c.credit
  else match s.classSends n with
  | some p =>
    max (signed 32 (s.get (F.tspShaperLocreditValue n)) * 8000) (c.credit + d * (rate - (portRate (s.get F.netCfgMode) p : Nat)))
  | none =>
    if !c.fifo.isEmpty then min ((s.get (F.tspShaperHicreditValue n) * 8000 : Nat) : Int) (c.credit + d * rate)
    else if c.credit < 0 then min 0 (c.credit + d * rate)
    else 0

/-- The credit of class n brought up to now; CREDIT shows it in bytes. -/
def State.settleClass (s : State) (n : Nat) : State :=
  let v := s.creditNow n
  (s.setClass n { s.classOf n with credit := v, at0 := s.time.uptime }).put (F.tspShaperCreditBytes n)
    (unsigned 32 (Int.tdiv v 8000))

/-- Bytes in the FIFO of class n. -/
def ClassSt.bytes (c : ClassSt) : Nat := c.fifo.foldl (fun a f => a + f.len) 0

/-- Free bytes in the FIFO of class n. -/
def State.classRoom (s : State) (n : Nat) : Nat :=
  if s.queuesFit && s.domOn 78 then s.get (F.tspShaperCfgQdepth n) * 16384 - (s.classOf n).bytes else 0

/-- A frame joins the FIFO of class n; the class must have room. -/
def State.enqueue (s : State) (n : Nat) (f : TxFrame) : State :=
  let s := s.settleClass n
  s.setClass n { s.classOf n with fifo := (s.classOf n).fifo ++ [f] }

/-- SHAPER_RATE_WRITE (R316). -/
def effShaperRate (n : Nat) (value : Word) (s : State) : State := (s.settleClass n).store (Reg.tspShaperRate n) value

def execShaperRateWrite (agent n : Nat) (value : Word) (s : State) : Host.Outcome State Fault Refusal :=
  s.done (s.guardWrite agent (Reg.tspShaperRate n) (effShaperRate n value))

/-- CLRDEBT (R316). -/
def effClrdebt (n : Nat) (value : Word) (s : State) : State :=
  let s := s.settleClass n
  if bit value.toNat 0 && (s.classOf n).credit < 0 then
    (s.setClass n { s.classOf n with credit := 0 }).put (F.tspShaperCreditBytes n) 0
  else s

def execClrdebt (agent n : Nat) (value : Word) (s : State) : Host.Outcome State Fault Refusal :=
  s.done (s.guardWrite agent (Reg.tspShaperClrdebt n) (effClrdebt n value))

/-! ## Header templates (R317) -/

/-- One's complement sum of 16-bit big-endian words. -/
def onesSum : List Nat → Nat → Nat
  | a :: b :: t, x => let y := x + 256 * a + b; onesSum t (y % 65536 + y / 65536)
  | [a], x => let y := x + 256 * a; y % 65536 + y / 65536
  | [], x => x

/-- The Internet checksum. -/
def inetSum (bs : List Nat) : Nat := 65535 - onesSum bs 0

/-- Bytes from position `i` on replaced. -/
def putBytes (bs : List Nat) (i : Nat) (x : List Nat) : List Nat := bs.take i ++ x ++ bs.drop (i + x.length)

/-- The header bytes of template t. -/
def State.template (s : State) (t : Nat) : List Nat :=
  ((List.range 62).flatMap fun k => bytesLE 4 (s.rd (Reg.tspTmplw t k)).toNat).take (s.get (F.tspTmpl0Hlen t))

/-- Offset of the IPv4 header of a frame: 18 behind a VLAN tag. -/
def ipOffset (bs : List Nat) : Nat := if (bs.drop 12).take 2 = [0x81, 0x00] then 18 else 14

/-- A datagram's frame from a header and the bytes behind it: lengths, identification, header checksum and UDP checksum filled.
DESIGN CHOICE, log entry 95. -/
def buildFrame (hdr body : List Nat) (ident : Nat) : List Nat :=
  let ip := ipOffset hdr
  let ihl := 4 * (hdr.getD ip 0x45 % 16)
  let total := hdr.length + body.length - ip
  let h := putBytes (putBytes hdr (ip + 2) (bytesBE 2 total)) (ip + 4) (bytesBE 2 ident)
  let h := putBytes (putBytes h (ip + ihl + 4) (bytesBE 2 (total - ihl))) (ip + ihl + 6) [0, 0]
  let h := putBytes h (ip + 10) [0, 0]
  putBytes h (ip + 10) (bytesBE 2 (inetSum ((h.drop ip).take ihl))) ++ body

/-- A template's header length is in its limits. -/
def State.templateOk (s : State) (t : Nat) : Bool := 42 ≤ s.get (F.tspTmpl0Hlen t) && s.get (F.tspTmpl0Hlen t) ≤ 248

/-- A datagram from template t; the identification is free. None, counted, for a bad template. DESIGN CHOICE, log entry 95. -/
def State.datagram (s : State) (hdr body : List Nat) : State × List Nat :=
  (s.tick, buildFrame hdr body (Config.freeNat s.fresh % 65536))

/-! ## The firmware transmit ring (R313) -/

/-- Slots of a firmware ring. -/
def ringSlots (z : Nat) : Nat := 2 ^ (if 4 ≤ z ∧ z ≤ 10 then z else 4)

/-- Address of slot i of the transmit ring. -/
def State.fwtxSlot (s : State) (i : Nat) : Nat := s.rd64 Reg.tspFwtxLo + 16384 * i

/-- Some frame of the transmit ring waits in a FIFO or is being sent. -/
def State.fwtxBusy (s : State) : Bool :=
  (s.net.classes.any fun e => e.2.fifo.any (·.slot.isSome)) ||
    s.net.ports.any fun e => match e.2 with | some x => x.frame.slot.isSome | none => false

/-- FWTXHEAD advances; FWTX_DONE when the ring is empty (R313). -/
def State.fwtxAdvance (s : State) : State :=
  let s := s.put F.tspFwtxheadIndex ((s.get F.tspFwtxheadIndex + 1) % ringSlots (s.get F.tspFwtxctlRingsz))
  if s.get F.tspFwtxheadIndex = s.get F.tspFwtxtailIndex then s.raise F.tspEvstatFwtxDone 800 else s

/-- The slot at FWTXHEAD goes to its class when there is room. One that the protection map refuses (R450), or that meets the flatten region
(R128), is passed with a violation. DESIGN CHOICE, log entry 182. -/
def State.fwtxPull (s : State) : State :=
  let i := s.get F.tspFwtxheadIndex
  if !s.flag F.tspFwtxctlEn || i == s.get F.tspFwtxtailIndex || s.fwtxBusy then s
  else
    let a := s.fwtxSlot i
    let n := recField (s.dramSee a 64) 0 2
    if !s.granted s.net.txAgent false 0 a (64 + n) then (s.violation s.net.txAgent false 1 a).fwtxAdvance
    else
      let d := s.dramSee a (64 + n)
      let s := (s.useLocal 33 a (64 + n)).ticks (if s.localDead a (64 + n) then 64 + n else 0)
      let cls := recField d 4 1 % 32
      let f : TxFrame := ⟨d.drop 64, some i, false, false⟩
      if f.len ≤ s.classRoom cls then s.enqueue cls f else s

/-- A frame of the transmit ring has been sent: its stamp is written back, FWTXHEAD advances (R313). -/
def State.fwtxSent (s : State) (i stamp : Nat) : State :=
  let a := s.fwtxSlot i
  let flags := (s.dramRead (a + 3) 1).headD 0
  let s := if !bit flags 0 then s
    else if !s.granted s.net.txAgent true 0 a 64 then s.violation s.net.txAgent true 1 a
    else (s.localStore 33 (a + 8) (bytesLE 8 stamp)).localStore 33 (a + 3) [flags ||| 2]
  s.fwtxAdvance

/-! ## Sending (R314) -/

/-- Pixel-map packets that had found no room join their class, in order. -/
def State.pixPush (s : State) : Nat → State
  | 0 => s
  | k + 1 =>
    match s.net.pixQ with
    | [] => s
    | (c, b) :: q =>
      let f : TxFrame := ⟨b, none, true, false⟩
      if f.len ≤ s.classRoom c then ({ s.enqueue c f with net := { (s.enqueue c f).net with pixQ := q } }).pixPush k else s

/-- A write to SHAPER[n].CFG: QCFG follows, and FIFOs that do not fit are held empty, those that fit fill. DEDUCED, log entry 98. -/
def effShaperCfg (n : Nat) (value : Word) (s : State) : State :=
  let s := (s.settleClass n).store (Reg.tspShaperCfg n) value
  let fit := s.queuesFit
  let s := s.put F.tspEvstatQcfg (ofBool (!fit))
  if fit then s.fwtxPull.pixPush s.net.pixQ.length
  else (List.range 32).foldl (fun s k => (s.settleClass k).setClass k { (s.settleClass k).classOf k with fifo := [] }) s

/-- Port p starts a frame of class `cls`, whose credit has been brought up to now. -/
def State.startFrame (s : State) (p cls : Nat) (f : TxFrame) : State :=
  let wire := f.len + 20
  s.setSending p (some ⟨cls, f, s.now + s.get (F.netPortCfgTxlat p),
    s.time.uptime + ceilDiv (wire * 8000) (portRate (s.get F.netCfgMode) p)⟩)

/-- The lowest-numbered eligible class of port p. -/
def State.eligible (s : State) (p : Nat) : Option Nat :=
  (List.range 32).find? fun n =>
    s.classPort n == p && !(s.classOf n).fifo.isEmpty && (!s.shaped n || 0 ≤ s.creditNow n)

/-- A Delay_Req is due on port p: it goes ahead of every class (R312). -/
def State.reqWaits (s : State) (p : Nat) : Bool :=
  let x := s.time.ptp
  x.master.isSome && x.port == p && bit (s.get F.tickPtpcfgPorts) p && (match x.reqDue with | some t => decide (t ≤ s.now) | none => false)

/-- EGRESS_FRAME_END: the frame being sent has left. -/
def effEgressEnd (p : Nat) (s : State) : State :=
  match s.sendingOf p with
  | none => s
  | some x =>
    let s := if s.time.uptime < x.stop then s.elapse (x.stop - s.time.uptime) else s
    let s := if x.cls < 32 then s.settleClass x.cls else s
    let s := (s.setSending p none).emit (.eth p x.frame.bytes)
    let s := match x.frame.slot with
      | some i => s.fwtxSent i x.stamp
      | none => s
    s.fwtxPull.pixPush s.net.pixQ.length

def execEgressFrameEnd (port : Nat) (s : State) : Host.Outcome State Fault Refusal := s.done (effEgressEnd port s)

/-! ## Encoder streams (R318) -/

/-- The NAL units of a byte stream with four-byte start codes. DEDUCED, log entry 98. -/
def splitNal : List Nat → List Nat → List (List Nat)
  | [], acc => if acc.isEmpty then [] else [acc]
  | b :: bs, acc =>
    if b = 0 ∧ bs.take 3 = [0, 0, 1] then (if acc.isEmpty then [] else [acc]) ++ splitNal bs []
    else splitNal bs (acc ++ [b])

/-- The NAL units of an access unit: what stands between start codes. -/
def nalUnits (au : List Nat) : List (List Nat) :=
  ((splitNal au []).map fun n => if n.take 3 = [0, 0, 1] then n.drop 3 else n).filter fun n => !n.isEmpty

/-- A payload cut into pieces of at most n bytes. -/
def chunk (n : Nat) (bs : List Nat) : List (List Nat) :=
  (List.range (ceilDiv bs.length (max 1 n))).map fun i => (bs.drop (i * max 1 n)).take (max 1 n)

/-- The RTP payloads of a NAL unit: itself, or fragmentation units of at most `m` bytes (RFC 7798). -/
def nalPackets (m : Nat) (nal : List Nat) : List (List Nat) :=
  if nal.length ≤ m then [nal]
  else
    let b0 := nal.getD 0 0
    let t := b0 / 2 % 64
    let cs := chunk (m - 3) (nal.drop 2)
    cs.zipIdx.map fun c =>
      [b0 &&& 0x81 ||| 98, nal.getD 1 0, t + 128 * ofBool (c.2 == 0) + 64 * ofBool (c.2 + 1 == cs.length)] ++ c.1

/-- The RTP packets of an access unit, headers included: sequence numbers from `q`. -/
def rtpFrames (tmpl : List Nat) (ts q : Nat) (ps : List (List Nat)) : List (List Nat × List Nat) :=
  let r := tmpl.length - 12
  ps.zipIdx.map fun p =>
    let h := putBytes tmpl (r + 2) (bytesBE 2 ((q + p.2) % 65536))
    let h := putBytes h (r + 4) (bytesBE 4 ts)
    let h := putBytes h (r + 1) [tmpl.getD (r + 1) 0 % 128 + 128 * ofBool (p.2 + 1 == ps.length)]
    (h, p.1)

/-- TXS_SEND: the oldest access unit of encoder context c goes out, whole or not at all. -/
def effTxs (c : Nat) (s : State) : State :=
  match s.net.txq.find? fun e => e.1 == c with
  | none => s
  | some e =>
    let s := { s with net := { s.net with txq := s.net.txq.erase e } }
    -- The TSP advances RDOFS past each record that it sends or drops; while EN = 0 software does (R349).
    let ring := wf ((Tbl.get (fun _ => CdcCtx.init) s.cdc.ctxs c).eff.getD 14 0) 0 32
    if !s.flag (F.tspTxsEn c) then s
    else
      let s := s.put (F.cdcCtxRdofsBytes c) ((s.get (F.cdcCtxRdofsBytes c) + ceilDiv (32 + e.2.2.length) 64 * 64) % max 1 ring)
      let t := s.get (F.tspTxsTmpl c)
      let cls := s.get (F.tspTxsClass c)
      let ps := (nalUnits e.2.2).flatMap (nalPackets (s.get (F.tspTxsMaxpay c)))
      if !s.templateOk t then s.bump F.tspEvstatTmplerr ps.length
      else
        let q := Tbl.get (fun _ => 0) s.net.rtpSeq c
        let fs := rtpFrames (s.template t) (e.2.1 * 9 / 100000 % 2 ^ 32) q ps
        let need := fs.foldl (fun a f => a + (⟨f.1 ++ f.2, none, false, false⟩ : TxFrame).len) 0
        if s.classRoom cls < need then s.raise F.tspEvstatTxsDrop 797
        else
          let s := { s with net := { s.net with rtpSeq := Tbl.set (fun _ => 0) s.net.rtpSeq c ((q + fs.length) % 65536) } }
          fs.foldl (fun s f => let d := s.datagram f.1 f.2; d.1.enqueue cls ⟨d.2, none, false, false⟩) s

def execTxsSend (ctx : Nat) (s : State) : Host.Outcome State Fault Refusal := s.done (effTxs ctx s)

/-! ## Pose echo (R321) -/

/-- An accepted record of a source goes out with its arrival stamp. -/
def State.poseEcho (s : State) (src : Nat) (record : List Nat) (stamp : Nat) : State :=
  if !s.flag F.tspEchocfgEn || !bit (s.get (F.tspEchomaskSrc (src / 32))) (src % 32) || !s.domOn 78 then s
  else
    let t := s.get F.tspEchocfgTmpl
    let cls := s.get F.tspEchocfgClass
    if !s.templateOk t then s.bump F.tspEvstatTmplerr
    else
      let d := s.datagram (s.template t) (record ++ bytesLE 8 stamp)
      let f : TxFrame := ⟨d.2, none, false, false⟩
      if d.1.classRoom cls < f.len then d.1.raise F.tspEvstatEchoDrop 799 else d.1.enqueue cls f

/-! ## The pixel map (R319, R320) -/

/-- The slots of an entry, START - 1 zeros before them. -/
def State.pixSlots (s : State) (u : Nat) : List Nat :=
  let wide := s.flag (F.tspPmap0Wide u)
  let off := !(s.headOf (s.get (F.tspPmap0Head u))).cfg.en
  let one (c b : Nat) : List Nat :=
    let x := if off then 0 else c
    if wide then bytesBE 2 ((2 * x * 65535 + (2 ^ b - 1)) / (2 * (2 ^ b - 1)))
    else [(2 * x * 255 + (2 ^ b - 1)) / (2 * (2 ^ b - 1))]
  let n := s.get (F.tspPmap2Count u)
  let px := Tbl.get (fun _ => []) s.pix u
  let order : List Nat := match s.get (F.tspPmap0Order u) with
    | 0 => [0, 1, 2]
    | 1 => [1, 0, 2]
    | 2 => [2, 1, 0]
    | _ => [2, 0, 1]
  List.replicate (s.get (F.tspPmap3Start u) - 1) 0 ++
    (List.range n).flatMap fun i =>
      let p := px.getD i (0, 10)
      order.flatMap fun ch => one ((pxCodes p.1).getD ch 0) p.2

/-- A universe's sequence number, and the state with the next. -/
def State.univNext (s : State) (univ : Nat) : State × Nat :=
  let q := Tbl.get (fun _ => 0) s.net.univSeq univ
  ({ s with net := { s.net with univSeq := Tbl.set (fun _ => 0) s.net.univSeq univ ((q + 1) % 256) } }, q)

/-- The template's multicast destination for a universe (R320). -/
def mcastHeader (mcast : Bool) (hdr : List Nat) (univ : Nat) : List Nat :=
  if !mcast then hdr
  else
    let hi := univ / 256 % 256
    putBytes (putBytes hdr 0 [1, 0, 0x5E, 0x7F, hi, univ % 256]) (ipOffset hdr + 16) [239, 255, hi, univ % 256]

/-- Flags and length of a PDU. -/
def pduLen (n : Nat) : List Nat := bytesBE 2 (0x7000 + n % 0x1000)

/-- The E1.31 data packet of an entry (R320); the template ends before the start code, its DMP layer's last field being the property
value count. -/
def State.pixPacket (s : State) (u : Nat) (slots : List Nat) : State :=
  let t := s.get (F.tspPmap0Tmpl u)
  let univ := s.get (F.tspPmap3Univ u)
  if !s.templateOk t then s.bump F.tspEvstatTmplerr
  else
    let r := s.univNext univ
    let h := mcastHeader (r.1.flag (F.tspTmpl0Mcast t)) (r.1.template t) univ
    let o := ipOffset h + 4 * (h.getD (ipOffset h) 0x45 % 16) + 8
    let body := 0 :: slots
    let udp := h.length - o + body.length
    let h := putBytes h (o + 16) (pduLen (udp - 16))
    let h := putBytes h (o + 38) (pduLen (udp - 38))
    let h := putBytes h (o + 109) (bytesBE 2 (r.1.get F.tspPixcfgSyncu))
    let h := putBytes h (o + 111) [r.2]
    let h := putBytes h (o + 113) (bytesBE 2 univ)
    let h := putBytes h (o + 115) (pduLen (udp - 115))
    let h := putBytes h (o + 123) (bytesBE 2 body.length)
    let d := r.1.datagram h body
    { d.1 with net := { d.1.net with pixQ := d.1.net.pixQ ++ [(d.1.get F.tspPixcfgClass, d.2)] } }

/-- The synchronization packet after the last data packet. -/
def State.pixSync (s : State) : State :=
  let t := s.get F.tspPixcfgSynctmpl
  let univ := s.get F.tspPixcfgSyncu
  if univ = 0 then s
  else if !s.templateOk t then s.bump F.tspEvstatTmplerr
  else
    let r := s.univNext univ
    let h := mcastHeader (r.1.flag (F.tspTmpl0Mcast t)) (r.1.template t) univ
    let o := ipOffset h + 4 * (h.getD (ipOffset h) 0x45 % 16) + 8
    let udp := h.length - o
    let h := putBytes h (o + 16) (pduLen (udp - 16))
    let h := putBytes h (o + 38) (pduLen (udp - 38))
    let h := putBytes h (o + 44) [r.2]
    let h := putBytes h (o + 45) (bytesBE 2 univ)
    let d := r.1.datagram h []
    { d.1 with net := { d.1.net with pixQ := d.1.net.pixQ ++ [(d.1.get F.tspPixcfgClass, d.2)] } }

/-- Some band of head h's sub-frame of phase p of tick t is still to be sent, among the band numbers `js`, or may still take a checkpoint
release (R190). -/
def State.bandsToCome (s : State) (h t p : Nat) (js : List Nat) : Bool :=
  let x := s.headOf h
  let y := if x.cfg.clone then s.headOf x.cfg.cloneSrc else x
  (y.runs.any fun r => r.tick == t && bit r.cfg.phmask p && (r.phase < p || (r.phase == p && js.any fun j => r.j ≤ j))) ||
    (y.bands.any fun b => b.tick == t && b.phase == p && js.contains b.j) ||
    (x.sent.any fun z => z.tick == t && z.phase == p && js.contains z.j &&
      match z.fixedAt with | none => true | some e => decide (s.time.uptime < e))

/-- The samples of tick t that entry u takes are all taken (R319). -/
def State.pixTaken (s : State) (t u : Nat) : Bool :=
  let h := s.get (F.tspPmap0Head u)
  let c := (s.headOf h).cfg
  let js := (List.range (s.get (F.tspPmap2Count u))).filterMap fun i =>
    let p := s.pmapPos u i
    if p.1 < 0 || p.2 < 0 || (c.hact : Int) ≤ p.1 || (c.vact : Int) ≤ p.2 then none else some (p.2.toNat / c.bandLines)
  !c.en || !s.bandsToCome h t (s.get (F.tspPmap0Phase u)) js

/-- Packets are built in order of entry, each once its samples are taken, `n` at most; the synchronization packet follows the last data
packet, if there is one (R320). -/
def State.pixBuild (s : State) : Nat → State
  | 0 => s
  | n + 1 =>
    match s.net.pixDue with
    | (u, some slots) :: q =>
      let k := s.net.pixQ.length
      let s := ({ s with net := { s.net with pixDue := q } }).pixPacket u slots
      let s := { s with net := { s.net with pixMade := s.net.pixMade || k < s.net.pixQ.length } }
      let s := if q.isEmpty && s.net.pixMade then s.pixSync else s
      s.pixBuild n
    | _ => s

/-- The entries whose samples of the tick being sent are complete give their packets. DEDUCED, log entry 98. -/
def State.pixTake (s : State) : State :=
  if s.net.pixDue.isEmpty then s
  else
    let t := s.time.ticknum.toNat - 1
    let due := s.net.pixDue.map fun e =>
      if e.2.isNone && s.pixTaken t e.1 then (e.1, some (s.pixSlots e.1)) else e
    let s := ({ s with net := { s.net with pixDue := due } }).pixBuild due.length
    s.pixPush s.net.pixQ.length

/-- EGRESS_FRAME_START: an idle port starts the frame at the head of its lowest-numbered eligible class; packets of the pixel map whose
samples are complete by now have joined their class. -/
def effEgressStart (p : Nat) (s0 : State) : State :=
  let s := s0.pixTake
  if !s.portUp p || (s.sendingOf p).isSome || !s.domOn 78 || !s.queuesFit || s.reqWaits p then s
  else match s.eligible p with
  | none => s
  | some n =>
    match (s.classOf n).fifo with
    | [] => s
    | f :: q =>
      let s := s.settleClass n
      (s.setClass n { s.classOf n with fifo := q }).startFrame p n f

def execEgressFrameStart (port : Nat) (s : State) : Host.Outcome State Fault Refusal := s.done (effEgressStart port s)

/-- Packets of the tick before that have not started are skipped (R320). -/
def State.pixSkip (s : State) : State :=
  let inFifo := s.net.classes.foldl (fun a e => a + (e.2.fifo.filter (·.pix)).length) 0
  let n := s.net.pixQ.length + s.net.pixDue.length + inFifo
  if n = 0 then s
  else
    let s := (List.range 32).foldl (fun s k =>
      if (s.classOf k).fifo.any (·.pix) then
        (s.settleClass k).setClass k { (s.settleClass k).classOf k with fifo := (s.classOf k).fifo.filter fun f => !f.pix }
      else s) s
    (({ s with net := { s.net with pixQ := [], pixDue := [] } }.bump F.tspPixstatSkipped n).raise F.tspEvstatPixmapLate 798).fwtxPull

/-- The slots of an entry pass 512: it sends nothing (R319). -/
def State.pixRefused (s : State) (u : Nat) : Bool :=
  512 < s.get (F.tspPmap3Start u) - 1 + s.get (F.tspPmap2Count u) * (if s.flag (F.tspPmap0Wide u) then 6 else 3)

/-- What the pixel map does at the boundary of tick k: refused entries are counted in every tick. DEDUCED, log entry 98. -/
def State.pixBoundary (s : State) (k : Nat) : State :=
  if !s.domOn 78 then s
  else
    let s := s.pixSkip
    if !s.flag F.tspPixcfgEn then s
    else
      let us := s.touchedPmap.filter fun u => s.flag (F.tspPmap0En u)
      let bad := us.filter s.pixRefused
      let s := if bad.isEmpty then s else s.bump F.tspPixstatCfgerr bad.length
      if k % (s.get F.tspPixcfgDiv + 1) != 0 then s
      else
        let due := (us.filter fun u => !s.pixRefused u).map fun u => (u, none)
        ({ s with net := { s.net with pixDue := due, pixMade := false } }).pixTake

end Sys2Proof.Machine
end

