-- ==== Sys2Proof/Machine/Wall.lean ====
section
/-! DEFINITION. The Wall Link (R357 to R374): band packets, credits, polls, status, lanes and the standby flag; the output read-back
(R99), writeback (R134, R135) and the pixel map's sampling (R319). -/

namespace Sys2Proof.Machine

/-- Lane n sends codewords: enabled, trained, powered, outside Midnight, and some reference is present (R357, R373). -/
def State.laneSends (s : State) (n : Nat) : Bool :=
  n < s.part.lanes && s.flag (F.wlkLaneCfgEn n) && s.flag (F.wlkLaneStatTrained n) && s.domOn (29 + n) && !s.icuRetained &&
    (s.flag F.clkStatusRef100 || s.flag F.clkStatusRef400)

/-! ## The standby flag (R370) -/

/-- Standby state for tick t, as writes and the pair's role changes set it. -/
def State.standSet (s : State) (t : Nat) : Bool :=
  s.wlk.changes.foldl (fun v c => if c.1 ≤ t then c.2 else v) s.wlk.base

/-- Standby value that tick t carries: 1 on a standby that is not synchronised (R434). -/
def State.standAt (s : State) (t : Nat) : Bool := s.standSet t || (s.standby && !s.flag F.mirStatSync)

/-- Earliest frame latch for tick t among transmitting heads; the tick boundary when none transmits. -/
def State.earliestLatch (s : State) (t : Nat) : Int :=
  match s.txHeads.map fun h => s.frameLatch h t with
  | [] => s.tickT t
  | x :: xs => xs.foldl min x

/-- t0 of R370 for an instant W: the first tick from t whose earliest frame latch lies more than 4 µs after W, looking at n. -/
def State.standTick (s : State) (w : Nat) : Nat → Nat → Nat
  | 0, t => t
  | n + 1, t => if (w : Int) + 4000 < s.earliestLatch t then t else s.standTick w n (t + 1)

/-- A change of the standby state, taken with instant W: its tick, and the state with WLK.CTL.STANDBY set and the change pending. -/
def State.setStandby (s : State) (w : Nat) (v : Bool) : State × Nat :=
  let t := s.standTick w 256 s.time.ticknum.toNat
  let s := s.put F.wlkCtlStandby (ofBool v)
  ({ s with wlk := { s.wlk with changes := s.wlk.changes ++ [(t, v)] } }, t)

/-- The standby state of tick k comes into force; changes that no band can ask for any more are folded into the base. -/
def State.standBoundary (s : State) (k : Nat) : State :=
  let s' := s.put F.wlkStatusStby (ofBool (s.standAt k))
  { s' with wlk := { s'.wlk with
    base := if k = 0 then s.wlk.base else s.standSet (k - 1)
    changes := s.wlk.changes.filter fun c => k ≤ c.1 } }

/-- STANDBY_WRITE: a write to WLK.CTL (R370). -/
def effStandby (value : Word) (s : State) : State :=
  let s := s.store Reg.wlkCtl value
  (s.setStandby s.now (bit value.toNat 0)).1

def execStandbyWrite (agent : Nat) (value : Word) (s : State) : Host.Outcome State Fault Refusal :=
  s.done (s.guardWrite agent Reg.wlkCtl (effStandby value))

/-! ## Credits (R369) -/

/-- The CREDIT registers follow the copies. -/
def State.showCredits (s : State) (n : Nat) : State :=
  let l := s.laneOf n
  let kib (k : Nat) : Nat := satAt 16383 (l.copies.getD k 0 / 1024)
  (List.range 4).foldl (fun s k =>
    (s.put (F.wlkLaneCreditSlota n k) (kib (2 * k))).put (F.wlkLaneCreditSlotb n k) (kib (2 * k + 1))) s

/-- `amount` bytes taken from the copies of the slots in `mask`, lowest slot first. DEDUCED, log entry 104. -/
def takeCredit (mask : Nat) : Nat → Nat → List Nat → List Nat
  | _, _, [] => []
  | k, amount, c :: cs =>
    if bit mask k then (c - amount) :: takeCredit mask (k + 1) (amount - c) cs else c :: takeCredit mask (k + 1) amount cs

/-- The credit of a packet of `cells` cells on a head's slots is taken; a short packet is counted. DEDUCED, log entry 104. -/
def State.chargeCredit (s : State) (n mask cells : Nat) : State :=
  let l := s.laneOf n
  if !l.tracking then s
  else
    let have' := (l.copies.zipIdx.filter fun e => bit mask e.2).foldl (fun a e => a + e.1) 0
    let s := (s.setLane n { l with copies := takeCredit mask 0 (64 * cells) l.copies }).showCredits n
    if have' < 64 * cells then (s.bump (F.wlkLaneShortCount n)).raise (F.wlkLaneEventCreditShort n) (863 + 4 * n) else s

/-! ## BAND_PACKET_START (R361, R363) -/

/-- The control-header cell of a band packet. -/
def packetHeader (h : Nat) (stand : Bool) (c : HeadCfg) (x : Sent) (plen : Nat) : List Nat :=
  let body := [h % 128 + 128 * ofBool stand,
    x.phase % 8 + 8 * (c.enc % 4) + 32 * (x.kind % 4) + 128 * ofBool x.late, c.slots] ++
    bytesLE 2 (x.j % 1024 + 1024 * ((x.image.length - 1) % 64)) ++ bytesLE 2 (c.hact % 16384) ++ bytesLE 2 (x.tick % 65536) ++
    bytesLE 2 (x.j * c.bandLines % 16384) ++ bytesLE 4 plen ++ bytesLE 8 x.deadline ++ List.replicate 38 0
  1 :: body ++ bytesLE 2 (crc16 body)

/-- The packet of a sent band on a lane, from cell `first` on: fault injection, credit, read-back and the packet itself. -/
def State.sendPacket (s : State) (h n first : Nat) (x : Sent) : State :=
  let c := x.cfg
  let payload := packBand c x.image
  let header := packetHeader h (s.standAt x.tick) c x payload.length
  let s := s.samplePix h x
  let (s, inj) := s.inject n
  let drop := match inj with | some (0, _) => true | _ => false
  let (header, payload) : List Nat × List Nat := match inj with
    | some (1, v) => (header, flipBit payload (v % (8 * payload.length)))
    | some (2, v) => (flipBit header (8 + v % 504), payload)
    | some (3, _) => (header, swapCells payload)
    | _ => (header, payload)
  let s := s.chargeCredit n c.slots (1 + ceilDiv payload.length 63)
  let y := s.headOf h
  let kind := match inj with | some (a, _) => a | none => 4
  let s := s.setHead h { y with sent := y.sent.map fun z => if z == x then { z with pkt := some (s.time.uptime, s.out.length, kind) } else z }
  let y := s.headOf h
  let hit := s.flag (F.headRbctlArm h) && y.capture.isNone && !drop && s.get (F.headRbctlPhase h) == x.phase &&
    s.get (F.headRbctlBand h) == x.j
  let s := if hit then s.setHead h { y with capture := some (x.tick, unpackBand c x.image.length payload) } else s
  let cells := packetCells header payload
  (s.emit (.packet n c.slots first (if drop then idleCells cells else cells))).pixTake

/-- BAND_PACKET_START of head h: its oldest sent band whose packet has not begun, at the first cell of its slots that comes and that no
packet of the head still holds (R361); on a lane that does not send, or began to after the band's deadline, the packet is discarded
(R373). DEDUCED, log entry 103. -/
def effPacketStart (h : Nat) (s : State) : State :=
  match (s.headOf h).sent.find? fun x => !x.started with
  | none => s
  | some x =>
    let n := laneOfHead h x.cfg
    let y := s.headOf h
    let mark (z : Sent) : Sent := if z == x then { z with started := true } else z
    let s := s.setHead h { y with sent := y.sent.map mark }
    if s.laneSends n && (s.laneOf n).since ≤ x.deadline then
      let l := s.laneOf n
      let first := slotCell x.cfg.slots (max (l.cellFrom s.time.uptime) (s.cellFree h n))
      (s.elapseTo (l.cellAt first)).sendPacket h n first { x with started := true }
    else s

def execBandPacketStart (head : Nat) (s : State) : Host.Outcome State Fault Refusal := s.done (effPacketStart head s)

/-! ## Read-back (R99) -/

/-- A write to HEAD.RBCTL: PHASE and BAND are stored; ARM arms and clears DONE, CANCEL disarms. A write of both arms, clears DONE and
then disarms. DESIGN CHOICE, log entry 140. -/
def effRbctl (h : Nat) (value : Word) (s : State) : State :=
  let s := s.store (Reg.headRbctl h) value
  let s := if bit value.toNat 0 then
      ((s.put (F.headRbctlArm h) 1).put (F.headRbctlDone h) 0).setHead h { s.headOf h with capture := none } else s
  if bit value.toNat 1 then (s.put (F.headRbctlArm h) 0).setHead h { s.headOf h with capture := none } else s

def execReadbackArm (agent head : Nat) (value : Word) (s : State) : Host.Outcome State Fault Refusal :=
  s.done (s.guardWrite agent (Reg.headRbctl head) (effRbctl head value))

def execReadbackCancel (agent head : Nat) (value : Word) (s : State) : Host.Outcome State Fault Refusal :=
  s.done (s.guardWrite agent (Reg.headRbctl head) (effRbctl head value))

/-- READBACK_DONE: the packet captured has ended; its signature is recorded. -/
def effReadbackDone (h : Nat) (s : State) : State :=
  let x := s.headOf h
  match x.capture with
  | none => s
  | some (t, image) =>
    let s := (s.setHead h { x with capture := none }).wr64 (Reg.headRbsigLo h) (crc64 image)
    let s := ((s.put (F.headRbctlTicklo h) t).put (F.headRbctlArm h) 0).put (F.headRbctlDone h) 1
    s.raise (F.headEventReadbackDone h) (4 * h + 4)

def execReadbackDone (head : Nat) (s : State) : Host.Outcome State Fault Refusal := s.done (effReadbackDone head s)

/-! ## Writeback (R134, R135) -/

/-- Tick, phase and band in order. -/
def keyLt (a b : Nat × Nat × Nat) : Bool :=
  a.1 < b.1 || (a.1 == b.1 && (a.2.1 < b.2.1 || (a.2.1 == b.2.1 && a.2.2 < b.2.2)))

def Sent.key (x : Sent) : Nat × Nat × Nat := (x.tick, x.phase, x.j)

/-- A captured sub-frame is visible (R134, R281): STATUS, WB_DONE, WB_INCOMPLETE. -/
def State.wbSignal (s : State) (n : Nat) (e : WbEnd) : State :=
  let x := s.wbOf n
  let src := 515 + 4 * groupOfHead x.cfg.head (s.headOf x.cfg.head).cfg
  let s := s.put (F.fltWbStatusLastbuf n) e.buf
  let s := s.put (F.fltWbStatusIncomplete n) (ofBool e.missed)
  let s := (s.put (F.fltWbStatusTicklo n) e.tick).put (F.fltWbStatusPhase n) e.phase
  let s := s.raise (F.fltWbStatusWbDone n) src
  if e.missed then s.raise (F.fltWbStatusWbIncomplete n) src else s

/-- Sub-frames of port n that have ended are signalled in order, each once all its writes are visible (R281), looking at `k`. -/
def State.wbVisible (s : State) (n : Nat) : Nat → State
  | 0 => s
  | k + 1 =>
    match (s.wbOf n).ends with
    | [] => s
    | e :: es =>
      if s.cxl.writes.any fun w => w.use == .writeback n && w.tick == e.tick && w.phase == e.phase then s
      else ((s.setWb n { s.wbOf n with ends := es }).wbSignal n e).wbVisible n k

/-- A captured sub-frame ends, and k advances (R134). -/
def State.wbEnd (s : State) (n tick phase : Nat) (missed : Bool) : State :=
  let x := s.wbOf n
  (s.setWb n { x with
    k := (x.k + 1) % max 1 x.cfg.nbuf, missed := false, due := none, ends := x.ends ++ [⟨tick, phase, x.k, missed⟩] }).wbVisible n
      (x.ends.length + 1)

/-- The lines of a band written to the port's buffer, each padded to 64 bytes (R166), granule by granule; none where the protection map
refuses (R450) or the flatten region lies (R128), and none that local memory does not take: a frozen controller, a channel that is off. -/
def State.wbWrite (s : State) (n : Nat) (x : Sent) : State × Bool :=
  let w := (s.wbOf n).cfg
  let agent := (s.headOf w.head).agent
  let base := w.addr + (s.wbOf n).k * w.stride.toNat + x.j * x.cfg.bandLines * w.pitchB
  x.image.zipIdx.foldl (fun (a : State × Bool) l =>
    let at0 := base + l.2 * w.pitchB
    let bs := lineImage x.cfg l.1
    (pieces at0 bs.length).foldl (fun (a : State × Bool) p =>
      let b := (bs.drop (p.1 - at0)).take p.2
      if !a.1.granted agent true w.dest p.1 p.2 then (a.1.violation agent true 1 p.1, false)
      else if w.dest = 1 then (a.1.cacheWrite (.writeback n) x.tick x.phase p.1 b, a.2)
      else if a.1.localDead p.1 p.2 then (a.1, false)
      else (a.1.localStore 28 p.1 b, a.2)) a) (s, true)

/-- WRITEBACK_BAND of port n: its next sent band, once the last line of its packet has begun, so that it holds what is sent (R23). A
band that left the band buffer unwritten, or was not accepted, is missed.
DEDUCED, log entry 64. -/
def effWriteback (n : Nat) (accepted : Bool) (s : State) : State :=
  let p := s.wbOf n
  let w := p.cfg
  let next := (s.headOf w.head).sent.find? fun x => w.takes x.phase && (match p.past with | some k => keyLt k x.key | none => true)
  if 16 ≤ n || !w.en || (s.headOf w.head).cfg.clone then s
  else match next.bind fun x => x.fixedAt.map fun t => (x, t) with
  | none => s
  | some (x, t) =>
    let s := s.elapse (t - s.time.uptime)
    -- A sub-frame left unfinished by bands that are gone.
    let s := match p.due with
      | some d => if d.1 != x.tick || d.2.1 != x.phase then s.wbEnd n d.1 d.2.1 true else s
      | none => s
    let p := s.wbOf n
    let expected := match p.due with | some d => d.2.2 + 1 | none => 0
    let gap := x.j != expected
    let (s, ok) := if accepted then s.wbWrite n x else (s, false)
    let missed := p.missed || gap || !ok
    let s := s.setWb n { s.wbOf n with missed := missed, due := some x.key, past := some x.key }
    if x.last then s.wbEnd n x.tick x.phase missed else s

def execWritebackBand (port : Nat) (accepted : Bool) (s : State) : Host.Outcome State Fault Refusal :=
  s.done (effWriteback port accepted s)

/-! ## Link messages (R365 to R368) -/

/-- Bytes of a STATUS_POLL, CREDIT, STATUS or other message. -/
def msgBytes (m : List Byte) : List Nat := m.map BitVec.toNat

/-- A return message of lane n is discarded (R365, R366). -/
def State.badMessage (s : State) (n : Nat) (crc : Bool) : State :=
  let s := s.bump (F.wlkLaneCtrlerrBad n)
  if crc then s.raise (F.wlkLaneEventRxCrc n) (864 + 4 * n) else s

/-- STATUS: stored; HUB_STATUS when STATE or the identifier changes. -/
def State.hubStatus (s : State) (n : Nat) (m : List Nat) : State :=
  let word (s : State) (k : Nat) : Nat := s.get (F.wlkLaneHubstatData n k)
  let old := (s.get (F.wlkLaneStatHubstate n), word s 0 / 256, word s 1 % 256)
  let data (k : Nat) : Nat := ofBytesLE ((List.range 4).map fun b => if 4 * k + b + 1 ≤ 14 then m.getD (4 * k + b + 1) 0 else 0)
  let s := (List.range 4).foldl (fun s k => s.put (F.wlkLaneHubstatData n k) (data k)) s
  let s := s.put (F.wlkLaneStatHubstate n) (m.getD 1 0)
  if (s.get (F.wlkLaneStatHubstate n), word s 0 / 256, word s 1 % 256) != old then
    s.raise (F.wlkLaneEventHubStatus n) (862 + 4 * n) else s

/-- A message of the return of lane n, by its TYPE. A poll is held only while the lane can answer. DEDUCED, log entry 103. -/
def State.linkMessage (s : State) (n : Nat) (m : List Nat) : State :=
  if !(n < s.part.lanes && s.domOn (29 + n) && s.flag (F.wlkLaneStatRxlock n)) then s
  else if m.length ≠ 17 ∨ crc16 (m.take 15) ≠ ofBytesLE (m.drop 15) then s.badMessage n true
  else match m.getD 0 0 with
  | 0 => s
  | 1 => if s.laneSends n then
      s.setLane n { s.laneOf n with poll := some (ofBytesLE ((m.drop 1).take 2), s.time.uptime) } else s
  | 2 =>
    let x := ofBytesLE ((m.drop 1).take 14)
    (s.setLane n { s.laneOf n with tracking := true, copies := (List.range 8).map fun k => 1024 * field x (14 * k) 14 }).showCredits n
  | 3 => s.hubStatus n m
  | _ => s.badMessage n false

def execStatusPoll (lane : Nat) (msg : List Byte) (s : State) : Host.Outcome State Fault Refusal :=
  s.done (s.linkMessage lane (msgBytes msg))

def execCredit (lane : Nat) (msg : List Byte) (s : State) : Host.Outcome State Fault Refusal :=
  s.done (s.linkMessage lane (msgBytes msg))

def execStatus (lane : Nat) (msg : List Byte) (s : State) : Host.Outcome State Fault Refusal :=
  s.done (s.linkMessage lane (msgBytes msg))

/-- Slots of lane n held by a head with EN = 1 in its active set. -/
def State.slotsHeld (s : State) (n : Nat) : Nat :=
  s.txHeads.foldl (fun a h => if laneOfHead h (s.headOf h).cfg = n then a ||| (s.headOf h).cfg.slots else a) 0

/-- The first link frame of lane n that begins now or after, of 8 codewords of ten cells (R358, R365). -/
def LaneSt.frameFrom (l : LaneSt) (u : Nat) : Nat := ceilDiv (l.cellFrom u) 80

/-- The link message that lane n sends in link frame k: TYPE 0 where it has nothing else to send (R365). -/
def State.messageOn (s : State) (n k : Nat) : List Nat :=
  let idle := List.replicate 15 0
  (s.out.zipIdx.findSome? fun e => match e.1 with
    | .laneMsg lane f m => if lane == n && f == k && (s.laneOf n).outFrom ≤ e.2 then some m else none
    | _ => none).getD (idle ++ bytesLE 2 (crc16 idle))

/-- The link field of codeword w of lane n: its index in the link frame and 17 bits of the message (R365). -/
def State.linkField (s : State) (n w : Nat) : Nat :=
  w % 8 + 8 * (ofBytesLE (s.messageOn n (w / 8)) / 2 ^ (17 * (w % 8)) % 2 ^ 17)

/-- The message bits of codeword w of lane n, bit 0 first: its link field and ten cells (R358). -/
def State.codeword (s : State) (n w : Nat) : Nat :=
  s.linkField n w + 2 ^ 20 * ofBytesLE ((List.range 10).flatMap fun i => s.cellOn n (10 * w + i))

/-- POLL_ANSWER (R367, R368): in the link frame that begins next. DEDUCED, log entry 103. -/
def effPollAnswer (n : Nat) (s : State) : State :=
  match (s.laneOf n).poll with
  | none => s
  | some (tag, at0) =>
    if !s.laneSends n then s
    else
      let l := s.laneOf n
      let frame := l.frameFrom s.time.uptime
      let s := s.elapseTo (l.cellAt (80 * frame))
      let flags := ofBool s.inDusk + 2 * ofBool (s.standAt s.time.ticknum.toNat) + 4 * ofBool (s.flag F.clkStatusFallback)
      let body := [1] ++ bytesLE 2 tag ++ [flags, s.slotsHeld n, 0] ++ bytesLE 8 s.now ++ [0]
      let s := s.setLane n { s.laneOf n with poll := none }
      let s := (s.put (F.wlkLanePollTag n) tag).bump (F.wlkLaneCtrlerrPolls n)
      let s := s.put (F.wlkLanePollTurnmax n) (max (s.get (F.wlkLanePollTurnmax n)) (satAt 65535 (s.time.uptime - at0)))
      s.emit (.laneMsg n frame (body ++ bytesLE 2 (crc16 body)))

def execPollAnswer (lane : Nat) (s : State) : Host.Outcome State Fault Refusal := s.done (effPollAnswer lane s)

/-! ## Lanes (R373) -/

/-- Return codewords of lane n since the last look: corrected ones and, beside `k` known ones, uncorrectable ones, both free (R358).
DESIGN CHOICE, log entry 156. -/
def State.countFec (s : State) (n k : Nat) : State :=
  ((s.bump (F.wlkLaneFecCorr n) (Config.freeNat s.fresh)).tick.bump (F.wlkLaneFecUncorr n) (k + Config.freeNat (s.fresh + 1))).tick

/-- LANE_RX_LOCK_CHANGE: lock is lost after 4 uncorrectable codewords in a row (R358). -/
def effLaneLock (n : Nat) (locked : Bool) (s : State) : State :=
  if s.part.lanes ≤ n || !s.domOn (29 + n) || s.flag (F.wlkLaneStatRxlock n) == locked then s
  else
    let s := if locked then s else s.countFec n 4
    let s := s.put (F.wlkLaneStatRxlock n) (ofBool locked)
    let s := s.put ⟨Reg.wlkStatus, n, 1⟩ (ofBool locked)
    s.raise (F.wlkLaneEventLaneState n) (861 + 4 * n)

def execLaneRxLockChange (lane : Nat) (locked : Bool) (s : State) : Host.Outcome State Fault Refusal :=
  s.done (effLaneLock lane locked s)

/-- Codewords start on lane n, at a boundary of its grid, which is not aligned to DEVTIME: its place inside a codeword is free. Credit is
not tracked until the first CREDIT (R369, R373). DESIGN CHOICE, log entry 185. -/
def State.laneStart (s : State) (n : Nat) : State :=
  let s := s.put (F.wlkLaneStatTrained n) 1
  (s.setLane n { s.laneOf n with
    since := s.now, grid := s.time.uptime + Config.freeNat s.fresh % 49, outFrom := s.out.length }).tick

/-- A write to WLK.LANE[n].CFG: EN takes effect; MEDIA and PRECODE take effect only while EN = 0 (R373). -/
def effLaneCfg (n : Nat) (value : Word) (s : State) : State :=
  let was := s.flag (F.wlkLaneCfgEn n)
  let on := bit value.toNat 0
  let media := bit value.toNat 1
  let precode := bit value.toNat 2
  let s := s.store (Reg.wlkLaneCfg n) value
  if on && !was then
    let s := (s.setLane n { LaneSt.init with copies := List.replicate 8 (16383 * 1024), media := media, precode := precode }).showCredits n
    if media then s else s.laneStart n
  else if was && !on then
    ((s.cutLane n).put (F.wlkLaneStatTrained n) 0).setLane n { s.laneOf n with poll := none, media := media, precode := precode }
  else if on then s
  else s.setLane n { s.laneOf n with media := media, precode := precode }

def execLaneEnable (agent lane : Nat) (value : Word) (s : State) : Host.Outcome State Fault Refusal :=
  s.done (s.guardWrite agent (Reg.wlkLaneCfg lane) (effLaneCfg lane value))

def execLaneDisable (agent lane : Nat) (value : Word) (s : State) : Host.Outcome State Fault Refusal :=
  s.done (s.guardWrite agent (Reg.wlkLaneCfg lane) (effLaneCfg lane value))

/-- LANE_TRAINING_DONE: codewords start on a CR lane. -/
def effTrainingDone (n : Nat) (s : State) : State :=
  if n < s.part.lanes && s.domOn (29 + n) && s.flag (F.wlkLaneCfgEn n) && (s.laneOf n).media &&
      !s.flag (F.wlkLaneStatTrained n)
  then s.laneStart n else s

def execLaneTrainingDone (lane : Nat) (s : State) : Host.Outcome State Fault Refusal := s.done (effTrainingDone lane s)

end Sys2Proof.Machine
end

