-- ==== Sys2Proof/Machine/Blt.lean ====
section
/-! DEFINITION. The blitter (R222 to R238): descriptors, the four operations, overlap and direction, watermark, completion, errors. -/

namespace Sys2Proof.Machine

/-! ## A descriptor's fields (R224) -/

/-- Bits [lo + w - 1 : lo] of the word at byte `o` of a descriptor. -/
def bltF (d : List Nat) (o lo w : Nat) : Nat := field (recField d o 4) lo w

def bltOp (d : List Nat) : Nat := bltF d 0 0 3
def bltWidth (d : List Nat) : Nat := bltF d 4 0 20
def bltHeight (d : List Nat) : Nat := bltF d 8 0 16
def bltSfmt (d : List Nat) : Nat := bltF d 0 16 5
def bltDfmt (d : List Nat) : Nat := bltF d 0 24 5
def bltSpitch (d : List Nat) : Nat := bltF d 0x0C 0 24
def bltDpitch (d : List Nat) : Nat := bltF d 0x10 0 24
def bltSaddr (d : List Nat) : Nat := recField d 0x14 8
def bltDaddr (d : List Nat) : Nat := recField d 0x1C 8
def bltSrcMem (d : List Nat) : Nat := bltF d 0 3 1
def bltDstMem (d : List Nat) : Nat := bltF d 0 4 1

/-- Bytes of a source row and of a destination row (R113). -/
def bltSrcRow (d : List Nat) : Nat := if bltOp d < 2 then bltWidth d else storedWidth (bltSfmt d) (bltWidth d)
def bltDstRow (d : List Nat) : Nat := if bltOp d < 2 then bltWidth d else storedWidth (bltDfmt d) (bltWidth d)

/-- The layer fields that stand for the descriptor's colour conversion (R227). -/
def bltLayer (s : State) (d : List Nat) : LayerCfg :=
  { LayerCfg.init with color := BitVec.ofNat 32 (recField d 0x24 4), gamut := (s.blt.gamut.drop (9 * bltF d 0x28 6 2)).take 9 }

/-! ## Checks before the first access -/

/-- The reserved fields are zero; a FILL has its pattern where the others have one. Bits that R224's table does not name are not looked at.
DESIGN CHOICE, log entry 179. -/
def bltReserved (d : List Nat) : Bool :=
  bltF d 0 13 1 == 0 && bltF d 0 21 3 == 0 && bltF d 0 29 3 == 0 && bltF d 4 20 12 == 0 && (bltOp d == 1 || bltF d 0x28 8 8 == 0) &&
    recField d 0x34 8 == 0 && (bltOp d < 2 || (bltF d 0x24 7 1 == 0 && bltF d 0x24 28 4 == 0))

/-- A defined pixel format (R113). -/
def fmtDefined (f : Nat) : Bool := formatBits f != 0

/-- The colour word of a conversion holds defined values (R138, R154), and what a binary16 source and a premultiplied alpha allow (R151,
R152). -/
def bltColourOk (d : List Nat) : Bool :=
  let eotf := bltF d 0x24 0 3
  eotf < 6 && bltF d 0x24 5 2 != 3 && bltF d 0x24 12 8 ≤ 31 &&
    (bltSfmt d != 0x0E || (eotf == 0 && bltF d 0x24 3 1 == 0)) && (bltF d 0 11 2 != 1 || eotf == 0)

/-- R227's and R228's rules for the formats. MODE is looked at for a BLEND, whose field it is. DESIGN CHOICE, log entry 178. -/
def bltFormatsOk (d : List Nat) : Bool :=
  let sf := bltSfmt d
  let df := bltDfmt d
  let pair := (sf != 0x0A && sf != 0x0B) || bltWidth d % 2 == 0
  match bltOp d with
  | 2 => fmtDefined sf && (df ≤ 9 || df == 0x0E) && pair && bltColourOk d
  | _ =>
    let mode := bltF d 0 8 3
    mode != 4 && mode < 6 &&
      (if df = 0x0E then fmtDefined sf && pair && bltColourOk d
       else (df == 2 || df == 8 || df == 9) && (sf ≤ 9 || (0x10 ≤ sf && sf ≤ 0x13)) && (mode == 0 || mode == 5))

/-- R229. -/
def bltAlignOk (d : List Nat) : Bool :=
  bltSaddr d % 64 == 0 && bltDaddr d % 64 == 0 && bltSpitch d % 64 == 0 && bltDpitch d % 64 == 0 &&
    bltSrcRow d ≤ bltSpitch d && bltDstRow d ≤ bltDpitch d

/-- Every field value is defined and keeps R227 to R229. -/
def bltDescOk (d : List Nat) : Bool :=
  bltOp d ≤ 3 && bltReserved d && bltWidth d != 0 && bltHeight d != 0 && (bltOp d < 2 || (bltFormatsOk d && bltAlignOk d))

/-- Byte after the span of a rectangle. -/
def spanEnd (base pitch row height : Nat) : Nat := base + (height - 1) * pitch + row

/-- The source and destination rectangles overlap. -/
def bltOverlap (d : List Nat) : Bool :=
  bltOp d != 1 && bltSrcMem d == bltDstMem d &&
    bltSaddr d < spanEnd (bltDaddr d) (bltDpitch d) (bltDstRow d) (bltHeight d) &&
    bltDaddr d < spanEnd (bltSaddr d) (bltSpitch d) (bltSrcRow d) (bltHeight d)

/-- The error found before the first access, or 0 (R231, R234). -/
def bltCheck (d : List Nat) : Nat :=
  if crc32c (d.take 60) != recField d 0x3C 4 then 1
  else if !bltDescOk d then 2
  else if bltOverlap d && bltOp d == 0 && bltSpitch d != bltDpitch d then 3
  else if bltOverlap d && bltOp d != 0 then 4
  else 0

/-- R230: the operation runs descending. -/
def bltDown (d : List Nat) : Bool := bltOp d == 0 && bltOverlap d && bltSaddr d < bltDaddr d

/-! ## Access checks, errors, the ring -/

/-- The error of one access by the blitter, 5 refused, 6 no data from local memory (R234); an access to host memory fails when it ends. -/
def State.bltAccess (s : State) (write : Bool) (space a n : Nat) : Option Nat :=
  if !s.granted s.blt.agent write space a n then some 5
  else if space == 0 && (if write then s.frozen else s.localDead a n) then some 6
  else none

/-- Nothing of a descriptor is in hand. -/
def BltSt.drop (x : BltSt) : BltSt :=
  { x with desc := none, running := false, written := false, got := [], snap := [], gen := x.gen + 1 }

/-- The blitter halts (R234); code 7 is a failed CXL.cache access, which is recorded (R278). -/
def State.bltHalt (s : State) (code : Nat) (addr : Option (Nat × Bool)) : State :=
  let s := match addr with
    | some (a, w) =>
      let s := s.wr64 Reg.bltErraddrLo a
      if code = 5 then s.violation s.blt.agent w 1 a else if code = 7 then s.cxlRderr none 2 a else s
    | none => s
  let s := ((s.put F.bltStatusHalted 1).put F.bltStatusErrcode (min code 6)).put F.bltStatusBusy 0
  ({ s with blt := s.blt.drop }).raise F.bltEventBltError 619

/-- Entries of the ring (BLT.CTL.RINGSZ). -/
def State.bltRing (s : State) : Nat :=
  let z := s.get F.bltCtlRingsz
  2 ^ (if 4 ≤ z ∧ z ≤ 12 then z else 4)

/-- HEADIDX moves to `i`; BLT_IDLE when the ring is empty (R222). -/
def State.bltHead (s : State) (i : Nat) : State :=
  let s := s.put F.bltHeadidxIndex i
  if s.get F.bltHeadidxIndex = s.get F.bltTailidxIndex then s.raise F.bltEventBltIdle 620 else s

/-- The blitter may start a descriptor (R222): every write of the one before is visible (R223). -/
def State.bltReady (s : State) : Bool :=
  s.flag F.bltCtlEn && !s.flag F.bltStatusHalted && !s.flag F.bltStatusBusy && s.domOn 71 && s.takesWork && !s.writing .blitter &&
    s.get F.bltHeadidxIndex != s.get F.bltTailidxIndex

/-- A descriptor that has been read is checked and started. -/
def State.bltTake (s : State) (d : List Nat) : State :=
  let s := (s.put F.bltRowsRows 0).put F.bltStatusDir 0
  match bltCheck d with
  | 0 =>
    let s := ((s.put F.bltStatusBusy 1).put F.bltStatusDir (ofBool (bltDown d))).put F.bltWatermarkRows (bltF d 8 16 16)
    { s with blt := { s.blt.drop with
      desc := some d, fired := false, snap := if bltOp d = 0 then s.dram else [],
      gamut := (List.range 4).flatMap fun m => s.rdList (Reg.bltGamut m 0) 9 } }
  | e => s.bltHalt e none

/-- The blitter's reads of host granules, non-real-time (R273, R274); those not asked for yet. -/
def State.bltAsk (s : State) (gs : List Nat) : State :=
  let r : CxlRead := ⟨0, 0, .blitter, false, 0, 0, 0, (s.blt.gen, 0, 0, 0), false, 0, 0⟩
  s.cxlAskAll r (gs.filter fun g => !s.cxlAsked r g)

/-- The descriptor at HEADIDX is read; one in host memory is taken when its data has come. The access is checked as it is made (R451).
DEDUCED, log entry 74. -/
def State.bltLoad (s : State) : State :=
  let space := s.get F.bltCtlRingmem
  let a := s.rd64 Reg.bltRingLo + 64 * s.get F.bltHeadidxIndex
  match s.bltAccess false space a 64 with
  | some e => s.bltHalt e (some (a, false))
  | none =>
    if space = 0 then (s.useLocal 31 a 64).bltTake (s.dramRead a 64) else s.bltAsk [a / 64]

/-- DESCRIPTOR_START (R222). -/
def effBltStart (s : State) : State := if s.bltReady then s.bltLoad else s

def execBltDescriptorStart (s : State) : Host.Outcome State Fault Refusal := s.done (effBltStart s)

/-! ## Rows -/

/-- Code width of an integer RGB or RGBA format. -/
def fmtWidth (f : Nat) : Nat :=
  if f ≤ 1 ∨ f = 8 then 8 else if f ≤ 3 then 10 else if f ≤ 5 then 12 else 16

/-- A pixel's bytes in an integer RGB or RGBA format, from codes of the format's width (R113, R227). -/
def packPx (f r g b a : Nat) : List Nat :=
  match f with
  | 0 => [r, g, b]
  | 1 => [b, g, r]
  | 2 => bytesLE 4 (r + 1024 * g + 1048576 * b)
  | 3 => bytesLE 4 (b + 1024 * g + 1048576 * r)
  | 4 => [r, g, b].flatMap fun x => bytesLE 2 (16 * x)
  | 5 => [b, g, r].flatMap fun x => bytesLE 2 (16 * x)
  | 6 => [r, g, b].flatMap (bytesLE 2)
  | 7 => [b, g, r].flatMap (bytesLE 2)
  | 8 => [r, g, b, a]
  | _ => [r, g, b, a].flatMap (bytesLE 2)

/-- A working-format pixel written as RGBA binary16 (R227). -/
def writeHalf (p : Px) : List Nat :=
  [p.r.toNat, p.g.toNat, p.b.toNat, round16 ⟨p.a.toNat, 65535⟩].flatMap (bytesLE 2)

/-- A working-format pixel written in an integer format, and the channels clamped (R227). -/
def State.writeInt (s : State) (d : List Nat) (p : Px) : List Nat × Nat :=
  let f := bltDfmt d
  let top : Nat := 2 ^ fmtWidth f - 1
  let tone (x : Nat) : Q :=
    if bltF d 0x28 5 1 = 1 then
      value16 (round16 (s.curve (Reg.layerTone (bltF d 0x28 0 5) 0) (if 0x8000 ≤ x then 0 else x)))
    else value16 x
  let ch := [p.r, p.g, p.b].map fun x => tone x.toNat
  let code (x : Q) : Nat := ((x.unit).mul (.ofNat top)).roundUp.toNat
  let alpha : Nat := ((Q.mk' ((p.a.toNat * top : Nat) : Int) 65535).roundUp).toNat
  let k (i : Nat) : Nat := code (ch.getD i (.ofNat 0))
  (packPx f (k 0) (k 1) (k 2) alpha, (ch.filter fun x => x.num < 0 || (Q.ofNat 1).lt x).length)

/-- Source pixel i of row r. -/
def State.bltSrcPx (s : State) (d : List Nat) (r i : Nat) : Raw :=
  s.rawPx (bltSrcMem d == 1) (bltSfmt d) (bltF d 0x24 24 4) (bltSaddr d) (bltSpitch d) i r (bltWidth d - 1)

/-- Destination pixel i of row r. -/
def State.bltDstPx (s : State) (d : List Nat) (r i : Nat) : Raw :=
  s.rawPx (bltDstMem d == 1) (bltDfmt d) 0 (bltDaddr d) (bltDpitch d) i r (bltWidth d - 1)

/-- One pixel of a BLEND (R228). -/
def State.bltBlendPx (s : State) (d : List Nat) (r i : Nat) : List Nat :=
  let mode := bltF d 0 8 3
  let asrc := bltF d 0 11 2
  let al (p : Px) : Nat := resolveAlpha asrc (bltF d 0x28 16 16) p.a.toNat
  if bltDfmt d = 0x0E then
    let sp := s.convert (bltLayer s d) (s.bltSrcPx d r i)
    let dp := match s.bltDstPx d r i with
      | .half a b c x => mkPx (halfColour a) (halfColour b) (halfColour c) (halfAlpha x)
      | _ => Px.zero
    writeHalf (blendPx mode (asrc == 1) sp dp (al sp) 0)
  else
    let sp := encodedPx (s.bltSrcPx d r i)
    let p := blendEncoded mode (asrc == 1) sp (encodedPx (s.bltDstPx d r i)) (al sp)
    let top : Nat := 2 ^ fmtWidth (bltDfmt d) - 1
    let enc (x : BitVec 16) : Nat := ((Q.mk' ((x.toNat * top : Nat) : Int) 65535).roundUp).toNat
    packPx (bltDfmt d) (enc p.r) (enc p.g) (enc p.b) (enc p.a)

/-- What the blitter reads from: memory with the host granules it has read, and for a COPY local memory as it was at the descriptor's
start (R225). -/
def State.bltView (s : State) (d : List Nat) : State :=
  let v := s.blt.got.foldl (fun v e => v.hostSee (64 * e.1) e.2) s
  if bltOp d = 0 then { v with dram := s.blt.snap } else v

/-- The bytes that destination row r takes, and channels clamped (R225 to R228). -/
def State.bltRow (v : State) (d : List Nat) (r : Nat) : List Nat × Nat :=
  let w := List.range (bltWidth d)
  match bltOp d with
  | 0 => (v.memRead (bltSrcMem d) (bltSaddr d + r * bltSpitch d) (bltWidth d), 0)
  | 1 =>
    let n := 2 ^ bltF d 0 14 2
    (w.map fun i => d.getD (0x24 + i % n) 0, 0)
  | 2 =>
    w.foldl (fun (a : List Nat × Nat) i =>
      let p := v.convert (bltLayer v d) (v.bltSrcPx d r i)
      if bltDfmt d = 0x0E then (a.1 ++ writeHalf p, a.2)
      else let e := v.writeInt d p; (a.1 ++ e.1, a.2 + e.2)) ([], 0)
  | _ => (w.flatMap (v.bltBlendPx d r), 0)

/-- Pieces of a row in the order the operation takes them. -/
def bltPieces (d : List Nat) (a n : Nat) : List (Nat × Nat) := if bltDown d then (pieces a n).reverse else pieces a n

/-- What row r reads: space, address, length. -/
def bltReads (d : List Nat) (r : Nat) : List (Nat × Nat × Nat) :=
  (if bltOp d = 1 then [] else [(bltSrcMem d, bltSaddr d + r * bltSpitch d, bltSrcRow d)]) ++
    (if bltOp d = 3 then [(bltDstMem d, bltDaddr d + r * bltDpitch d, bltDstRow d)] else [])

/-- The first read of row r in a space that fails, with its address, of the pieces that are still to be made. -/
def State.bltReadError (s : State) (space : Nat) (made : Nat → Bool) (d : List Nat) (r : Nat) : Option (Nat × Nat) :=
  (bltReads d r).findSome? fun x =>
    if x.1 ≠ space then none
    else (bltPieces d x.2.1 x.2.2).findSome? fun p => if made (p.1 / 64) then none else (s.bltAccess false space p.1 p.2).map fun e => (e, p.1)

/-- Host granules of row r that have not been read. -/
def State.bltMissing (s : State) (d : List Nat) (r : Nat) : List Nat :=
  (((bltReads d r).filter fun x => x.1 == 1).flatMap fun x => (bltPieces d x.2.1 x.2.2).map fun p => p.1 / 64).eraseDups.filter
    fun g => (s.blt.got.lookup g).isNone

/-- A row written piece by piece; the error that ended it. -/
def State.bltWriteRow (s : State) (d : List Nat) (r : Nat) (bs : List Nat) : State × Option (Nat × Nat) :=
  let base := bltDaddr d + r * bltDpitch d
  (bltPieces d base bs.length).foldl (fun (a : State × Option (Nat × Nat)) p =>
    let x := (bs.drop (p.1 - base)).take p.2
    if a.2.isSome then a
    else match a.1.bltAccess true (bltDstMem d) p.1 p.2 with
    | some e => (a.1, some (e, p.1))
    | none => (if bltDstMem d = 1 then a.1.cacheWrite .blitter 0 0 p.1 x else a.1.localStore 31 p.1 x, none)) (s, none)

/-! ## Fences, watermark (R232, R233, R235) -/

/-- A fence signal by the blitter, with the rights of the agent of R235; false where they refuse it. -/
def State.bltFence (s : State) (n v : Nat) : State × Bool :=
  let off := Reg.layerFence n
  if !s.mayAccess s.blt.agent true off then
    ((s.violation s.blt.agent true 0 off).wr64 Reg.bltErraddrLo off |>.bltHalt 5 none, false)
  else if s.standby then (s.localWrite, true)
  else (effFence n (BitVec.ofNat 32 v) s, true)

/-- The watermark's steps, once a descriptor. -/
def State.bltWatermark (s : State) (d : List Nat) : State × Bool :=
  let w := s.get F.bltWatermarkRows
  if s.blt.fired || w = 0 || s.get F.bltRowsRows < w then (s, true)
  else
    let s := { s with blt := { s.blt with fired := true } }
    let r := if bltF d 0 5 1 = 1 then s.bltFence (bltF d 0x2C 0 10) (bltF d 0x2C 16 16) else (s, true)
    if r.2 then (r.1.raise F.bltEventBltWatermark 618, true) else r

/-- One more row is complete. -/
def State.bltRowDone (s : State) (d : List Nat) : State × Bool := (s.bump F.bltRowsRows).bltWatermark d

/-! ## Operations -/

/-- Row r, whose host data is all there: its local data is read, and it is written; an error halts the blitter (R234). -/
def State.bltDoRow (s : State) (d : List Nat) (r : Nat) : State :=
  match s.bltReadError 0 (fun _ => false) d r with
  | some e => s.bltHalt e.1 (some (e.2, false))
  | none =>
    let row := (s.bltView d).bltRow d r
    let s := ((bltReads d r).filter fun x => x.1 == 0).foldl (fun s x => s.useLocal 31 x.2.1 x.2.2) s
    let w := s.bltWriteRow d r row.1
    let s := if row.2 = 0 then w.1 else w.1.bumpSat F.bltClampcntCount row.2
    match w.2 with
    | some e => s.bltHalt e.1 (some (e.2, true))
    | none => { s with blt := { s.blt with written := true } }

/-- The row in hand; none while the operation is not under way, the row has been written, or no row is left. -/
def State.bltRowNow (s : State) (d : List Nat) : Option Nat :=
  let k := s.get F.bltRowsRows
  if !s.blt.running || s.blt.written || bltHeight d ≤ k || !s.domOn 71 then none
  else some (if bltDown d then bltHeight d - 1 - k else k)

/-- The row in hand: its host data is read, each access checked as it is made (R235, R451), and one with a host destination is written; a
row of local memory becomes visible as it is written, in ROW_COMPLETE. DEDUCED, log entry 74. -/
def State.bltHand (s : State) (d : List Nat) : State :=
  match s.bltRowNow d with
  | none => s
  | some r =>
    let gs := s.bltMissing d r
    if gs.isEmpty then (if bltDstMem d = 1 then s.bltDoRow d r else s)
    else
      let asked (g : Nat) : Bool := !gs.contains g || s.cxlAsked ⟨0, 0, .blitter, false, 0, 0, 0, (s.blt.gen, 0, 0, 0), false, 0, 0⟩ g
      match s.bltReadError 1 asked d r with
      | some e => s.bltHalt e.1 (some (e.2, false))
      | none => s.bltAsk gs

/-- The operation `op` of the descriptor in progress begins. DEDUCED, log entry 74. -/
def effBltOp (op : Nat) (s : State) : State :=
  match s.blt.desc with
  | none => s
  | some d =>
    if bltOp d = op && !s.blt.running && s.domOn 71 then ({ s with blt := { s.blt with running := true } }).bltHand d else s

def execBltCopy (s : State) : Host.Outcome State Fault Refusal := s.done (effBltOp 0 s)

def execBltFill (s : State) : Host.Outcome State Fault Refusal := s.done (effBltOp 1 s)

def execBltConvert (s : State) : Host.Outcome State Fault Refusal := s.done (effBltOp 2 s)

def execBltBlend (s : State) : Host.Outcome State Fault Refusal := s.done (effBltOp 3 s)

/-- ROW_COMPLETE: the row in hand becomes visible, in local memory as it is written and in host memory when all its writes are (R223, R281);
it is counted, and the next row is taken in hand. -/
def effBltRow (s : State) : State :=
  match s.blt.desc with
  | none => s
  | some d =>
    let s := match s.bltRowNow d with
      | some r => if bltDstMem d = 0 && (s.bltMissing d r).isEmpty then s.bltDoRow d r else s
      | none => s
    if !s.blt.written || s.writing .blitter then s
    else
      let r := ({ s with blt := { s.blt with written := false } }).bltRowDone d
      if r.2 then r.1.bltHand d else r.1

def execBltRowComplete (s : State) : Host.Outcome State Fault Refusal := s.done (effBltRow s)

/-- DESCRIPTOR_COMPLETE (R233). -/
def effBltComplete (s : State) : State :=
  match s.blt.desc with
  | none => s
  | some d =>
    if s.get F.bltRowsRows < bltHeight d then s
    else
      let r := if bltF d 0 6 1 = 1 then s.bltFence (bltF d 0x30 0 10) (bltF d 0x30 16 16) else (s, true)
      if !r.2 then r.1
      else
        let s := r.1
        let s := if bltF d 0 7 1 = 1 then s.raise F.bltEventBltDone 617 else s
        let s := { s.put F.bltStatusBusy 0 with blt := s.blt.drop }
        s.bltHead ((s.get F.bltHeadidxIndex + 1) % s.bltRing)

def execBltDescriptorComplete (s : State) : Host.Outcome State Fault Refusal := s.done (effBltComplete s)

/-! ## Host accesses that end (R278, R281) -/

/-- A CXL.cache read of the blitter ends: kind 0 with data, else BLT_E_BUS. -/
def State.bltArrive (s : State) (r : CxlRead) (kind : Nat) (data : List Nat) : State :=
  if r.key.1 != s.blt.gen then s
  else if kind != 0 then s.bltHalt 7 (some (r.addr, false))
  else
    let s := { s with blt := { s.blt with got := s.blt.got ++ [(r.addr / 64, data)] } }
    match s.blt.desc with
    | some d => s.bltHand d
    | none => if s.bltReady then s.bltTake data else { s with blt := s.blt.drop }

/-- A CXL.cache write of the blitter ends with an error. -/
def State.bltWriteFail (s : State) (a : Nat) : State := if s.blt.desc.isSome then s.bltHalt 7 (some (a, true)) else s.cxlRderr none 2 a

/-! ## BLT.CTL (R236) -/

/-- HALTED and ERRCODE clear. -/
def State.bltUnhalt (s : State) : State := (s.put F.bltStatusHalted 0).put F.bltStatusErrcode 0

/-- A write to BLT.CTL: EN and RINGMEM are stored, RINGSZ only while the ring is empty; RESUME, SKIP and RESET act. -/
def effBltCtl (value : Word) (s : State) : State :=
  let sz := s.get F.bltCtlRingsz
  let empty := s.get F.bltHeadidxIndex == s.get F.bltTailidxIndex
  let s := s.store Reg.bltCtl value
  let s := if empty then s else s.put F.bltCtlRingsz sz
  if bit value.toNat 3 then
    let s := (s.bltUnhalt.put F.bltRowsRows 0).put F.bltStatusBusy 0
    let s := { s with blt := s.blt.drop }
    if empty then s else s.bltHead (s.get F.bltTailidxIndex)
  else if !s.flag F.bltStatusHalted then s
  else if bit value.toNat 2 then s.bltUnhalt.bltHead ((s.get F.bltHeadidxIndex + 1) % s.bltRing)
  else if bit value.toNat 1 then s.bltUnhalt
  else s

def execBltResume (agent : Nat) (value : Word) (s : State) : Host.Outcome State Fault Refusal :=
  s.done (s.guardWrite agent Reg.bltCtl (effBltCtl value))

def execBltSkip (agent : Nat) (value : Word) (s : State) : Host.Outcome State Fault Refusal :=
  s.done (s.guardWrite agent Reg.bltCtl (effBltCtl value))

def execBltReset (agent : Nat) (value : Word) (s : State) : Host.Outcome State Fault Refusal :=
  s.done (s.guardWrite agent Reg.bltCtl (effBltCtl value))

end Sys2Proof.Machine
end

