-- ==== Sys2Proof/Machine/Clock.lean ====
section
/-! DEFINITION. Clocks (R57 to R66): the synthesizers, SYNCIN, the fallback path, clock Dusk and RESTORE. -/

namespace Sys2Proof.Machine

/-- The lock bit of synthesizer `m` in CLK.STATUS. -/
def htbLock (m : Nat) : Fld := if m = 0 then F.clkStatusHtbaLock else F.clkStatusHtbbLock

/-- The modulator of synthesizer `m` loads CLK.HDITHER.SEED (R58). -/
def State.loadSeed (s : State) (m : Nat) : State :=
  { s with clk := { s.clk with seed := s.clk.seed.set m (s.get F.clkHditherSeed) } }

/-- HTB_CFG_WRITE (R57, R58): CFG, or FRAC when `frac`. A changed value re-times the heads that select the synthesizer.
DEDUCED, log entry 38. -/
def effHtbCfg (m : Nat) (frac : Bool) (value : Word) (s : State) : State :=
  if 2 ≤ m then s
  else
    let off := if frac then Reg.clkHtbFrac m else Reg.clkHtbCfg m
    let int := wf value 0 6
    if !frac && (int < 24 || 40 < int) then s
    else
      let was := s.flag (F.clkHtbCfgEn m)
      let s' := s.store off value
      if s'.rd off = s.rd off then s
      else
        let s' := s'.retimeSynth s.now m
        let en := s'.flag (F.clkHtbCfgEn m)
        if en && !was then s'.loadSeed m else if was && !en then s'.put (htbLock m) 0 else s'

def execHtbCfgWrite (agent m : Nat) (frac : Bool) (value : Word) (s : State) : Host.Outcome State Fault Refusal :=
  s.done (s.guardWrite agent (if frac then Reg.clkHtbFrac m else Reg.clkHtbCfg m) (effHtbCfg m frac value))

/-- SYNCIN_ARM: a write to CLK.SYNCIN; ARM written with 1 arms one action (R60). -/
def effSyncinArm (value : Word) (s : State) : State :=
  let s := s.store Reg.clkSyncin value
  if bit value.toNat 0 then s.put F.clkSyncinArm 1 else s

def execSyncinArm (agent : Nat) (value : Word) (s : State) : Host.Outcome State Fault Refusal :=
  s.done (s.guardWrite agent Reg.clkSyncin (effSyncinArm value))

/-- The divider target `n` is reset (R60, R61): synthesizers 0 and 1 with their heads re-timed and their seeds loaded; the MDLL
dividers only before the first tick of Dawn. -/
def State.syncTarget (s : State) (n : Nat) : State :=
  if n = 2 && s.time.ticked then s.put F.clkSyncinIgnored 1
  else
    let s := if n < 2 then (s.retimeSynth s.now n).loadSeed n else s
    { s with clk := { s.clk with divReset := s.clk.divReset.set n (some s.time.uptime) } }

/-- SYNCIN_EDGE (R60): sampled by the 100 MHz reference. -/
def effSyncinEdge (s : State) : State :=
  if !s.flag F.clkStatusRef100 then s
  else
    let s := s.bump F.clkSyncinCount
    if !s.flag F.clkSyncinArm then s
    else
      let t := s.get F.clkSyncinTarget
      ((List.range 3).filter (bit t)).foldl State.syncTarget (s.put F.clkSyncinArm 0)

def execSyncinEdge (s : State) : Host.Outcome State Fault Refusal := s.done (effSyncinEdge s)

/-! ## Fallback (R62, R63) -/

/-- The source of the fallback path: `some true` is edge combining, `some false` the alternate reference, none where no clock
survives (R63). DEDUCED, log entry 37. -/
def State.fallbackSource (s : State) : Option Bool :=
  let alt := s.flag F.clkStatusRef400
  let edge := s.flag F.clkStatusRef100
  match s.get F.clkCtlFbsrc with
  | 1 => if alt then some false else none
  | 2 => if edge then some true else none
  | _ => if alt then some false else if edge then some true else none

/-- The fallback path's source follows FBSRC and the references present. A path without a source leaves the compose and system clocks
standing; DEVTIME goes on from the reference that survives (R64), and no clock is left where neither does (R63), so that the lanes stop (R357).
DEDUCED, log entry 37. -/
def State.pickFallback (s : State) : State :=
  let dead := !s.flag F.clkStatusRef100 && !s.flag F.clkStatusRef400
  let s := if dead then (List.range 16).foldl State.cutLane s else s
  { (s.put F.clkStatusFbEdge (ofBool (s.fallbackSource == some true))) with
    clk := { s.clk with dead := dead, stalled := s.fallbackSource.isNone } }

/-- The clocks switch to the fallback path, CLK_FALLBACK, and Dusk (R62). -/
def State.toFallback (s : State) : State :=
  let was := s.flag F.clkStatusFallback
  let s := (s.put F.clkStatusFallback 1).pickFallback
  let s := if was then s else s.signal 946
  s.enterDusk F.pwrStatusDuskClk

/-- MDLL_UNLOCK (R62). -/
def effMdllUnlock (system : Bool) (s : State) : State :=
  (s.put (if system then F.clkStatusSmdllLock else F.clkStatusCmdllLock) 0).toFallback

def execMdllUnlock (system : Bool) (s : State) : Host.Outcome State Fault Refusal := s.done (effMdllUnlock system s)

/-- REF_LOST (R62). -/
def effRefLost (s : State) : State := ((s.put F.clkStatusRef100 0).signal 948).toFallback

def execRefLost (s : State) : Host.Outcome State Fault Refusal := s.done (effRefLost s)

/-- HTB_UNLOCK (R65): a synthesizer that is not locked has no lock to lose. -/
def effHtbUnlock (m : Nat) (s : State) : State :=
  if 2 ≤ m || !s.flag (htbLock m) then s
  else ((s.put (htbLock m) 0).signal 947).enterDusk F.pwrStatusDuskClk

def execHtbUnlock (m : Nat) (s : State) : Host.Outcome State Fault Refusal := s.done (effHtbUnlock m s)

/-- CLOCK_LOCK_REGAINED (R63, R66): CLK.STATUS follows; a disabled synthesizer reads unlocked. -/
def effClockLock (which : Nat) (s : State) : State :=
  let s := match which with
    | 0 => s.put F.clkStatusRef100 1
    | 1 => s.put F.clkStatusRef400 1
    | 2 => s.put F.clkStatusCmdllLock 1
    | 3 => s.put F.clkStatusSmdllLock 1
    | 4 => if s.flag (F.clkHtbCfgEn 0) then s.put F.clkStatusHtbaLock 1 else s
    | 5 => if s.flag (F.clkHtbCfgEn 1) then s.put F.clkStatusHtbbLock 1 else s
    | _ => s
  if which < 2 && s.flag F.clkStatusFallback then s.pickFallback else s

def execClockLockRegained (which : Nat) (s : State) : Host.Outcome State Fault Refusal := s.done (effClockLock which s)

/-- The conditions of RESTORE (R66). -/
def State.clocksGood (s : State) : Bool :=
  s.flag F.clkStatusRef100 && s.flag F.clkStatusCmdllLock && s.flag F.clkStatusSmdllLock &&
    (List.range 2).all fun m => !s.flag (F.clkHtbCfgEn m) || s.flag (htbLock m)

/-- RESTORE (R66): a write to CLK.CTL; FBSRC is stored, and RESTORE written with 1 ends a clock Dusk. -/
def effRestore (value : Word) (s : State) : State :=
  let s := s.store Reg.clkCtl value
  let s := if s.flag F.clkStatusFallback then s.pickFallback else s
  if bit value.toNat 2 && s.flag F.pwrStatusDuskClk && s.clocksGood then
    let s := (s.put F.clkStatusFallback 0).put F.clkStatusFbEdge 0
    ({ s with clk := { s.clk with dead := false, stalled := false } }).leaveDusk F.pwrStatusDuskClk
  else s

def execRestore (agent : Nat) (value : Word) (s : State) : Host.Outcome State Fault Refusal :=
  s.done (s.guardWrite agent Reg.clkCtl (effRestore value))

end Sys2Proof.Machine
end

