-- ==== Sys2Proof/Machine/PoseIn.lean ====
section
/-! DEFINITION. Pose input (R204 to R211): Ethernet datagrams, serial ports, acceptance, sequence. -/

namespace Sys2Proof.Machine

/-- POSE.STAT.SOURCE with one of its event bits, and the signal (R220). -/
def State.poseSrcEvent (s : State) (f : Fld) (src sig : Nat) : State := (s.put F.poseStatSource src).raise f sig

/-- A record, or a unit, is counted as malformed against a source (R205). -/
def State.poseMalformed (s : State) (src : Nat) : State :=
  (s.bump (F.poseSrcBadMalf src)).poseSrcEvent F.poseStatPoseMalformed src 841

/-- Accepted records that a later latch can still select once one stamped `stamp` is accepted: those stamped below it, which after a
backward step a latch may lie before (R201, R202). DEDUCED, log entry 69. -/
def keepRecs (stamp : Nat) (rs : List PoseRec) : List PoseRec := rs.filter fun r => r.stamp < stamp

/-- A record enters a source's accepted history. DEDUCED, log entry 69. -/
def State.poseHistory (s : State) (src : Nat) (r : List Nat) (stamp : Nat) : State :=
  let x := s.poseSrc src
  let rec' : PoseRec := ⟨r, stamp, s.pose.count + 1⟩
  let s := { s with pose := { s.pose with count := s.pose.count + 1 } }
  s.setPoseSrc src { x with recs := rec' :: keepRecs stamp x.recs }

/-- An accepted record (R211): the registers of its source, the history, echo and the mirror. A paired standby does not use its own
records (R428). -/
def State.poseAccept (s : State) (src : Nat) (r : List Nat) (stamp : Nat) : State :=
  let s := (s.put (F.poseSrcStatSeq src) (recSeq r)).put (F.poseSrcStatValid src) 1
  let s := (s.bump (F.poseSrcCountAccept src)).wr64 (Reg.poseSrcStampLo src) stamp
  let s := (List.range 16).foldl (fun s k => s.put (F.poseSrcLastData src k) (recField r (4 * k) 4)) s
  let s := s.setPoseSrc src { s.poseSrc src with oosRun := 0 }
  let s := if s.standby then s else s.poseHistory src r stamp
  (s.poseEcho src r stamp).forward 6 ([src] ++ r ++ [stamp])

/-- One record for an enabled source (R205, R211). -/
def State.poseRecord (s : State) (src : Nat) (r : List Nat) (stamp : Nat) : State :=
  if !s.flag F.poseCtlEn || !s.flag (F.poseSrcCfgEn src) then s
  else if recMalformed r then s.poseMalformed src
  else
    let d := (recSeq r + 65536 - s.get (F.poseSrcStatSeq src)) % 65536
    let first := !s.flag (F.poseSrcStatValid src)
    let x := s.poseSrc src
    if first || bit (r.getD 1 0) 0 || (1 ≤ d && d ≤ 0x7FFF) then s.poseAccept src r stamp
    else if x.oosRun = 16 then
      ((s.bump (F.poseSrcBadResync src)).poseSrcEvent F.poseStatPoseSeq src 840).poseAccept src r stamp
    else
      let s := s.setPoseSrc src { x with oosRun := x.oosRun + 1 }
      (s.bump (F.poseSrcCountOos src)).poseSrcEvent F.poseStatPoseSeq src 840

/-- A record of a datagram (R205, R207). -/
def State.poseNetRecord (s : State) (srcIp stamp : Nat) (r : List Nat) : State :=
  let src := r.getD 0 0
  if 63 < src then (if s.flag F.poseCtlEn then s.poseMalformed 0 else s)
  else if !s.flag F.poseCtlEn || !s.flag (F.poseSrcCfgEn src) then s
  else if s.flag (F.poseSrcCfgIpf src) && s.get (F.poseSrcIpaddrAddr src) != srcIp then s.poseMalformed src
  else s.poseRecord src r stamp

/-- Units of 64 bytes. -/
def units64 (bs : List Nat) : List (List Nat) := (List.range (bs.length / 64)).map fun i => (bs.drop (64 * i)).take 64

/-- A pose datagram's payload (R207). -/
def State.posePayload (s : State) (srcIp stamp : Nat) (bs : List Nat) : State :=
  let n := bs.length / 64
  if bs.length % 64 ≠ 0 ∨ n = 0 ∨ 16 < n then
    if s.flag F.poseCtlEn then (List.range n).foldl (fun s _ => s.poseMalformed 0) s else s
  else (units64 bs).foldl (fun s r => s.poseNetRecord srcIp stamp r) s

/-- A datagram is a pose datagram (R207). -/
def State.isPose (s : State) (port dport : Nat) : Bool :=
  dport == s.get F.poseNetcfgUdpport && bit (s.get F.poseNetcfgPorts) port && portExists (s.get F.netCfgMode) port

/-- Records of one arrival stamp are taken in the order of R210: Ethernet ports 0 to 7 have `place` 0 to 7, serial ports 8 to 15. An
arrival that comes after one of a later place has a later stamp. DESIGN CHOICE, log entry 146. -/
def State.poseTurn (place : Nat) (s : State) : State :=
  let s := if s.pose.turn.1 == s.now && place < s.pose.turn.2 then s.elapse 1 else s
  { s with pose := { s.pose with turn := (s.now, place) } }

/-- A pose datagram of a port, stamped and taken (R207, R210). -/
def State.poseNet (s : State) (port srcIp : Nat) (bs : List Nat) : State :=
  let s := s.poseTurn port
  s.posePayload srcIp s.now bs

/-- POSE_DATAGRAM: a datagram that has passed ingest. -/
def effPoseDatagram (port srcIp dport : Nat) (bs : List Nat) (s : State) : State :=
  if s.isPose port dport && s.domOn 77 then s.poseNet port srcIp bs else s

def execPoseDatagram (port srcIp dport : Nat) (payload : List Byte) (s : State) : Host.Outcome State Fault Refusal :=
  s.done (effPoseDatagram port srcIp dport (payload.map BitVec.toNat) s)

/-! ## Serial ports (R208, R209) -/

/-- Bit-time of serial port n in ns. DESIGN CHOICE, log entry 72. -/
def State.serBit (s : State) (n : Nat) : Nat := 10 * max 8 (s.get (F.poseSerCfgDiv n))

/-- Serial port n receives. -/
def State.serOn (s : State) (n : Nat) : Bool := n < 8 && s.flag (F.poseSerCfgEn n) && s.domOn 77

/-- SERIAL_ERR. -/
def State.serialErr (s : State) (n : Nat) : State := (s.bump (F.poseSerStatFramerr n)).signal (829 + n)

/-- A frame held by a reorder on port n is accepted with a stamp (R455). -/
def State.serialHeld (s : State) (n stamp : Nat) : State :=
  match s.finj.held.find? fun h => h.1 == 28 + n with
  | some (k, _, .serialPoseFrame _ _ bytes _) =>
    ({ s with finj := { s.finj with held := s.finj.held.filter fun h => h.1 != k } }).poseRecord (64 + n)
      (bytes.map BitVec.toNat) stamp
  | _ => s

/-- A whole serial frame, with the injector's fault (R455). -/
def State.serialFrame (s : State) (n : Nat) (r : List Nat) : State :=
  let (s, inj) := s.inject (28 + n)
  match inj with
  | some (0, _) => s
  | some (1, v) => (s.poseRecord (64 + n) (flipBit r (v % 512)) s.now).serialHeld n s.now
  | some (2, _) => s.bump (F.poseSerStatSyncloss n) 66
  | some (_, _) =>
    { s.serialHeld n s.now with finj := { (s.serialHeld n s.now).finj with
      held := (s.serialHeld n s.now).finj.held ++ [(28 + n, s.now, .serialPoseFrame n [] (r.map (BitVec.ofNat 8)) false)] } }
  | none => (s.poseRecord (64 + n) r s.now).serialHeld n s.now

/-- Characters of the frame that port n has begun, sync bytes included. -/
def State.serPart (s : State) (n : Nat) : List Nat := Tbl.get (fun _ => []) s.pose.partRx n

def State.setSerPart (s : State) (n : Nat) (x : List Nat) : State :=
  { s with pose := { s.pose with partRx := Tbl.set (fun _ => []) s.pose.partRx n x } }

/-- One more character: the frame begun so far, and the bytes discarded by the hunt for 0xA5 0x5A (R208). -/
def huntSync (got : List Nat) (c : Nat) : List Nat × Nat :=
  match got with
  | [] => if c = 0xA5 then ([0xA5], 0) else ([], 1)
  | [_] => if c = 0x5A then ([0xA5, 0x5A], 0) else if c = 0xA5 then ([0xA5], 1) else ([], 2)
  | _ => (got ++ [c], 0)

/-- One character with a good stop bit. -/
def State.serialChar (s : State) (n c : Nat) : State :=
  let x := huntSync (s.serPart n) c
  let s := s.bump (F.poseSerStatSyncloss n) x.2
  if x.1.length < 66 then s.setSerPart n x.1 else ((s.setSerPart n []).poseTurn (8 + n)).serialFrame n (x.1.drop 2)

/-- A character whose stop bit is low ends the frame begun; with none begun its byte is discarded. DESIGN CHOICE, log entry 72. -/
def State.serialBad (s : State) (n : Nat) : State :=
  if (s.serPart n).isEmpty then s.bump (F.poseSerStatSyncloss n) else (s.setSerPart n []).serialErr n

/-- uptime at which sixteen bit-times without a character of port n have passed. -/
def State.serDue (s : State) (n : Nat) : Nat := Tbl.get (fun _ => 0) s.pose.serAt n + 16 * s.serBit n

/-- The frame that port n has begun is discarded, with none of its characters to come in time. -/
def State.serialLost (s : State) (n : Nat) : State := (s.setSerPart n []).serialErr n

/-- The bits of a character, the stop bit last: each is what two of its three centre samples say (R475). -/
def decidedBits (c : LineChar) : BitVec 9 := (c.first &&& c.mid) ||| (c.mid &&& c.last) ||| (c.first &&& c.last)

/-- Characters with good stop bits, but for the last one's with `stopLow`. -/
def framed (stopLow : Bool) : List Byte → List (BitVec 9)
  | [] => []
  | [c] => [BitVec.ofBool (!stopLow) ++ c]
  | c :: cs => (1#1 ++ c) :: framed stopLow cs

/-- One character of port n, by its stop bit. -/
def State.serialTake (s : State) (n : Nat) (c : BitVec 9) : State :=
  if c.getLsbD 8 then s.serialChar n (c.toNat % 256) else s.serialBad n

/-- SERIAL_POSE_FRAME: characters of port n that end now, ten bit-times each, one after the other; where more than sixteen bit-times lie
between them and the last one before, the frame begun is discarded first (R208). One begun before EN was cleared and set again goes on.
DESIGN CHOICE, log entries 72, 176, 180. -/
def effSerialFrame (n : Nat) (chars : List (BitVec 9)) (s : State) : State :=
  if !s.serOn n || chars.isEmpty then s
  else
    let s := if !(s.serPart n).isEmpty && s.serDue n + 10 * s.serBit n * chars.length < s.time.uptime then s.serialLost n else s
    let s := chars.foldl (fun s c => s.serialTake n c) s
    { s with pose := { s.pose with serAt := Tbl.set (fun _ => 0) s.pose.serAt n s.time.uptime } }

def execSerialPoseFrame (port : Nat) (sampled : List LineChar) (bytes : List Byte) (stopLow : Bool) (s : State) :
    Host.Outcome State Fault Refusal := s.done (effSerialFrame port (sampled.map decidedBits ++ framed stopLow bytes) s)

/-- SERIAL_CHAR_TIMEOUT: sixteen bit-times have passed since the last character inside a frame. -/
def effSerialTimeout (n : Nat) (s : State) : State :=
  if !s.serOn n || (s.serPart n).isEmpty then s
  else (s.elapse (s.serDue n - s.time.uptime)).serialLost n

def execSerialCharTimeout (port : Nat) (s : State) : Host.Outcome State Fault Refusal := s.done (effSerialTimeout port s)

/-- Port n's last poll: the uptime of its start, and the uptime at which a half-duplex port has released its pair (R209). -/
def State.serPoll (s : State) (n : Nat) : Nat × Nat := Tbl.get (fun _ => (0, 0)) s.pose.polls n

/-- Port n drives the pair it sends on: with DUPLEX = 1 only while it sends a poll (R209). -/
def State.serDrives (s : State) (n : Nat) : Bool :=
  s.serOn n && (!s.flag (F.poseSerCfgDuplex n) || s.time.uptime < (s.serPoll n).2)

/-- Time to the next poll of port n: POLLIV µs after the last one. A POLLIV of 0 acts as 1. DESIGN CHOICE, log entry 147. -/
def State.pollWait (s : State) (n : Nat) : Nat :=
  (s.serPoll n).1 + 1000 * max 1 (s.get (F.poseSerCfgPolliv n)) - s.time.uptime

/-- SERIAL_POLL: the next poll's instant comes, and the two poll characters are sent. A half-duplex port releases its pair within one
bit-time after the second stop bit; when within it is a free value. DESIGN CHOICE, log entry 147. -/
def effSerialPoll (n : Nat) (s : State) : State :=
  if s.serOn n && s.flag (F.poseSerCfgPoll n) then
    let s := s.elapse (s.pollWait n)
    let off := s.time.uptime + 20 * s.serBit n + Config.freeNat s.fresh % (s.serBit n + 1)
    ({ s with pose := { s.pose with polls := Tbl.set (fun _ => (0, 0)) s.pose.polls n (s.time.uptime, off) } }.tick).emit
      (.serial n [0xA5, 0xC3])
  else s

def execSerialPoll (port : Nat) (s : State) : Host.Outcome State Fault Refusal := s.done (effSerialPoll port s)

/-- POSE_SOURCE_ENABLE: a write to POSE.SRC[i].CFG (R206). STAT.SEQ clears with the sequence state, STAMP and LAST keep what they show.
DESIGN CHOICE, log entry 175. -/
def effPoseEnable (i : Nat) (value : Word) (s : State) : State :=
  if 72 ≤ i then s
  else
    let was := s.flag (F.poseSrcCfgEn i)
    let s := s.store (Reg.poseSrcCfg i) value
    if !was && s.flag (F.poseSrcCfgEn i) then
      ((s.put (F.poseSrcStatValid i) 0).put (F.poseSrcStatSeq i) 0).setPoseSrc i PoseSrc.init
    else s

def execPoseSourceEnable (agent source : Nat) (value : Word) (s : State) : Host.Outcome State Fault Refusal :=
  s.done (s.guardWrite agent (Reg.poseSrcCfg source) (effPoseEnable source value))

end Sys2Proof.Machine
end

