-- ==== Sys2Proof/Machine/Dma.lean ====
section
/-! DEFINITION. The DMA engine (R285 to R295). -/

namespace Sys2Proof.Machine

def State.dmaCh (s : State) (c : Nat) : DmaCh := Tbl.get (fun _ => DmaCh.init) s.dma.chans c

def State.setDmaCh (s : State) (c : Nat) (x : DmaCh) : State :=
  { s with dma := { s.dma with chans := Tbl.set (fun _ => DmaCh.init) s.dma.chans c x } }

/-! ## A descriptor (R287) -/

def dmaOp (d : List Nat) : Nat := bltF d 0 0 2
def dmaSrcMem (d : List Nat) : Nat := bltF d 0 2 1
def dmaDstMem (d : List Nat) : Nat := bltF d 0 3 1
def dmaLen (d : List Nat) : Nat := recField d 4 4
def dmaSaddr (d : List Nat) : Nat := recField d 8 8
def dmaDaddr (d : List Nat) : Nat := recField d 0x10 8

/-- The error found before any access, or 0 (R287, R288, R292). -/
def dmaCheck (d : List Nat) : Nat :=
  let n := dmaLen d
  let reserved := bltF d 0 6 26 == 0 && (d.drop 0x24).take 24 == List.replicate 24 0
  if crc32c (d.take 60) != recField d 0x3C 4 then 1
  else if dmaOp d = 3 || !reserved || (dmaOp d != 2 && n == 0) then 2
  else if dmaOp d == 0 && dmaSrcMem d == dmaDstMem d && dmaSaddr d < dmaDaddr d + n && dmaDaddr d < dmaSaddr d + n then 3
  else 0

/-- 64-byte granules that hold a COPY's source bytes (R289). -/
def dmaGranules (d : List Nat) : Nat := (dmaSaddr d + dmaLen d - 1) / 64 - dmaSaddr d / 64 + 1

/-- Address of source granule i. -/
def dmaGranule (d : List Nat) (i : Nat) : Nat := (dmaSaddr d / 64 + i) * 64

/-- 64-byte granules that a descriptor's writes are made in: by source granule for a COPY, by destination granule for a FILL. -/
def dmaParts (d : List Nat) : Nat :=
  if dmaOp d = 0 then dmaGranules d
  else if dmaOp d = 1 then (dmaDaddr d + dmaLen d - 1) / 64 - dmaDaddr d / 64 + 1
  else 1

/-! ## Halts -/

/-- The engine is stopped for every channel: halted, or in reset. -/
def State.dmaStopped (s : State) : Bool := s.flag F.dmaStatusHalted || s.flag F.dmaCtlReset || !s.domOn 72

/-- Channel c has a descriptor in progress, or none: its BUSY bits. -/
def State.dmaBusy (s : State) (c : Nat) (b : Bool) : State :=
  (s.put (F.dmaChStatusBusy c) (ofBool b)).put ⟨Reg.dmaStatus, 16 + c, 1⟩ (ofBool b)

/-- The channel's descriptor is no longer in progress; its reads are discarded when they return. -/
def State.dmaDrop (s : State) (c : Nat) : State :=
  let s := (s.dmaBusy c false).setDmaCh c { s.dmaCh c with desc := none, begun := false, issued := 0, written := 0, flushed := none }
  { s with dma := { s.dma with reads := s.dma.reads.map fun r => if r.1 = c && r.2.2.2 < 4 then (r.1, r.2.1, r.2.2.1, r.2.2.2 + 4) else r } }

/-- Channel c halts at its descriptor (R292). -/
def State.dmaError (s : State) (c code : Nat) : State :=
  let s := (s.put (F.dmaChStatusHalted c) 1).put (F.dmaChStatusErrcode c) code
  (s.dmaDrop c).raise (F.dmaChEventDmaError c) (586 + 2 * c)

/-- A refusal by the protection map halts the channel (R289, R292). -/
def State.dmaProt (s : State) (c : Nat) (write : Bool) (a : Nat) : State :=
  (s.violation (s.dmaCh c).agent write 1 a).dmaError c 4

/-- Bytes of a range of local memory that hold undefined values, those apart that the agent's writes are refused (R128, R450). -/
def State.scramble (s : State) (agent a n : Nat) : State :=
  (List.range n).foldl (fun s i =>
    let b := (Config.freeByte s.fresh).toNat
    let s := s.tick
    if s.localDead (a + i) 1 || !s.granted agent true 0 (a + i) 1 then s else s.dramWrite (a + i) [b]) s

/-- The all-channel halt (R293). -/
def State.dmaHalt (s : State) (c cause : Nat) (write : Bool) (a : Nat) : State :=
  let s := (((s.put F.dmaStatusHalted 1).put F.dmaErrCh c).put F.dmaErrCause cause).put F.dmaErrDir (ofBool write)
  let s := (s.wr64 Reg.dmaErraddrLo a).raise (F.dmaChEventDmaHalted c) (586 + 2 * c)
  (List.range 16).foldl (fun s k =>
    match (s.dmaCh k).desc with
    | some d => if (s.dmaCh k).begun && dmaOp d != 2 && dmaDstMem d == 0 then s.scramble (s.dmaCh k).agent (dmaDaddr d) (dmaLen d) else s
    | none => s) s

/-- An access of channel c to local memory, or one to host memory that the IOMMU confines (R450): granted. -/
def State.dmaGranted (s : State) (c : Nat) (write : Bool) (space a n : Nat) : Bool :=
  space == 1 || s.granted (s.dmaCh c).agent write 0 a n

/-! ## Rings -/

/-- Entries of a channel's ring. -/
def State.dmaRing (s : State) (c : Nat) : Nat :=
  let z := s.get (F.dmaChCfgRingsz c)
  2 ^ (if 4 ≤ z ∧ z ≤ 12 then z else 4)

/-- HEADIDX moves to `i`; DMA_IDLE when the ring is empty. -/
def State.dmaHead (s : State) (c i : Nat) : State :=
  let s := s.put (F.dmaChHeadidxIndex c) i
  if s.get (F.dmaChHeadidxIndex c) = s.get (F.dmaChTailidxIndex c) then s.raise (F.dmaChEventDmaIdle c) (585 + 2 * c) else s

/-- A read of `n` bytes of host memory by channel c, carrying the function of CFG.FUNC (R286). -/
def State.dmaAsk (s : State) (c kind a n : Nat) : State :=
  let tag := s.cxl.tag
  let s := { s with
    dma := { s.dma with reads := s.dma.reads ++ [(c, a, tag, kind)] }
    cxl := { s.cxl with tag := tag + 1 } }
  if kind = 0 then s else s.sendHost (.ioRead tag (s.get (F.dmaChCfgFunc c)) a n)

/-- Channel c may start the descriptor at HEADIDX (R285). -/
def State.dmaReady (s : State) (c : Nat) : Bool :=
  c < 16 && !s.dmaStopped && s.takesWork && s.flag (F.dmaChCfgEn c) && !s.flag (F.dmaChStatusHalted c) && (s.dmaCh c).desc.isNone &&
    s.get (F.dmaChHeadidxIndex c) != s.get (F.dmaChTailidxIndex c)

/-- Address of the descriptor at HEADIDX. -/
def State.dmaSlot (s : State) (c : Nat) : Nat := s.rd64 (Reg.dmaChRingLo c) + 64 * s.get (F.dmaChHeadidxIndex c)

/-- A descriptor that has been read is checked and started. -/
def State.dmaTake (s : State) (c : Nat) (d : List Nat) : State :=
  match dmaCheck d with
  | 0 => (s.dmaBusy c true).setDmaCh c { s.dmaCh c with desc := some d, begun := false, issued := 0, written := 0, flushed := none }
  | e => s.dmaError c e

/-- DMA_DESCRIPTOR_START (R285): the descriptor is read; one in host memory starts when its data comes (R286). -/
def effDmaStart (c : Nat) (s : State) : State :=
  if !s.dmaReady c then s
  else
    let a := s.dmaSlot c
    if s.flag (F.dmaChCfgRingmem c) then
      if 64 ≤ s.dma.reads.length || s.dma.reads.any (fun r => r.1 == c && r.2.2.2 == 1) then s else s.dmaAsk c 1 a 64
    else if !s.dmaGranted c false 0 a 64 then s.dmaProt c false a
    else if s.localDead a 64 then s.dmaHalt c (if s.frozen then 4 else 3) false a
    else (s.useLocal 30 a 64).dmaTake c (s.dramRead a 64)

def execDmaDescriptorStart (ch : Nat) (s : State) : Host.Outcome State Fault Refusal := s.done (effDmaStart ch s)

/-! ## Writes -/

/-- Bytes of channel c written at `a`, granule by granule in ascending order; none where something halts it. -/
def State.dmaWrite (s : State) (c space a : Nat) (bs : List Nat) : State × Bool :=
  (pieces a bs.length).foldl (fun (r : State × Bool) p =>
    let x := (bs.drop (p.1 - a)).take p.2
    if !r.2 then r
    else if !r.1.dmaGranted c true space p.1 p.2 then (r.1.dmaProt c true p.1, false)
    else if space = 1 then (r.1.ioWrite (r.1.get (F.dmaChCfgFunc c)) p.1 x, true)
    else if r.1.frozen then (r.1.dmaHalt c 4 true p.1, false)
    else (r.1.localStore 30 p.1 x, true)) (s, true)

/-- One more of the descriptor's parts is written, unless something halted the channel. -/
def State.dmaWrote (s : State) (c : Nat) (r : State × Bool) : State :=
  if r.2 then r.1.setDmaCh c { r.1.dmaCh c with written := (s.dmaCh c).written + 1 } else r.1

/-! ## The channels in turn (R289, R290) -/

/-- The zero-length read that follows a descriptor's writes to host memory is due (R281). -/
def State.dmaFlushDue (s : State) (c : Nat) (d : List Nat) : Bool :=
  dmaOp d != 2 && dmaDstMem d == 1 && (s.dmaCh c).written == dmaParts d && (s.dmaCh c).flushed.isNone && decide (s.dma.reads.length < 64)

/-- Channel c has a granule to read, to fill, or its zero-length read to issue. -/
def State.dmaWants (s : State) (c : Nat) : Bool :=
  match (s.dmaCh c).desc with
  | some d => (s.dmaCh c).begun &&
    (s.dmaFlushDue c d || (dmaOp d == 0 && (s.dmaCh c).issued < dmaGranules d && decide (s.dma.reads.length < 64)) ||
      (dmaOp d == 1 && (s.dmaCh c).written < dmaParts d))
  | none => false

/-- The channel that goes next: the one whose turn it is while granules of its turn are left, else the next in turn.
DEDUCED, log entry 89. -/
def State.dmaNext (s : State) : Option (Nat × Nat) :=
  if s.dmaWants s.dma.turn && s.dma.left != 0 then some (s.dma.turn, s.dma.left)
  else
    (((List.range 16).map fun i => (s.dma.turn + 1 + i) % 16).find? s.dmaWants).map fun c =>
      let w := s.get (F.dmaChCfgWeight c)
      (c, if w = 0 then 16 else w)

/-- A COPY's next granule is read. -/
def State.dmaReadNext (s : State) (c : Nat) (d : List Nat) : State :=
  let x := s.dmaCh c
  let a := dmaGranule d x.issued
  if !s.dmaGranted c false (dmaSrcMem d) a 64 then s.dmaProt c false a
  else
    let s := s.setDmaCh c { x with issued := x.issued + 1 }
    if dmaSrcMem d = 1 then s.dmaAsk c 3 a 64 else (s.dmaAsk c 0 a 64).useLocal 30 a 64

/-- A FILL's next granule is written (R287). -/
def State.dmaFillNext (s : State) (c : Nat) (d : List Nat) : State :=
  let g := (dmaDaddr d / 64 + (s.dmaCh c).written) * 64
  let lo := max g (dmaDaddr d)
  let n := min (g + 64) (dmaDaddr d + dmaLen d) - lo
  s.dmaWrote c (s.dmaWrite c (dmaDstMem d) lo ((List.range n).map fun i => d.getD (0x18 + (lo - dmaDaddr d + i) % 8) 0))

/-- Channel c takes its turn at one granule. -/
def State.dmaTurn (s : State) (c : Nat) : State :=
  match (s.dmaCh c).desc with
  | none => s
  | some d =>
    if s.dmaFlushDue c d then
      (s.setDmaCh c { s.dmaCh c with flushed := some false }).dmaAsk c 2 (dmaDaddr d + dmaLen d - 1) 0
    else if dmaOp d = 1 then s.dmaFillNext c d
    else s.dmaReadNext c d

/-- The channels go in turn while one wants to, `n` times at most. -/
def State.dmaIssue (s : State) : Nat → State
  | 0 => s
  | n + 1 =>
    if s.dmaStopped then s
    else match s.dmaNext with
    | none => s
    | some (c, left) => ({ s with dma := { s.dma with turn := c, left := left - 1 } }.dmaTurn c).dmaIssue n

/-- Turns that suffice: every granule still to read or fill, and every zero-length read. -/
def State.dmaRest (s : State) : Nat :=
  (List.range 16).foldl (fun n c => n + match (s.dmaCh c).desc with | some d => dmaParts d + 1 | none => 0) 0

/-- The channels go on. -/
def State.dmaGo (s : State) : State := s.dmaIssue s.dmaRest

/-- The operation `op` of channel c's descriptor begins. -/
def effDmaBegin (op c : Nat) (s : State) : State :=
  match (s.dmaCh c).desc with
  | none => s
  | some d =>
    if s.dmaStopped || dmaOp d != op || (s.dmaCh c).begun then s
    else (s.setDmaCh c { s.dmaCh c with begun := true, written := if op = 2 then 1 else 0 }).dmaGo

/-- DMA_COPY: reads are issued in turn. -/
def execDmaCopy (ch : Nat) (s : State) : Host.Outcome State Fault Refusal := s.done (effDmaBegin 0 ch s)

/-- DMA_FILL: the pattern is written in turn. -/
def execDmaFill (ch : Nat) (s : State) : Host.Outcome State Fault Refusal := s.done (effDmaBegin 1 ch s)

/-- DMA_NOP: nothing moves. -/
def execDmaNop (ch : Nat) (s : State) : Host.Outcome State Fault Refusal := s.done (effDmaBegin 2 ch s)

/-! ## Reads that return -/

/-- The bytes of a returned granule that the transfer takes are written on. -/
def State.dmaLand (s : State) (c a : Nat) (d data : List Nat) : State :=
  let lo := max a (dmaSaddr d)
  let hi := min (a + 64) (dmaSaddr d + dmaLen d)
  let bs := (data.drop (lo - a)).take (hi - lo)
  s.dmaWrote c (s.dmaWrite c (dmaDstMem d) (dmaDaddr d + (lo - dmaSaddr d)) bs)

/-- What a read of channel c that ended well brings. -/
def State.dmaBring (s : State) (c a kind : Nat) (data : List Nat) : State :=
  let bs := (data ++ List.replicate (64 - data.length) 0).take 64
  match kind, (s.dmaCh c).desc with
  | 0, some d => s.dmaLand c a d (s.dramRead a 64)
  | 3, some d => s.dmaLand c a d bs
  | 1, none => if s.dmaReady c && s.dmaSlot c == a then s.dmaTake c bs else s
  | 2, some _ => s.setDmaCh c { s.dmaCh c with flushed := some true }
  | _, _ => s

/-- A read ends: status 0 with data, else the bus error of that cause; local memory supplies its own data. -/
def State.dmaReadEnd (s : State) (r : Nat × Nat × Nat × Nat) (status : Nat) (data : List Nat) : State :=
  let c := r.1
  let a := r.2.1
  let kind := r.2.2.2
  let s := { s with dma := { s.dma with reads := s.dma.reads.filter fun x => x.2.2.1 != r.2.2.1 } }
  if s.dmaStopped then s
  else
    let st := if kind % 4 = 0 then (if s.frozen then 4 else if s.localDead a 64 then 3 else 0) else status
    if st != 0 then s.dmaHalt c st false a else (s.dmaBring c a kind data).dmaGo

/-- DMA_READ_COMPLETION: the channel's oldest outstanding read returns; a host one only in L0 (R272). DEDUCED, log entry 89. -/
def effDmaCompletion (c status : Nat) (data : List Nat) (s : State) : State :=
  match s.dma.reads.find? fun r => r.1 == c with
  | none => s
  | some r =>
    if (r.2.2.2 % 4 != 0 && !s.flag F.cxlLinkL0) || 5 < status then s else s.dmaReadEnd r status data

def execDmaReadCompletion (ch status : Nat) (data : List Byte) (s : State) : Host.Outcome State Fault Refusal :=
  s.done (effDmaCompletion ch status (data.map BitVec.toNat) s)

/-! ## Completion (R291) -/

/-- Every write of the channel's descriptor is visible (R281). -/
def State.dmaDone (s : State) (c : Nat) (d : List Nat) : Bool :=
  (s.dmaCh c).begun && (s.dmaCh c).written == dmaParts d && (dmaOp d == 2 || dmaDstMem d == 0 || (s.dmaCh c).flushed == some true)

/-- The DFENCE signal, with the channel's rights; false where they refuse it. DEDUCED, log entry 90. -/
def State.dmaFence (s : State) (c : Nat) (d : List Nat) : State × Bool :=
  let n := bltF d 0x20 0 10
  if bltF d 0 5 1 = 0 then (s, true)
  else if !s.mayAccess (s.dmaCh c).agent true (Reg.layerFence n) then
    ((s.violation (s.dmaCh c).agent true 0 (Reg.layerFence n)).dmaError c 4, false)
  else if s.standby then (s.localWrite, true)
  else (effFence n (BitVec.ofNat 32 (bltF d 0x20 16 16)) s, true)

/-- DMA_DESCRIPTOR_COMPLETE. -/
def effDmaComplete (c : Nat) (s : State) : State :=
  match (s.dmaCh c).desc with
  | none => s
  | some d =>
    if s.dmaStopped || !s.dmaDone c d then s
    else
      let r := s.dmaFence c d
      if !r.2 then r.1
      else
        let s := r.1
        let s := if bltF d 0 4 1 = 1 then s.raise (F.dmaChEventDmaDone c) (585 + 2 * c) else s
        let s := (s.bump (F.dmaChDonecntCount c)).dmaDrop c
        s.dmaHead c ((s.get (F.dmaChHeadidxIndex c) + 1) % s.dmaRing c)

def execDmaDescriptorComplete (ch : Nat) (s : State) : Host.Outcome State Fault Refusal := s.done (effDmaComplete ch s)

/-- DMA_HALTED: a bus error on an access of a channel with a descriptor in progress, or a read outstanding. -/
def effDmaHalted (c cause : Nat) (write : Bool) (a : Nat) (s : State) : State :=
  if s.dmaStopped || cause = 0 || 5 < cause || ((s.dmaCh c).desc.isNone && s.dma.reads.all fun r => r.1 != c) then s
  else s.dmaHalt c cause write a

def execDmaHalted (ch cause : Nat) (write : Bool) (addr : Nat) (s : State) : Host.Outcome State Fault Refusal :=
  s.done (effDmaHalted ch cause write addr s)

/-! ## CFG and CTL (R292, R294) -/

/-- A write to DMA.CH[c].CFG. -/
def effDmaCfg (c : Nat) (value : Word) (s : State) : State :=
  if 16 ≤ c then s
  else
    let sz := s.get (F.dmaChCfgRingsz c)
    let s := s.store (Reg.dmaChCfg c) value
    let s := if s.get (F.dmaChHeadidxIndex c) = s.get (F.dmaChTailidxIndex c) then s else s.put (F.dmaChCfgRingsz c) sz
    if !s.flag (F.dmaChStatusHalted c) || !(bit value.toNat 2 || bit value.toNat 3) then s
    else
      let s := (s.put (F.dmaChStatusHalted c) 0).put (F.dmaChStatusErrcode c) 0
      if bit value.toNat 3 then s.dmaHead c ((s.get (F.dmaChHeadidxIndex c) + 1) % s.dmaRing c) else s

def execDmaResume (agent ch : Nat) (value : Word) (s : State) : Host.Outcome State Fault Refusal :=
  s.done (s.guardWrite agent (Reg.dmaChCfg ch) (effDmaCfg ch value))

def execDmaSkip (agent ch : Nat) (value : Word) (s : State) : Host.Outcome State Fault Refusal :=
  s.done (s.guardWrite agent (Reg.dmaChCfg ch) (effDmaCfg ch value))

/-- DMA_RESET: a write to DMA.CTL; every channel stops issuing and is disabled. -/
def effDmaReset (value : Word) (s : State) : State :=
  if !bit value.toNat 0 then s
  else
    let s := s.put F.dmaCtlReset 1
    (List.range 16).foldl (fun s c => (s.put (F.dmaChCfgEn c) 0).dmaDrop c) s

def execDmaReset (agent : Nat) (value : Word) (s : State) : Host.Outcome State Fault Refusal :=
  s.done (s.guardWrite agent Reg.dmaCtl (effDmaReset value))

/-- DMA_RESET_DONE: RESET reads 0 once every request has returned or timed out. -/
def effDmaResetDone (s : State) : State :=
  if !s.flag F.dmaCtlReset || !s.dma.reads.isEmpty then s
  else
    let s := (s.put F.dmaCtlReset 0).put F.dmaStatusHalted 0
    (List.range 16).foldl (fun s c => (s.put (F.dmaChStatusHalted c) 0).put (F.dmaChStatusErrcode c) 0) s

def execDmaResetDone (s : State) : Host.Outcome State Fault Refusal := s.done (effDmaResetDone s)

end Sys2Proof.Machine
end

