-- ==== Sys2Proof/Machine/Ptp.lean ====
section
/-! DEFINITION. The time unit (R44, R312): the PTP ordinary clock, its Delay_Req, and the firmware receive ring (R313) that takes
every other message. -/

namespace Sys2Proof.Machine

/-! ## The firmware receive ring (R313) -/

/-- A frame for firmware: the slot at FWRXTAIL is filled; with no room, or the ring disabled, it is dropped and counted. `flow`: the
FIRMWARE flow that claimed it. A slot that the protection map refuses (R450), or that meets the flatten region (R128), drops the frame with
a violation. DESIGN CHOICE, log entry 182. -/
def State.fwrx (s : State) (port : Nat) (flow : Option Nat) (stamp : Nat) (frame : List Nat) : State :=
  let t := s.get F.netFwrxtailIndex
  let n := ringSlots (s.get F.netFwrxctlRingsz)
  let h := s.get F.netFwrxheadIndex
  let a := s.rd64 Reg.netFwrxLo + 16384 * t
  if !s.flag F.netFwrxctlEn || (t + 1) % n == h % n then s.bump F.netFwrxctlDrop
  else if !s.granted s.net.rxAgent true 0 a (64 + frame.length) then (s.violation s.net.rxAgent true 1 a).bump F.netFwrxctlDrop
  else
    let hdr := bytesLE 2 frame.length ++ [port, 0, 0] ++ bytesLE 2 (flow.getD 0xFFFF) ++ [0] ++ bytesLE 8 stamp ++ List.replicate 48 0
    let s := (s.localStore 33 a hdr).localStore 33 (a + 64) frame
    let s := s.put F.netFwrxtailIndex ((t + 1) % n)
    if t % n == h % n then s.raise F.netEvstatFwrxAvail 745 else s

/-! ## Fields of a PTP message (IEEE 1588) -/

def ptpField (m : List Nat) (o n : Nat) : Nat := ofBytesBE ((m.drop o).take n)

/-- A timestamp: 48-bit seconds, 32-bit nanoseconds. -/
def ptpStamp (m : List Nat) (o : Nat) : Int := (ptpField m o 6 * 1000000000 + ptpField m (o + 6) 4 : Nat)

/-- correctionField in whole ns. -/
def ptpCorr (m : List Nat) : Int := signed 64 (ptpField m 8 8) / 65536

/-- An Announce as the best master algorithm compares it. PRESUMED, log entry 94. -/
def ptpDataSet (m : List Nat) (port : Nat) : List Nat :=
  [ptpField m 47 1, ptpField m 48 1, ptpField m 49 1, ptpField m 50 2, ptpField m 52 1, ptpField m 53 8, ptpField m 61 2,
   ptpField m 20 10, port]

/-- Lexicographic order. -/
def lexLt : List Nat → List Nat → Bool
  | a :: x, b :: y => a < b || (a == b && lexLt x y)
  | _, _ => false

/-- The device's port identity, ten bytes. DESIGN CHOICE, log entry 95. -/
def ptpIdentity (port : Nat) : List Nat := ((List.range 8).map fun i => (Config.deviceByte i).toNat) ++ bytesBE 2 (port + 1)

def State.setPtp (s : State) (x : PtpClock) : State := { s with time := { s.time with ptp := x } }

/-- The message comes from the selected master. -/
def State.ptpFromMaster (s : State) (m : List Nat) (port : Nat) : Bool :=
  match s.time.ptp.master with
  | some d => d.getD 7 0 == ptpField m 20 10 && s.time.ptp.port == port
  | none => false

/-! ## Messages -/

/-- An Announce that the standard lets take part: not the device's own, and fewer than 255 steps away. PRESUMED, log entry 94. -/
def announceTakes (m : List Nat) : Bool :=
  ptpField m 61 2 < 255 && ptpField m 20 8 != ofBytesBE ((List.range 8).map fun i => (Config.deviceByte i).toNat)

/-- The foreign masters after an Announce of `id` on a port at `t`: those not heard for four of its announce intervals are dropped. -/
def foreignAfter (l : List (Nat × Nat × Nat)) (id port t : Nat) (annLog : Int) : List (Nat × Nat × Nat) :=
  (id, port, t) :: l.filter fun f => !(f.1 == id && f.2.1 == port) && t ≤ f.2.2 + 4 * pow2ns annLog

/-- Announce: of the masters heard twice within four announce intervals the best is followed. PRESUMED, log entry 94. -/
def State.ptpAnnounce (s : State) (m : List Nat) (port : Nat) : State :=
  let d := ptpDataSet m port
  let x := s.time.ptp
  let ann := signed 8 (ptpField m 33 1)
  if !announceTakes m then s
  else if s.ptpFromMaster m port then
    s.setPtp { x with master := some d, lastAnnounce := s.now, annLog := ann }
  else
    let id := ptpField m 20 10
    let qualified := x.foreign.any fun f => f.1 == id && f.2.1 == port && s.now ≤ f.2.2 + 4 * pow2ns ann
    let x := { x with foreign := foreignAfter x.foreign id port s.now ann }
    let better := match x.master with
      | none => true
      | some e => lexLt d e
    if qualified && better then (s.setPtp { PtpClock.init with
      master := some d, port := port, lastAnnounce := s.now, annLog := ann, reqSeq := x.reqSeq, foreign := x.foreign }).setRun 1 0
    else s.setPtp x

/-- A Sync is complete, with t1 and t2: the next Delay_Req is due, and with a known delay the offset is measured. PRESUMED, log entry 94. -/
def State.ptpMeasured (s : State) (t1 t2 : Int) : State :=
  let x := s.time.ptp
  let x := { x with t1 := t1, t2 := t2, reqDue := some s.now }
  if !x.delayValid then s.setPtp x
  else
    let off := t1 + x.delay - t2
    let s := s.setPtp { x with offset := off, run := s.runAfter 1 x.run off x.offset }
    let s' := if s.takesOver 1 then s.steer 1 off else s
    if s'.now = s.now then s' else s'.setPtp { s'.time.ptp with t3 := none, delayValid := false, syncWait := none }

/-- Sync, one-step or two-step. -/
def State.ptpSync (s : State) (m : List Nat) (stamp : Nat) : State :=
  let x := { s.time.ptp with syncLog := signed 8 (ptpField m 33 1), lastSync := some s.now }
  if bit (ptpField m 6 1) 1 then s.setPtp { x with syncWait := some (ptpField m 30 2, stamp, ptpCorr m) }
  else (s.setPtp { x with syncWait := none }).ptpMeasured (ptpStamp m 34 + ptpCorr m) stamp

/-- Follow_Up of the Sync that waits for it. -/
def State.ptpFollow (s : State) (m : List Nat) : State :=
  match s.time.ptp.syncWait with
  | none => s
  | some (q, t2, c) =>
    if q = ptpField m 30 2 then
      (s.setPtp { s.time.ptp with syncWait := none }).ptpMeasured (ptpStamp m 34 + c + ptpCorr m) t2
    else s

/-- Delay_Resp to the device's outstanding request: the mean path delay. -/
def State.ptpResp (s : State) (m : List Nat) : State :=
  let x := s.time.ptp
  match x.t3 with
  | none => s
  | some t3 =>
    if ptpField m 30 2 = x.reqSeq && (m.drop 44).take 10 == ptpIdentity x.port then
      let t4 := ptpStamp m 34 - ptpCorr m
      s.setPtp { x with
        t3 := none, delayValid := true,
        delay := ((x.t2 - x.t1) + (t4 - (t3 : Int))) / 2 }
    else s

/-- A PTP message on port p with its receive stamp; other messages go to firmware with their frame. -/
def State.ptpTake (s : State) (p : Nat) (m : List Nat) (stamp : Nat) (frame : List Nat) : State :=
  let ours := ptpField m 1 1 % 16 == 2 && ptpField m 4 1 == s.get F.tickPtpcfgDomain
  match m.getD 0 0 % 16 with
  | 0xB => if ours && 64 ≤ m.length then s.ptpAnnounce m p else s
  | 0 => if ours && 44 ≤ m.length && s.ptpFromMaster m p then s.ptpSync m stamp else s
  | 8 => if ours && 44 ≤ m.length && s.ptpFromMaster m p then s.ptpFollow m else s
  | 9 => if ours && 54 ≤ m.length && s.ptpFromMaster m p then s.ptpResp m else s
  | 1 => s
  | _ => s.fwrx p none stamp frame

/-- Port p carries PTP (R44, R298). -/
def State.ptpPort (s : State) (p : Nat) : Bool := bit (s.get F.tickPtpcfgPorts) p && portExists (s.get F.netCfgMode) p

/-- A header of free bytes. PRESUMED, log entry 94. -/
def State.freeHeader (s : State) (n : Nat) : State × List Nat :=
  (List.range n).foldl (fun a _ => (a.1.tick, a.2 ++ [(Config.freeByte a.1.fresh).toNat])) (s, [])

/-- PTP_MESSAGE: the stamp is taken RXLAT ns before now. The row does not give the frame's headers: they are free. -/
def effPtp (p : Nat) (m : List Nat) (s : State) : State :=
  if !s.ptpPort p || !s.domOn 78 then s
  else
    let h := s.freeHeader 42
    h.1.ptpTake p m (s.now - s.get (F.netPortCfgRxlat p)) (h.2 ++ m)

def execPtpMessage (port : Nat) (payload : List Byte) (s : State) : Host.Outcome State Fault Refusal :=
  s.done (effPtp port (payload.map BitVec.toNat) s)

/-! ## Delay_Req (R312) -/

/-- A Delay_Req message with its frame; addresses of the device are its own (Config.deviceByte). -/
def State.delayReqFrame (s : State) (p : Nat) : List Nat :=
  let q := s.time.ptp.reqSeq
  let msg := [0x01, 0x02, 0, 44, s.get F.tickPtpcfgDomain, 0, 0, 0] ++ List.replicate 12 0 ++ ptpIdentity p ++ bytesBE 2 q ++
    [1, 0x7F] ++ List.replicate 10 0
  let dev (i n : Nat) : List Nat := (List.range n).map fun k => (Config.deviceByte (8 + 16 * p + i + k)).toNat
  let eth := [0x01, 0x00, 0x5E, 0x00, 0x01, 0x81] ++ dev 0 6 ++ [0x08, 0x00]
  let ip := [0x45, 0, 0, 0, 0, 0, 0, 0, 1, 17, 0, 0] ++ dev 6 4 ++ [224, 0, 1, 129]
  let udp := bytesBE 2 319 ++ bytesBE 2 319 ++ [0, 0, 0, 0]
  buildFrame (eth ++ ip ++ udp) msg 0

/-- DELAY_REQ_SEND: at a frame boundary of the port a Delay_Req that is due goes out, ahead of every class. -/
def effDelayReq (p : Nat) (s : State) : State :=
  let x := s.time.ptp
  match x.reqDue with
  | none => s
  | some t =>
    if x.master.isNone || x.port != p || !s.ptpPort p || !s.portUp p || (s.sendingOf p).isSome then s
    else
      let s := s.advanceTo t
      let s := s.setPtp { s.time.ptp with
        t3 := some (s.now + s.get (F.netPortCfgTxlat p)), reqDue := none, reqSeq := (x.reqSeq + 1) % 65536 }
      s.startFrame p 32 ⟨s.delayReqFrame p, none, false, true⟩

def execDelayReqSend (port : Nat) (s : State) : Host.Outcome State Fault Refusal := s.done (effDelayReq port s)

end Sys2Proof.Machine
end

