-- ==== Sys2Proof/Machine/Net.lean ====
section
/-! DEFINITION. Network ingest (R298 to R311): the MAC's checks, classification, metering, the ingest buffer, ST 2110-20 video flows
and H.265 flows. -/

namespace Sys2Proof.Machine

/-! ## Port commands -/

/-- NET_MODE_WRITE (R298): ignored unless every port is disabled. -/
def effNetMode (value : Word) (s : State) : State :=
  if (List.range 8).any fun p => s.flag (F.netPortCfgEn p) then s else s.store Reg.netCfg value

def execNetModeWrite (agent : Nat) (value : Word) (s : State) : Host.Outcome State Fault Refusal :=
  s.done (s.guardWrite agent Reg.netCfg (effNetMode value))

/-- PORT_LINK_CHANGE (R299): a port comes up with its FEC locked and its training complete or, on C2M, not used. -/
def effPortLink (p : Nat) (up fec trained : Bool) (s : State) : State :=
  if 8 ≤ p || !portExists (s.get F.netCfgMode) p || !s.domOn (45 + p) then s
  else
    let was := s.flag (F.netPortStatLink p)
    let trained := trained || s.untrained p
    let up := up && fec && trained
    let s := (s.put (F.netPortStatFeclock p) (ofBool fec)).put (F.netPortStatTrained p) (ofBool trained)
    let s := s.put (F.netPortStatLink p) (ofBool up)
    let s := s.put ⟨Reg.netEvstat, 24 + p, 1⟩ (ofBool up)
    if was == up then s else s.signal (733 + p)

def execPortLinkChange (port : Nat) (up fec trained : Bool) (s : State) : Host.Outcome State Fault Refusal :=
  s.done (effPortLink port up fec trained s)

/-! ## Flow configuration in effect (R305 to R309) -/

namespace FlowSt

def samp (x : FlowSt) : Nat := wf x.fmt 0 2
def depth (x : FlowSt) : Nat := wf x.fmt 2 1
def nslot (x : FlowSt) : Nat := if wf x.fmt 4 4 = 0 then 16 else wf x.fmt 4 4
def tmo (x : FlowSt) : Nat := wf x.fmt 16 16
def width (x : FlowSt) : Nat := if wf x.geom 0 14 = 0 then 8192 else wf x.geom 0 14
def height (x : FlowSt) : Nat := if wf x.geom 16 14 = 0 then 8192 else wf x.geom 16 14

/-- Format of the ring (R305, R113). -/
def ringFmt (x : FlowSt) : Nat :=
  match x.samp, x.depth with
  | 0, 0 => 0x0A
  | 0, _ => 0x0B
  | 1, 0 => 0x0C
  | 1, _ => 0x0D
  | _, 0 => 0x02
  | _, _ => 0x04

/-- Pixels and wire bytes of a pgroup (R305). -/
def pgroup (x : FlowSt) : Nat × Nat :=
  match x.samp, x.depth with
  | 0, 0 => (2, 5)
  | 0, _ => (2, 6)
  | _, 0 => (4, 15)
  | _, _ => (2, 9)

end FlowSt

/-- A flow event, with EVSTAT.FLOW (R322). -/
def State.flowEvent (s : State) (f : Nat) (c : Fld) (src : Nat) : State := (s.put F.netEvstatFlow f).raise c src

/-- FLOW_MALF, counted. -/
def State.flowMalf (s : State) (f : Nat) : State := (s.bump (F.netFlowStatbMalf f)).flowEvent f F.netEvstatFlowMalf 743

/-- Some active or armed layer names flow f. DEDUCED, log entry 99. -/
def State.flowNamed (s : State) (f : Nat) : Bool :=
  let uses (c : LayerCfg) : Bool := c.en && c.srcType == 2 && c.idx == f
  (s.heads.any fun e => e.2.layers.any fun l => uses l.2) || (s.accepted.any fun c => c.layers.any fun l => uses l.2)

/-- The ring a flow would have lies in installed DRAM outside every CONTROL window, and the agent may write it (R306, R311, R452). -/
def State.ringOk (s : State) (agent a n : Nat) : Bool :=
  a + n ≤ s.capacity && !s.meetsControl a n && s.granted agent true 0 a n

/-- A flow with the written registers may be enabled (R305, R306, R310, R311). -/
def State.flowOk (s : State) (agent f kind : Nat) (x : FlowSt) : Bool :=
  let rows := ceilDiv (x.width * formatBits x.ringFmt) 8
  match kind with
  | 0 =>
    x.samp != 3 && 2 ≤ x.nslot && x.width ≤ 8192 && x.height ≤ 8192 && x.width % x.pgroup.1 == 0 &&
      x.pitch % 64 == 0 && rows ≤ x.pitch && x.stride % 4096 == 0 && x.pitch * x.height ≤ x.stride && x.base % 4096 == 0 &&
      s.ringOk agent x.base (x.nslot * x.stride + 64 * x.nslot)
  | 1 => s.part.hasCodec && x.stride % 4096 == 0 && x.base % 4096 == 0 && s.ringOk agent x.base x.stride && f < 256
  | _ => true

/-- A write to NET.FLOW[f].CTL: EN to 1 latches the configuration and discards completed frames, or is refused; EN to 0 discards the
frame in progress; while an active or armed layer names the flow, an enable or a new KIND is ignored (R309). DEDUCED, log entry 99. -/
def effFlowCtl (agent f : Nat) (value : Word) (s : State) : State :=
  if 256 ≤ f then s
  else
    let was := s.flag (F.netFlowCtlEn f)
    let on := bit value.toNat 0
    let x := s.flowOf f
    let kind := field value.toNat 1 2
    if s.flowNamed f && ((on && !was) || kind != s.get (F.netFlowCtlKind f)) then s.put (F.netFlowStatCfgerr f) 1
    else if on && !was then
      let y : FlowSt := { x with
        kind := kind, fmt := s.rd (Reg.netFlowFmt f), geom := s.rd (Reg.netFlowGeom f),
        pitch := s.get (F.netFlowPitchBytes f), stride := s.get (F.netFlowStrideBytes f), base := s.rd64 (Reg.netFlowBaseLo f),
        frame := none, closed := [], au := none, full := false }
      let y := { y with prev := y.nslot - 1 }
      if !s.flowOk agent f kind y then
        (s.store (Reg.netFlowCtl f) (value &&& 0xFFFFFFFE)).put (F.netFlowStatCfgerr f) 1
      else
        let s := (s.store (Reg.netFlowCtl f) value).setFlow f y
        let p := Tbl.get (fun _ => Producer.init) s.producers f
        let s := { s with producers := Tbl.set (fun _ => Producer.init) s.producers f { p with newest := none, older := [] } }
        (s.put (F.netFlowWofsOfs f) 0).put (F.netFlowStatOpen f) 0
    else
      let s := s.store (Reg.netFlowCtl f) value
      if was && !on then (s.setFlow f { x with frame := none, au := none }).put (F.netFlowStatOpen f) 0 else s

def execFlowEnable (agent flow : Nat) (value : Word) (s : State) : Host.Outcome State Fault Refusal :=
  s.done (s.guardWrite agent (Reg.netFlowCtl flow) (effFlowCtl agent flow value))

def execFlowDisable (agent flow : Nat) (value : Word) (s : State) : Host.Outcome State Fault Refusal :=
  s.done (s.guardWrite agent (Reg.netFlowCtl flow) (effFlowCtl agent flow value))

/-! ## Metering (R302) and the ingest buffer (R303) -/

/-- Rates and sizes in effect of a flow's buckets, as the registers give them. -/
def State.rates (s : State) (f : Nat) : Rates :=
  ⟨s.get (F.netFlowCirValue f), s.get (F.netFlowPirValue f), s.get (F.netFlowCbsValue f), s.get (F.netFlowPbsValue f)⟩

/-- Buckets of flow f at a datagram metered now: filled at the rates in effect since the last one, then reduced to the sizes that take
effect with this one. DEDUCED, log entry 93. -/
def State.buckets (s : State) (f : Nat) : Nat × Nat :=
  let x := s.flowOf f
  let r := s.rates f
  let d := s.time.uptime - x.at0
  (min (r.cbs * 8000) (min (x.rates.cbs * 8000) (x.tc + x.rates.cir * d)),
   min (r.pbs * 8000) (min (x.rates.pbs * 8000) (x.tp + x.rates.pir * d)))

/-- Colour of a datagram of b bytes with DSCP d: 0 green, 1 yellow, 2 red; the buckets are charged, the colour counted.
DEDUCED, log entry 93. -/
def State.meter (s : State) (f b d : Nat) : State × Nat :=
  let (tc, tp) := s.buckets f
  let pre := field (s.get (F.netDscpmapColor (d / 16))) (2 * (d % 16)) 2
  let aware := s.flag (F.netFlowCtlCaware f)
  let need := b * 8000
  let colour := if (aware && pre == 2) || tp < need then 2 else if (aware && pre == 1) || tc < need then 1 else 0
  let s := s.setFlow f { s.flowOf f with
    tc := if colour = 0 then tc - need else tc, tp := if colour = 2 then tp else tp - need, at0 := s.time.uptime, rates := s.rates f }
  (s.bump (match colour with | 0 => F.netFcntGreenCount f | 1 => F.netFcntYellowCount f | _ => F.netFcntRedCount f), colour)

/-- A datagram of b bytes of a colour meets the ingest buffer. -/
def State.ingest (s : State) (b colour : Nat) : State × Bool :=
  let s := s.drain
  let fill := s.net.fill
  let put (s : State) (n : Nat) : State := s.setFill n
  if colour = 2 then (put s fill, false)
  else if colour = 1 && s.get F.netIbufYthr * 4096 < fill then ((put s fill).bump F.netIbstatYdrop, false)
  else if 4 * 1048576 < fill + b then
    (((put s fill).bump F.netIbstatOvf).raise F.netEvstatIngestOverflow 744, false)
  else (put s (fill + b), true)

/-! ## RTP -/

/-- Payload of an RTP packet: what follows its fixed header, its contributing sources and its header extension, less its padding. -/
def rtpBody (p : List Nat) : List Nat :=
  let b0 := p.getD 0 0
  let o := 12 + 4 * (b0 % 16)
  let o := if bit b0 4 then o + 4 + 4 * ofBytesBE ((p.drop (o + 2)).take 2) else o
  let body := p.drop o
  if bit b0 5 then body.take (body.length - p.getLastD 0) else body

/-- A w-bit sequence number extended by what a packet before it had. -/
def extendSeq (w : Nat) (seqs : List Nat) (q : Nat) : Nat :=
  match seqs.getLast? with
  | none => 2 ^ 33 + q
  | some a => ((a : Int) + signed w ((q + 2 ^ w - a % 2 ^ w) % 2 ^ w)).toNat

/-! ## ST 2110-20 (R304 to R308) -/

/-- Code i of `w` bits in a big-endian bit string. -/
def wireCode (bs : List Nat) (w i : Nat) : Nat := ofBytesBE bs / 2 ^ (8 * bs.length - w * (i + 1)) % 2 ^ w

/-- The ring bytes of one wire pgroup (R144, R305). -/
def repack (x : FlowSt) (pg : List Nat) : List Nat :=
  let w := if x.depth = 0 then 10 else 12
  let c (i : Nat) : Nat := wireCode pg w i
  match x.samp, x.depth with
  | 0, 0 => bytesLE 5 (c 0 + 2 ^ 10 * c 1 + 2 ^ 20 * c 2 + 2 ^ 30 * c 3)
  | 0, _ => [c 0, c 1, c 2, c 3].flatMap fun v => bytesLE 2 (16 * v)
  | _, 0 => (List.range 4).flatMap fun k => bytesLE 4 (c (3 * k) + 2 ^ 10 * c (3 * k + 1) + 2 ^ 20 * c (3 * k + 2))
  | _, _ => (List.range 6).flatMap fun k => bytesLE 2 (16 * c k)

/-- Sample row data of one SRD written to a slot; one that breaks R304 is counted. -/
def State.putSrd (s : State) (f : Nat) (slot : Option Nat) (srd : Nat × Bool × Nat × Nat) (data : List Nat) : State :=
  let x := s.flowOf f
  let (len, fieldBit, row, ofs) := srd
  let pg := x.pgroup
  if fieldBit || len % pg.2 != 0 || ofs % pg.1 != 0 || x.height ≤ row || x.width < ofs + len / pg.2 * pg.1 || data.length < len then
    s.flowMalf f
  else match slot with
  | none => s
  | some k =>
    let bytes := (List.range (len / pg.2)).flatMap fun i => repack x ((data.drop (i * pg.2)).take pg.2)
    s.localStore 33 (x.base + k * x.stride + row * x.pitch + ofs * formatBits x.ringFmt / 8) bytes

/-- SRD headers of a packet: length, field bit, row, offset; at most three. -/
def srdHeaders : Nat → List Nat → List (Nat × Bool × Nat × Nat)
  | 0, _ => []
  | n + 1, b =>
    let h := (ofBytesBE (b.take 2), bit (b.getD 2 0) 7, ofBytesBE ((b.drop 2).take 2) % 32768, ofBytesBE ((b.drop 4).take 2) % 32768)
    if bit (b.getD 4 0) 7 then h :: srdHeaders n (b.drop 6) else [h]

/-- The header of a slot (R306). -/
def State.slotHeader (s : State) (x : FlowSt) (k ts flags stamp first pkts lost : Nat) : State :=
  s.localStore 33 (x.base + x.nslot * x.stride + 64 * k)
    (bytesLE 4 ts ++ bytesLE 4 flags ++ bytesLE 8 stamp ++ bytesLE 8 first ++ bytesLE 4 pkts ++ bytesLE 4 lost ++ List.replicate 32 0)

/-- Extended sequence numbers between the first and the last accepted that were not received. -/
def lostCount (seqs : List Nat) : Nat :=
  match seqs with
  | [] => 0
  | q :: qs => (qs.foldl max q - qs.foldl min q + 1) - seqs.eraseDups.length

/-- A frame of producer p is complete (R112): of those before it, the ones that bear its stamp stay, and the newest below it. -/
def State.produce (s : State) (p slot addr pitch stamp : Nat) : State :=
  let x := Tbl.get (fun _ => Producer.init) s.producers p
  let l := x.newest.toList ++ x.older
  let y : Producer := ⟨x.count + 1, some ⟨p, slot, addr, pitch, x.count + 1, stamp⟩,
    (l.takeWhile fun f => stamp ≤ f.stamp) ++ (l.dropWhile fun f => stamp ≤ f.stamp).take 1⟩
  { s with producers := Tbl.set (fun _ => Producer.init) s.producers p y }

/-- Timestamps of closed frames, ts the newest: those within half the timestamps' range before it. DESIGN CHOICE, log entry 97. -/
def laterThan (ts : Nat) (l : List Nat) : List Nat :=
  ts :: l.filter fun t => t != ts && (ts + 2 ^ 32 - t) % 2 ^ 32 < 2 ^ 31

/-- The open frame of flow f closes (R307): flag bits 1 NOMARKER, 2 TIMEOUT. DESIGN CHOICE, log entry 97. -/
def State.closeFrame (s : State) (f stamp flags : Nat) : State :=
  let x := s.flowOf f
  match x.frame with
  | none => s
  | some o =>
    let lost := lostCount o.seqs
    let loss := lost != 0 || flags != 0
    let s := (s.setFlow f { x with frame := none, closed := laterThan o.ts x.closed }).put (F.netFlowStatOpen f) 0
    match o.slot with
    | none => s
    | some k =>
      let s := s.bump (F.netFcntLostCount f) lost
      let s := if loss then s.flowEvent f F.netEvstatFlowLoss 741 else s
      if loss && s.flag (F.netFlowCtlLosspol f) then s
      else
        let s := s.slotHeader x k o.ts (ofBool loss + flags) stamp o.first o.seqs.length lost
        let s := s.produce f k (x.base + k * x.stride) x.pitch stamp
        (s.put (F.netFlowStatLastslot f) k).bump (F.netFlowStatFrames f)

/-- Slots of flow f held by a layer or holding the newest completed frame (R308). -/
def State.slotTaken (s : State) (f k : Nat) : Bool :=
  (s.layers.any fun e => match e.2.held with | some r => r.producer == f && r.slot == k | none => false) ||
    (match (Tbl.get (fun _ => Producer.init) s.producers f).newest with | some r => r.slot == k | none => false)

/-- A frame opens (R307, R308). -/
def State.openFrame (s : State) (f ts stamp : Nat) : State :=
  let x := s.flowOf f
  let slot := ((List.range x.nslot).map fun i => (x.prev + 1 + i) % x.nslot).find? fun k => !s.slotTaken f k
  let s := (s.setFlow f { x with
    frame := some ⟨ts, slot, stamp, s.time.uptime, []⟩, prev := slot.getD x.prev }).put (F.netFlowStatOpen f) 1
  if slot.isSome then s
  else (s.bump (F.netFlowStatbRingfull f)).flowEvent f F.netEvstatRingFull 742

/-- An RTP packet of a VIDEO flow: payload of the UDP datagram `p`. -/
def State.videoPacket (s : State) (f stamp : Nat) (p : List Nat) : State :=
  let ts := ofBytesBE ((p.drop 4).take 4)
  let marker := bit (p.getD 1 0) 7
  let body := rtpBody p
  let seq := ofBytesBE (body.take 2) * 65536 + ofBytesBE ((p.drop 2).take 2)
  let x := s.flowOf f
  let here := match x.frame with | some o => o.ts == ts | none => false
  if !here && x.closed.contains ts then s.bump (F.netFlowStatbLatepkt f)
  else
    let s := if here then s else
      ((if x.frame.isSome then s.closeFrame f stamp 2 else s).openFrame f ts stamp)
    let x := s.flowOf f
    match x.frame with
    | none => s
    | some o =>
      let hs := srdHeaders 3 (body.drop 2)
      let data := body.drop (2 + 6 * hs.length)
      let r := hs.foldl (fun (a : State × List Nat) h => (a.1.putSrd f o.slot h (a.2.take h.1), a.2.drop h.1)) (s, data)
      let s := r.1.setFlow f { r.1.flowOf f with frame := some { o with last := s.time.uptime, seqs := o.seqs ++ [extendSeq 32 o.seqs seq] } }
      if marker then s.closeFrame f stamp 0 else s

/-- VIDEO_FRAME_TIMEOUT (R307). -/
def effFrameTimeout (f : Nat) (s : State) : State :=
  let x := s.flowOf f
  match x.frame with
  | none => s
  | some o =>
    let due := o.last + x.tmo * 1000
    let s := if s.time.uptime < due then s.elapse (due - s.time.uptime) else s
    s.closeFrame f s.now 4

def execVideoFrameTimeout (flow : Nat) (s : State) : Host.Outcome State Fault Refusal := s.done (effFrameTimeout flow s)

/-! ## H.265 flows (R310, R311) -/

/-- Bytes written to a byte ring from an offset, wrapping. -/
def State.ringWrite (s : State) (base size ofs : Nat) (bs : List Nat) : State :=
  let n := min bs.length (size - ofs)
  (s.localStore 33 (base + ofs) (bs.take n)).localStore 33 base (bs.drop n)

/-- A NAL unit with its start code. -/
def startCoded (nal : List Nat) : List Nat := [0, 0, 0, 1] ++ nal

/-- The NAL units of an aggregation packet. -/
def splitAp : Nat → List Nat → List (List Nat)
  | 0, _ => []
  | k + 1, bs =>
    let n := ofBytesBE (bs.take 2)
    if bs.length < 2 || n = 0 || bs.length < 2 + n then [] else (bs.drop 2).take n :: splitAp k (bs.drop (2 + n))

/-- What an access unit has been put together to: its NAL units, a fragmented one in progress with the sequence number expected next,
and whether one was discarded. -/
structure AuParts where
  bytes : List Nat
  frag : Option (List Nat × Nat)
  loss : Bool
  deriving DecidableEq, Repr

/-- A fragmentation unit: sequence number q. A NAL unit with a fragment missing is discarded. -/
def AuParts.fragment (u : AuParts) (q : Nat) (p : List Nat) : AuParts :=
  let h := p.getD 2 0
  let nal := [p.getD 0 0 &&& 0x81 ||| (2 * (h % 64)), p.getD 1 0]
  let u := if bit h 7 then { u with frag := some (nal ++ p.drop 3, q + 1), loss := u.loss || u.frag.isSome }
    else match u.frag with
      | some (b, e) => if e = q then { u with frag := some (b ++ p.drop 3, q + 1) } else { u with frag := none, loss := true }
      | none => { u with loss := true }
  if bit h 6 then match u.frag with
    | some (b, _) => { u with frag := none, bytes := u.bytes ++ startCoded b }
    | none => u
  else u

/-- A packet of an access unit, in order of sequence number. -/
def AuParts.packet (u : AuParts) (x : Nat × List Nat) : AuParts :=
  let type := x.2.getD 0 0 / 2 % 64
  if type = 48 then { u with bytes := u.bytes ++ (splitAp x.2.length (x.2.drop 2)).flatMap startCoded }
  else if type = 49 then u.fragment x.1 x.2
  else { u with bytes := u.bytes ++ startCoded x.2 }

/-- A packet joins those of its access unit, in order of sequence number; a second one of a number is dropped. -/
def auInsert (x : Nat × List Nat) : List (Nat × List Nat) → List (Nat × List Nat)
  | [] => [x]
  | y :: l => if x.1 < y.1 then x :: y :: l else if x.1 = y.1 then y :: l else y :: auInsert x l

/-- An access unit put together (R310). DEDUCED, log entry 163. -/
def OpenAu.parts (u : OpenAu) : AuParts := u.packets.foldl AuParts.packet ⟨[], none, false⟩

/-- Bytes of flow f's ring that its context has consumed, from WOFS to the context's RDOFS (R311, R344). -/
def State.recordRoom (s : State) (f : Nat) : Nat :=
  let x := s.flowOf f
  let w := s.get (F.netFlowWofsOfs f)
  let r := s.get (F.cdcCtxRdofsBytes (s.get (F.netFlowUdpCtx f))) % max 1 x.stride
  if w = r then (if x.full then 0 else x.stride) else (r + x.stride - w) % x.stride

/-- The open access unit of flow f is written to its ring (R311); flag bit 1 NOMARKER. -/
def State.closeAu (s : State) (f flags : Nat) : State :=
  let x := s.flowOf f
  match x.au with
  | none => s
  | some u =>
    let lost := lostCount u.seqs
    let a := u.parts
    let loss := a.loss || a.frag.isSome || lost != 0
    let s := (s.setFlow f { x with au := none }).put (F.netFlowStatOpen f) 0
    let s := s.bump (F.netFcntLostCount f) lost
    let size := ceilDiv (32 + a.bytes.length) 64 * 64
    let ofs := s.get (F.netFlowWofsOfs f)
    if s.recordRoom f < size then
      (s.bump (F.netFlowStatbRingfull f)).flowEvent f F.netEvstatHevcAuDrop 746
    else
      let hdr := bytesLE 4 a.bytes.length ++ bytesLE 4 (ofBool loss + flags) ++ bytesLE 4 u.ts ++ bytesLE 4 0 ++ bytesLE 8 u.stamp ++
        bytesLE 2 u.seqs.length ++ bytesLE 2 lost ++ bytesLE 4 0
      let bytes := hdr ++ a.bytes
      let s := s.ringWrite x.base x.stride ofs (bytes ++ List.replicate (size - bytes.length) 0)
      let s := s.setFlow f { s.flowOf f with full := size == s.recordRoom f }
      (s.put (F.netFlowWofsOfs f) ((ofs + size) % x.stride)).bump (F.netFlowStatFrames f)

/-- An RTP packet of an HEVC flow. -/
def State.hevcPacket (s : State) (f stamp : Nat) (p : List Nat) : State :=
  let ts := ofBytesBE ((p.drop 4).take 4)
  let marker := bit (p.getD 1 0) 7
  let body := rtpBody p
  let x := s.flowOf f
  let here := match x.au with | some u => u.ts == ts | none => false
  let s := if here then s else (if x.au.isSome then s.closeAu f 2 else s)
  let s := if here then s else s.put (F.netFlowStatOpen f) 1
  let u : OpenAu := match (s.flowOf f).au with
    | some u => u
    | none => ⟨ts, [], stamp, []⟩
  let q := extendSeq 16 u.seqs (ofBytesBE ((p.drop 2).take 2))
  let paci := body.getD 0 0 / 2 % 64 = 50
  let s := s.setFlow f { s.flowOf f with au := some { u with
    stamp := stamp, seqs := u.seqs ++ [q], packets := if paci then u.packets else auInsert (q, body) u.packets } }
  let s := if paci then s.flowMalf f else s
  if marker then s.closeAu f 0 else s

/-! ## Classification (R301) -/

/-- A UDP datagram over IPv4, as the MAC hands it on. -/
structure Udp where
  vlan : Option Nat
  dscp : Nat
  src : Nat
  dst : Nat
  dport : Nat
  payload : List Nat
  deriving DecidableEq, Repr

/-- What a frame is to the classifier. -/
inductive Parsed where
  /-- Dropped and counted by R300. -/
  | bad
  | pause
  | udp (u : Udp)
  /-- Anything else. -/
  | other
  deriving DecidableEq, Repr

/-- A frame's bytes from behind its Ethernet header and tag. -/
def etherBody (fr : List Nat) : List Nat := fr.drop (ipOffset fr)

/-- A frame's EtherType, behind its tag. -/
def etherType (fr : List Nat) : Nat := ofBytesBE ((fr.drop (ipOffset fr - 2)).take 2)

/-- Bytes of an IPv4 header. -/
def ipLen (ip : List Nat) : Nat := 4 * (ip.getD 0 0 % 16)

/-- What a frame that has passed the MAC is by its headers: a UDP datagram over IPv4, or anything else (R300). -/
def parseIp (fr : List Nat) : Parsed :=
  let ip := etherBody fr
  let frag := ofBytesBE ((ip.drop 6).take 2)
  if etherType fr ≠ 0x0800 ∨ ip.getD 0 0 / 16 ≠ 4 ∨ ipLen ip < 20 ∨ frag % 16384 ≠ 0 ∨ ip.getD 9 0 ≠ 17 then .other
  else
    let u := ip.drop (ipLen ip)
    .udp ⟨if ipOffset fr = 18 then some (ofBytesBE ((fr.drop 14).take 2) % 4096) else none, ip.getD 1 0 / 4,
      ofBytesBE ((ip.drop 12).take 4), ofBytesBE ((ip.drop 16).take 4), ofBytesBE ((u.drop 2).take 2),
      (u.drop 8).take (ofBytesBE ((u.drop 4).take 2) - 8)⟩

/-- The MAC's checks of a frame without FCS, and what it is (R300). DEDUCED, log entry 96. -/
def parseFrame (fr : List Nat) (fcsOk : Bool) : Parsed :=
  let n := fr.length + 4
  let isTag (t : Nat) : Bool := t == 0x8100 || t == 0x88A8
  let ip := etherBody fr
  let opcode := ofBytesBE (ip.take 2)
  if !fcsOk || n < 64 || 9216 < n || (isTag (ofBytesBE ((fr.drop 12).take 2)) && isTag (ofBytesBE ((fr.drop 16).take 2))) then .bad
  else if etherType fr = 0x8808 then (if opcode = 0x0001 ∨ opcode = 0x0101 then .pause else .other)
  else if etherType fr = 0x0800 ∧ ip.getD 0 0 / 16 = 4 ∧ 20 ≤ ipLen ip ∧ inetSum (ip.take (ipLen ip)) ≠ 0 then .bad
  else parseIp fr

/-- Flow f's match fields accept a datagram (R301). -/
def State.flowMatches (s : State) (f p : Nat) (u : Udp) : Bool :=
  bit (s.get (F.netFlowCtlPorts f)) p && portExists (s.get F.netCfgMode) p &&
    u.dst == s.get (F.netFlowDstipAddr f) && u.dport == s.get (F.netFlowUdpDport f) &&
    (!s.flag (F.netFlowCtlSrcen f) || u.src == s.get (F.netFlowSrcipAddr f)) &&
    (if s.flag (F.netFlowCtlVlanen f) then u.vlan == some (s.get (F.netFlowCtlVlan f)) else u.vlan.isNone) &&
    (!s.flag (F.netFlowUdpPten f) || u.payload.getD 1 0 % 128 == s.get (F.netFlowUdpPt f))

/-- The lowest-numbered enabled flow of a kind that accepts the datagram. -/
def State.flowFor (s : State) (p : Nat) (u : Udp) (pose : Bool) : Option Nat :=
  (List.range 256).find? fun f =>
    s.flag (F.netFlowCtlEn f) && ((s.flowOf f).kind == 2) == pose && s.flowMatches f p u

/-- A frame that passed the checks, classified (R301). -/
def State.classify (s : State) (p : Nat) (fr : List Nat) (x : Parsed) : State :=
  let b := fr.length + 4
  let unclaimed (s : State) : State :=
    if s.flag F.netFwrxctlAll then
      let r := s.ingest b 0
      if r.2 then r.1.fwrx p none s.now fr else r.1
    else s.bump (F.netPortDropCount p)
  match x with
  | .udp u =>
    if (u.dport == 319 || u.dport == 320) && s.ptpPort p then
      s.ptpTake p u.payload (s.now - s.get (F.netPortCfgRxlat p)) fr
    else if s.isPose p u.dport then
      let r := match s.flowFor p u true with
        | some f => s.meter f b u.dscp
        | none => (s, 0)
      let r := r.1.ingest b r.2
      if r.2 then effPoseDatagram p u.src u.dport u.payload r.1 else r.1
    else match s.flowFor p u false with
    | none => unclaimed s
    | some f =>
      let r := s.meter f b u.dscp
      let r := r.1.ingest b r.2
      if !r.2 then r.1
      else match (s.flowOf f).kind with
      | 0 => r.1.videoPacket f s.now u.payload
      | 1 => r.1.hevcPacket f s.now u.payload
      | _ => r.1.fwrx p (some f) s.now fr
  | _ => unclaimed s

/-! ## Frames, and the injector (R455) -/

/-- Byte positions of a frame's IPv4, UDP and RTP headers: start and length; none for a frame that is not UDP. -/
def headerSpan (fr : List Nat) : Option (Nat × Nat) :=
  match parseFrame fr true with
  | .udp u =>
    let o := ipOffset fr
    some (o, 4 * (fr.getD o 0x45 % 16) + 8 + min 12 u.payload.length)
  | _ => none

/-- Byte positions of a frame's UDP payload, or of what follows its Ethernet header. -/
def payloadSpan (fr : List Nat) : Nat × Nat :=
  let o := ipOffset fr
  match parseFrame fr true with
  | .udp u => (o + 4 * (fr.getD o 0x45 % 16) + 8, u.payload.length)
  | _ => (o, fr.length - o)

/-- One bit of a span flipped. -/
def flipIn (fr : List Nat) (sp : Nat × Nat) (v : Nat) : List Nat :=
  if sp.2 = 0 then fr else flipBit fr (8 * sp.1 + v % (8 * sp.2))

/-- The frame a reorder holds on port p is delivered, with the stamp of now. -/
def State.ethHeld (s : State) (p : Nat) : State :=
  match s.finj.held.find? fun h => h.1 == 16 + p with
  | some (k, _, .ethFrameReceive _ fr _) =>
    let fr := fr.map BitVec.toNat
    { s with finj := { s.finj with held := s.finj.held.filter fun h => h.1 != k } }.classify p fr (parseIp fr)
  | _ => s

/-- A frame that has passed R300 meets the injector, and what is left of it goes on to classification (R453, R455). -/
def State.frameIn (s : State) (p : Nat) (fr : List Nat) : State :=
  let on (s : State) (fr : List Nat) : State := (s.classify p fr (parseIp fr)).ethHeld p
  match s.inject (16 + p) with
  | (s, some (0, _)) => s
  | (s, some (1, v)) => on s (flipIn fr (payloadSpan fr) v)
  | (s, some (2, v)) => on s (match headerSpan fr with | some sp => flipIn fr sp v | none => fr)
  | (s, some (_, _)) =>
    let s := s.ethHeld p
    { s with finj := { s.finj with held := s.finj.held ++ [(16 + p, s.now, .ethFrameReceive p (fr.map (BitVec.ofNat 8)) true)] } }
  | (s, none) => on s fr

/-- ETH_FRAME_RECEIVE: the frame's arrival stamp is now (R210); frames of one stamp are metered in order of their ports (R302), so one that
comes after one of a higher port has a later stamp. DEDUCED, log entry 93. -/
def effEthFrame (p : Nat) (fr : List Nat) (ok : Bool) (s : State) : State :=
  if !s.portUp p || !s.domOn 78 || !s.takesWork then s
  else match parseFrame fr ok with
  | .bad => s.bump (F.netPortFcserrCount p)
  | .pause => s.bump (F.netPortPauseCount p)
  | _ => (s.poseTurn p).frameIn p fr

def execEthFrameReceive (port : Nat) (frame : List Byte) (fcsOk : Bool) (s : State) : Host.Outcome State Fault Refusal :=
  s.done (effEthFrame port (frame.map BitVec.toNat) fcsOk s)

end Sys2Proof.Machine
end

