-- ==== Sys2Proof/Machine/Motion.lean ====
section
/-! DEFINITION. What an encoder does with a picture before it codes it: the input's conversion (R346) and the motion search (R347, R348).
What H.265 or the pipe itself decides (a neighbour's vector, a predictor, a QP, a fractional sample) is free. -/

namespace Sys2Proof.Machine

/-! ## Input (R346) -/

/-- Where and how a picture to encode is stored: in host memory, INFMT, base, pitch, luma width and height, MATRIX. -/
structure EncIn where
  host : Bool
  fmt : Nat
  base : Nat
  pitch : Nat
  w : Nat
  h : Nat
  bt2020 : Bool
  deriving DecidableEq, Repr

/-- K_R and K_B in units of 1/10,000. -/
def EncIn.kr (x : EncIn) : Nat := if x.bt2020 then 2627 else 2126
def EncIn.kb (x : EncIn) : Nat := if x.bt2020 then 593 else 722

/-- R, G, B of a pixel of an R166 layout, as fractions of the largest code. -/
def State.encRgb (v : State) (x : EncIn) (col row : Nat) : Q × Q × Q :=
  let a := x.base + row * x.pitch
  if x.fmt = 0 then
    let n := v.srcNum x.host (a + 4 * col) 4
    (.mk' (field n 0 10) 1023, .mk' (field n 10 10) 1023, .mk' (field n 20 10) 1023)
  else
    let n := v.srcNum x.host (a + 6 * col) 6
    let bits := if x.fmt = 1 then 12 else 16
    let top := 2 ^ bits - 1
    (.mk' (field n 0 bits) top, .mk' (field n 16 bits) top, .mk' (field n 32 bits) top)

/-- Y′, Cb and Cr codes of a pixel, chroma before it is thinned out. -/
def State.encYcc (v : State) (x : EncIn) (col row : Nat) : Nat × Nat × Nat :=
  let (r, g, b) := v.encRgb x col row
  let k (n : Int) : Q := .mk' n 10000
  let y := (((k x.kr).mul r).add ((k (10000 - x.kr - x.kb)).mul g)).add ((k x.kb).mul b)
  let luma := ((Q.ofNat 64).add ((Q.ofNat 876).mul y)).roundUp.toNat
  let diff (c : Q) (kc : Nat) : Nat := ((Q.ofNat 512).add ((Q.mk' 4480000 (10000 - kc)).mul (c.sub y))).roundUp.toNat
  (luma, diff b x.kb, diff r x.kr)

/-- Y′ code of a pixel. -/
def State.encLuma (v : State) (x : EncIn) (col row : Nat) : Nat :=
  if x.fmt = 3 then
    let p := pixelSpan 0x0A x.base x.pitch col row
    let c := pairCodes 0x0A (v.srcNum x.host p.1 p.2)
    if col % 2 = 0 then c.1 else c.2.1
  else (v.encYcc x col row).1

/-- Coded chroma sample (i, j) of plane 1 Cb or 2 Cr. -/
def State.encChroma (v : State) (x : EncIn) (plane i j : Nat) : Nat :=
  if x.fmt = 3 then
    let c (row : Nat) : Nat :=
      let p := pixelSpan 0x0A x.base x.pitch (2 * i) row
      let c := pairCodes 0x0A (v.srcNum x.host p.1 p.2)
      if plane = 1 then c.2.2.1 else c.2.2.2
    (c (2 * j) + c (2 * j + 1) + 1) / 2
  else
    let c (dx dy : Nat) : Nat := let y := v.encYcc x (2 * i + dx) (2 * j + dy); if plane = 1 then y.2.1 else y.2.2
    (c 0 0 + c 1 0 + c 0 1 + c 1 1 + 2) / 4

/-- The converted picture: three planes in raster order. -/
def State.encPlanes (v : State) (x : EncIn) : List (List Nat) :=
  let plane (w h : Nat) (f : Nat → Nat → Nat) : List Nat := (List.range h).flatMap fun y => (List.range w).map fun i => f i y
  [plane x.w x.h (v.encLuma x), plane (x.w / 2) (x.h / 2) (v.encChroma x 1), plane (x.w / 2) (x.h / 2) (v.encChroma x 2)]

/-! ## Motion search (R347) -/

/-- Sample `i` of picture `id` as it is held: a 10-bit value, or an 8-bit one times 4 (R337). -/
def codedSample (id : Nat) (eight : Bool) (i : Nat) : Nat :=
  let v := (Config.decodedSample id i).toNat
  if eight then v % 256 * 4 else v % 1024

/-- A sample of a picture: plane 0 luma, 1 Cb, 2 Cr. A copied CTB shows the concealment reference (R339). -/
def pictureSample (p : Pic) (plane row col : Nat) : Nat :=
  let i := 2 ^ 28 * plane + 16384 * row + col
  let y := if plane = 0 || p.full then row else 2 * row
  let x := if plane = 0 then col else 2 * col
  if p.copied.contains (y / p.ctb * p.across + x / p.ctb) then
    match p.src with
    | none => 512
    | some r => codedSample r.1 r.2 i
  else codedSample p.id p.eight i

/-- Place and size of the PUs of a CU: 2N×2N, 2N×N, N×2N. -/
def pusOfCu (x y n : Nat) : List (Nat × Nat × Nat × Nat) :=
  [(x, y, n, n), (x, y, n, n / 2), (x, y + n / 2, n, n / 2), (x, y, n / 2, n), (x + n / 2, y, n / 2, n)]

/-- The inter PUs of a w × h picture: those of every CU, from 64 × 64 down to 8 × 8, inside it. DEDUCED, log entry 164. -/
def pusOf (w h : Nat) : List (Nat × Nat × Nat × Nat) :=
  [64, 32, 16, 8].flatMap fun n =>
    (List.range (h / n)).flatMap fun j => (List.range (w / n)).flatMap fun i => pusOfCu (n * i) (n * j) n

/-- 16 λ, λ = 0.755 × 2^((QP − 12) ÷ 6) rounded to a multiple of 1/16: the largest n whose n − 1/2 is not above 16 λ. -/
def lambda16 (qp : Nat) : Nat :=
  ((List.range 1200).filter fun n => (25 * (2 * n + 1)) ^ 6 * 2 ^ 12 ≤ 604 ^ 6 * 2 ^ qp).length

/-- What the search of one PU on one reference knows: the converted luma and its width and height, the reference's picture, the State's
counter and the number the free values of this search are applied to, 16 λ. -/
structure PuSearch where
  luma : List Nat
  w : Nat
  h : Nat
  ref : Pic
  pic : Nat
  num : Nat
  lam : Nat
  deriving DecidableEq, Repr

/-- A luma sample of the reference, padded outside the picture as H.265 pads. -/
def PuSearch.refSample (p : PuSearch) (col row : Int) : Nat :=
  pictureSample p.ref 0 (min (p.h - 1) row.toNat) (min (p.w - 1) col.toNat)

/-- SAD of a PU at an integer displacement. -/
def PuSearch.sad (p : PuSearch) (u : Nat × Nat × Nat × Nat) (dx dy : Int) : Nat :=
  (List.range u.2.2.2).foldl (fun a j => (List.range u.2.2.1).foldl (fun a i =>
    let c := p.luma.getD ((u.2.1 + j) * p.w + u.1 + i) 0
    let r := p.refSample (((u.1 + i : Nat) : Int) + dx) (((u.2.1 + j : Nat) : Int) + dy)
    a + (c - r) + (r - c)) a) 0

/-- Cost of a vector in quarter samples: SAD, or SATD where it is fractional, plus floor(λ × m + 1/2). -/
def PuSearch.cost (p : PuSearch) (u : Nat × Nat × Nat × Nat) (m : Int × Int) : Nat :=
  let d := if m.1 % 4 = 0 ∧ m.2 % 4 = 0 then p.sad u (m.1 / 4) (m.2 / 4) else Config.satd p.pic p.num m.1 m.2
  d + (p.lam * Config.mvdBits p.pic p.num m.1 m.2 + 8) / 16

/-- The vector of least cost, the first of equals. -/
def PuSearch.best (p : PuSearch) (u : Nat × Nat × Nat × Nat) (first : Int × Int) (ms : List (Int × Int)) : Int × Int :=
  ms.foldl (fun a m => if p.cost u m < p.cost u a then m else a) first

/-- The vectors around one, `step` quarter samples apart, `n` steps each way; itself first. -/
def around (step n : Nat) (m : Int × Int) : List (Int × Int) :=
  let ds : List Int := (List.range (2 * n + 1)).map fun (i : Nat) => ((i : Int) - n) * step
  m :: ds.flatMap fun dy => ds.map fun dx => (m.1 + dx, m.2 + dy)

/-- A component of a vector rounded to integer precision. DESIGN CHOICE, log entry 154. -/
def roundMv (a : Int) : Int := (a + 2) / 4 * 4

/-- Even displacements that keep a PU inside the window store around the CTB at (x0, y0) (R348), in quarter samples. -/
def windowMvs (x0 y0 : Nat) (u : Nat × Nat × Nat × Nat) : List (Int × Int) :=
  let fits (lo hi at0 n : Int) (d : Int) : Bool := decide (lo ≤ at0 + d ∧ at0 + d + n ≤ hi + 1)
  let ds (k : Nat) : List Int := (List.range (2 * k + 1)).map fun (i : Nat) => 2 * ((i : Int) - k)
  ((ds 64).filter (fits ((y0 : Int) - 32) (y0 + 95) u.2.1 u.2.2.2)).flatMap fun dy =>
    ((ds 128).filter (fits ((x0 : Int) - 96) (x0 + 159) u.1 u.2.2.1)).map fun dx => (4 * dx, 4 * dy)

/-- The three steps of the search; a privileged context's first step also takes the best of the window. -/
def PuSearch.run (p : PuSearch) (u : Nat × Nat × Nat × Nat) (priv : Bool) : Int × Int :=
  let cand := (List.range 6).map fun k => let m := Config.neighbourMv p.pic p.num k; (roundMv m.1, roundMv m.2)
  let wide := if priv then windowMvs (u.1 / 64 * 64) (u.2.1 / 64 * 64) u else []
  let m := p.best u (0, 0) (cand ++ wide)
  let m := p.best u m (around 4 2 m)
  let m := p.best u m (around 2 1 m)
  p.best u m (around 1 1 m)

/-- The motion found for every PU on each reference; `pic` is the State's counter, `aim` the target of the QPs. -/
def searchMotion (luma : List Nat) (w h : Nat) (refs : List Pic) (pic : Nat) (aim : Int) (priv : Bool) : List Motion :=
  (pusOf w h).zipIdx.flatMap fun e => refs.zipIdx.map fun r =>
    let u := e.1
    let ctb := u.2.1 / 64 * ceilDiv w 64 + u.1 / 64
    let p : PuSearch := ⟨luma, w, h, r.1, pic, 2 * e.2 + r.2, lambda16 (Config.codingQp pic ctb aim % 52)⟩
    let m := p.run u priv
    ⟨u.1, u.2.1, u.2.2.1, u.2.2.2, r.2, m.1, m.2⟩

end Sys2Proof.Machine
end

