-- ==== Sys2Proof/Machine/Cdc.lean ====
section
/-! DEFINITION. The picture codec (R325 to R354): contexts and commands, scheduling, what a decoded and an encoded picture leaves in
memory, concealment, output slots, rate control and errors. Decoded pictures are free functions of the stream and the references, coded
ones of the input: H.265 is outside the spec, and the spec leaves an encoder's choices open. -/

namespace Sys2Proof.Machine

def State.ctxOf (s : State) (c : Nat) : CdcCtx := Tbl.get (fun _ => CdcCtx.init) s.cdc.ctxs c

def State.setCtx (s : State) (c : Nat) (x : CdcCtx) : State :=
  { s with cdc := { s.cdc with ctxs := Tbl.set (fun _ => CdcCtx.init) s.cdc.ctxs c x } }

/-! ## Configuration in effect (R327, R356) -/

namespace CdcCtx

def w (x : CdcCtx) (i lo n : Nat) : Nat := wf (x.eff.getD i 0) lo n
def pair (x : CdcCtx) (i : Nat) : Nat := x.w i 0 32 + 2 ^ 32 * x.w (i + 1) 0 32
def encoder (x : CdcCtx) : Bool := x.w 0 1 1 == 1
def chroma422 (x : CdcCtx) : Bool := x.w 0 8 1 == 1
def nsurf (x : CdcCtx) : Nat := x.w 0 12 4
def nout (x : CdcCtx) : Nat := if x.w 0 16 4 = 0 then 16 else x.w 0 16 4
def cmdRing (x : CdcCtx) : Nat := let z := x.w 0 20 4; 2 ^ (if 4 ≤ z ∧ z ≤ 12 then z else 4)
def width (x : CdcCtx) : Nat := if x.w 1 0 14 = 0 then 8192 else x.w 1 0 14
def height (x : CdcCtx) : Nat := if x.w 1 16 14 = 0 then 8192 else x.w 1 16 14
def cmdBase (x : CdcCtx) : Nat := x.pair 2
def inBase (x : CdcCtx) : Nat := x.pair 6
def inSize (x : CdcCtx) : Nat := x.w 8 0 32
def dpb (x : CdcCtx) : Nat := x.pair 9
def outBase (x : CdcCtx) : Nat := x.pair 11
def outPitch (x : CdcCtx) : Nat := x.w 13 0 32
def outStride (x : CdcCtx) : Nat := x.w 14 0 32
def vbr (x : CdcCtx) : Bool := x.w 19 0 1 == 1
def ifill (x : CdcCtx) : Nat := x.w 19 16 8
def rate (x : CdcCtx) : Nat := x.w 20 0 32
def cpb (x : CdcCtx) : Nat := x.w 21 0 32
def period (x : CdcCtx) : Nat := x.w 22 0 32

/-- S: bytes of a surface (R337). -/
def surfSize (x : CdcCtx) : Nat :=
  ceilDiv (ceilDiv x.width 64 * ceilDiv x.height 64 * (if x.chroma422 then 17408 else 13312)) 4096 * 4096

def surfAddr (x : CdcCtx) (k : Nat) : Nat := x.dpb + k * x.surfSize

/-- cap of the next picture in 10^-9 bit, and in whole bits (R350). -/
def capNano (x : CdcCtx) : Nat := x.full - 64000000000
def cap (x : CdcCtx) : Nat := x.capNano / 1000000000

/-- T of the picture in progress in 10^-9 bit (R350), with TFILL as it stood at its start. -/
def target (x : CdcCtx) : Int :=
  let t : Int := ((x.rate * x.period : Nat) : Int) + ((x.full : Int) - (x.cpb * wf x.rc 8 8 * 3906250 : Nat)) / 4
  max 0 (min t x.capNano)

/-- CTBMAX of the picture in progress in bits. -/
def ctbMax (x : CdcCtx) : Nat := 64 * max 1 (wf x.rc 24 8)

end CdcCtx

/-- GEOM's limits for the direction (R335, R345). -/
def CdcCtx.geomOk (x : CdcCtx) : Bool :=
  if x.encoder then
    64 ≤ x.width && x.width ≤ 4096 && x.width % 8 == 0 && 64 ≤ x.height && x.height ≤ 2304 && x.height % 8 == 0 && !x.chroma422
  else x.width ≤ 8192 && x.height ≤ 8192 && x.width * x.height ≤ 8912896

/-- A range inside installed DRAM, outside the flatten region (R128) and the CONTROL windows. -/
def State.cdcRange (s : State) (a n : Nat) : Bool := a + n ≤ s.capacity && !s.meetsFlatten a n && !s.meetsControl a n

/-- The enable of R327 is accepted: no ring, the command ring among them, meets a CONTROL window. DEDUCED, log entries 101, 102. -/
def State.ctxOk (s : State) (x : CdcCtx) : Bool :=
  x.geomOk && x.nsurf != 0 && (x.encoder || x.w 0 16 4 != 1) &&
    [x.cmdBase, x.inBase, x.dpb, x.outBase].all (fun a => a % 4096 == 0) &&
    s.cdcRange x.cmdBase (64 * x.cmdRing) && !s.meetsFlatten x.dpb ((x.nsurf + 1) * x.surfSize) &&
    (if x.encoder then
      s.cdcRange x.outBase x.outStride && decide (x.rate * x.period + 64000000000 ≤ x.cpb * 1000000000)
     else s.cdcRange x.inBase x.inSize && s.cdcRange x.outBase (x.nout * x.outStride + 64 * x.nout))

/-- A write to CTX[c].CFG: EN to 1 latches the configuration, or is refused; while EN = 1 only EN, LIVE and PIPES change.
DEDUCED, log entry 102. -/
def effCdcCfg (c : Nat) (value : Word) (s : State) : State :=
  if 32 ≤ c then s
  else
    let was := s.flag (F.cdcCtxCfgEn c)
    let on := bit value.toNat 0
    let s := if was then s.store (Reg.cdcCtxCfg c) ((s.rd (Reg.cdcCtxCfg c) &&& ~~~0xF5#32) ||| (value &&& 0xF5))
      else s.store (Reg.cdcCtxCfg c) value
    if was || !on then s
    else
      let x := s.ctxOf c
      let y : CdcCtx := { x with
        eff := s.rdList (Reg.cdcCtxCfg c) 23, order := 0, surfs := List.replicate 16 (Pic.coded 0, false), ref := none }
      let y := { y with prev := y.nout - 1, full := y.cpb * y.ifill * 3906250 }
      if !s.ctxOk y then (s.put (F.cdcCtxCfgEn c) 0).put (F.cdcCtxStatusCfgerr c) 1
      else
        let p := Tbl.get (fun _ => Producer.init) s.producers (256 + c)
        let p' : Producer := { p with newest := none, older := [] }
        { s.setCtx c y with producers := Tbl.set (fun _ => Producer.init) s.producers (256 + c) p' }

def execCdcContextEnable (agent ctx : Nat) (value : Word) (s : State) : Host.Outcome State Fault Refusal :=
  s.done (s.guardWrite agent (Reg.cdcCtxCfg ctx) (effCdcCfg ctx value))

def execCdcContextDisable (agent ctx : Nat) (value : Word) (s : State) : Host.Outcome State Fault Refusal :=
  s.done (s.guardWrite agent (Reg.cdcCtxCfg ctx) (effCdcCfg ctx value))

/-! ## Errors (R353) -/

/-- The context's pipe becomes free. -/
def State.pipeFree (s : State) (p c : Nat) : State :=
  let s := { s with cdc := { s.cdc with pipes := s.cdc.pipes.set p none } }
  let s := (s.put ⟨Reg.cdcStatus, p, 1⟩ 0).put (F.cdcCtxStatusRunning c) 0
  s.setCtx c { s.ctxOf c with cmd := none, coded := false }

/-- Context c halts. -/
def State.cdcHalt (s : State) (p c code : Nat) : State :=
  let s := (s.put (F.cdcCtxStatusHalted c) 1).put (F.cdcCtxStatusErrcode c) code
  (s.pipeFree p c).raise (F.cdcCtxEventCdcError c) (621 + c)

/-- The error of an access of context c: 4 refused, 5 no data. -/
def State.cdcAccess (s : State) (c : Nat) (write : Bool) (space a n : Nat) : Option Nat :=
  if n = 0 then none
  else if !s.granted (s.ctxOf c).agent write space a n then some 4
  else if space == 0 && (if write then s.frozen else s.localDead a n) then some 5
  else none

/-- The first granule of [a, a + n) whose access fails, with the error: accesses are checked one by one (R328). -/
def State.cdcSpan (s : State) (c : Nat) (write : Bool) (space a n : Nat) : Option (Nat × Nat) :=
  (pieces a n).findSome? fun p => (s.cdcAccess c write space p.1 p.2).map fun e => (e, p.1)

/-- Context c writes bytes to local memory, granule by granule up to the first that fails. -/
def State.cdcStore (s : State) (c a : Nat) (bs : List Nat) : State × Option (Nat × Nat) :=
  (pieces a bs.length).foldl (fun r p => match r.2 with
    | some _ => r
    | none => match r.1.cdcAccess c true 0 p.1 p.2 with
      | some e => (r.1, some (e, p.1))
      | none => (r.1.localStore 32 p.1 ((bs.drop (p.1 - a)).take p.2), none)) (s, none)

/-- A refusal is recorded, and the context halts. -/
def State.cdcFail (s : State) (p c code : Nat) (write : Bool) (a : Nat) : State :=
  (if code = 4 then s.violation (s.ctxOf c).agent write 1 a else s).cdcHalt p c code

/-- A write to CTX[c].STATUS: CFGERR clears, RESUME and SKIP act on a halted context (R353). -/
def effCdcStatus (c : Nat) (value : Word) (s : State) : State :=
  if 32 ≤ c then s
  else
    let s := s.store (Reg.cdcCtxStatus c) value
    if !s.flag (F.cdcCtxStatusHalted c) || !(bit value.toNat 9 || bit value.toNat 10) then s
    else
      let s := (s.put (F.cdcCtxStatusHalted c) 0).put (F.cdcCtxStatusErrcode c) 0
      if bit value.toNat 10 then
        s.put (F.cdcCtxCmdheadIndex c) ((s.get (F.cdcCtxCmdheadIndex c) + 1) % (s.ctxOf c).cmdRing)
      else s

def execCdcResume (agent ctx : Nat) (value : Word) (s : State) : Host.Outcome State Fault Refusal :=
  s.done (s.guardWrite agent (Reg.cdcCtxStatus ctx) (effCdcStatus ctx value))

def execCdcSkip (agent ctx : Nat) (value : Word) (s : State) : Host.Outcome State Fault Refusal :=
  s.done (s.guardWrite agent (Reg.cdcCtxStatus ctx) (effCdcStatus ctx value))

/-! ## Scheduling (R328, R332, R333) -/

/-- Free bytes of an encoder's output ring. -/
def State.outFree (s : State) (c : Nat) : Nat :=
  let n := (s.ctxOf c).outStride
  let w := s.get (F.cdcCtxWofsBytes c)
  let r := s.get (F.cdcCtxRdofsBytes c)
  if w = r then n else (r + n - w) % max 1 n

/-- Context c is ready. -/
def State.ctxReady (s : State) (c : Nat) : Bool :=
  let x := s.ctxOf c
  s.flag (F.cdcCtxCfgEn c) && !s.flag (F.cdcCtxStatusHalted c) &&
    s.get (F.cdcCtxCmdheadIndex c) != s.get (F.cdcCtxCmdtailIndex c) && !s.cdc.pipes.contains (some c) &&
    (!x.encoder || ceilDiv x.capNano 8000000000 + 127 ≤ s.outFree c)

/-- Pipe p is free; one that is to be switched off takes no further picture (R333). -/
def State.pipeIsFree (s : State) (p : Nat) : Bool :=
  let d := 57 + p
  p < 4 && s.part.hasCodec && bit (s.get F.cdcCtlPipeen) p && s.domOn d && bit (s.rd (Reg.pwrDomctl (d / 32))).toNat (d % 32) &&
    s.takesWork && (s.cdc.pipes.getD p none).isNone

/-- A field of a command word. -/
def cmdF (d : List Nat) (o lo n : Nat) : Nat := bltF d o lo n

/-- A 4-bit surface of a list of eight or four. -/
def nib (d : List Nat) (o i : Nat) : Nat := cmdF d o (4 * i) 4

/-- The error of a command word: 1 CRC, 2 a field, 3 a surface (R328 to R330, R336), 0 none. -/
def cmdCheck (x : CdcCtx) (d : List Nat) : Nat :=
  let kind := cmdF d 0 0 2
  let surf (k : Nat) : Bool := k < x.nsurf
  if crc32c (d.take 60) != recField d 0x3C 4 then 1
  else if kind != (if x.encoder then 1 else 0) then 2
  else if x.encoder then
    let ok := cmdF d 0 19 13 == 0 && cmdF d 4 26 6 == 0 && cmdF d 4 20 6 ≤ 51 && cmdF d 4 0 20 % 64 == 0 &&
      recField d 8 8 % 64 == 0 && cmdF d 0x20 0 16 != 0 && (d.drop 0x24).take 24 == List.replicate 24 0
    let refs := cmdF d 0 3 1 == 1 || (surf (cmdF d 0 8 4) && (cmdF d 0 12 4 == 15 || surf (cmdF d 0 12 4)))
    if !ok then 2 else if !surf (cmdF d 0 4 4) || !refs then 3 else 0
  else
    let nout := cmdF d 0 8 3
    let ok := cmdF d 0 11 21 == 0 && nout ≤ 4 && recField d 8 8 % 64 == 0 && cmdF d 0x10 0 16 % 4 == 0 &&
      (d.drop 0x28).take 20 == List.replicate 20 0
    let rpl (o : Nat) : Bool := (List.range 8).all fun i => nib d o i == 15 || surf (nib d o i)
    if !ok then 2
    else if !surf (cmdF d 0 4 4) || !((List.range nout).all fun i => surf (nib d 4 i)) || !rpl 0x18 || !rpl 0x1C then 3 else 0

/-- The context pipe p takes, with its class (R332). -/
def State.pickCtx (s : State) (p : Nat) : Option (Nat × Bool) :=
  let cand (c : Nat) : Bool := s.ctxReady c && bit (s.get (F.cdcCtxCfgPipes c)) p
  let live := (List.range 32).any fun c => cand c && s.flag (F.cdcCtxCfgLive c)
  let ptr := if live then s.cdc.ptrLive else s.cdc.ptr
  (((List.range 32).map fun i => (ptr + i) % 32).find? fun c => cand c && (!live || s.flag (F.cdcCtxCfgLive c))).map fun c => (c, live)

/-- Bytes of an input row of a format. -/
def encRow (fmt w : Nat) : Nat := match fmt with
  | 0 => 4 * w
  | 3 => storedWidth 0x0A w
  | _ => 6 * w

/-- The picture an encode command names (R330, R346). -/
def CdcCtx.input (x : CdcCtx) (d : List Nat) : EncIn :=
  ⟨cmdF d 0 18 1 == 1, cmdF d 0 16 2, recField d 8 8, cmdF d 4 0 20, x.width, x.height, x.w 0 9 1 == 1⟩

/-- Rows of the input: address and length. -/
def EncIn.rows (x : EncIn) : List (Nat × Nat) := (List.range x.h).map fun y => (x.base + y * x.pitch, encRow x.fmt x.w)

/-- The contexts that CDC.PRIV names: an encoder each, the second field ignored where it names the first's. DEDUCED, log entry 164. -/
def State.privCtxs (s : State) : List (Option Nat) :=
  let named (en : Bool) (c : Nat) : Option Nat := if en && (s.ctxOf c).encoder then some c else none
  let a := named (s.flag F.cdcPrivEn0) (s.get F.cdcPrivCtx0)
  let b := named (s.flag F.cdcPrivEn1) (s.get F.cdcPrivCtx1)
  [a, if b == a then none else b]

/-- A picture of context c starts: a change of CDC.PRIV takes effect on it, and its window is at the first CTB (R348). -/
def State.startWindow (s : State) (c : Nat) (refs : List Pic) : State :=
  let kept := s.cdc.windows.map fun w => match w with
    | some x => if x.ctx = c then none else some x
    | none => none
  let ws := (kept.zip s.privCtxs).map fun e => if e.2 = some c then some (CdcWindow.mk c refs 0 0) else e.1
  { s with cdc := { s.cdc with windows := ws } }

/-- Surfaces of a P picture's references (R330). -/
def encRefs (d : List Nat) : List Nat :=
  if cmdF d 0 3 1 = 1 then [] else cmdF d 0 8 4 :: if cmdF d 0 12 4 = 15 then [] else [cmdF d 0 12 4]

/-- The bytes that a surface of context c takes for a picture (R337). -/
def CdcCtx.surfBytes (x : CdcCtx) (p : Pic) : List Nat := (List.range x.surfSize).map fun i => (Config.surfaceByte p.key i).toNat

/-- The picture that surface k of context c holds: the one written to it, or, where something else has written there since, one that its
bytes give. -/
def State.surfPic (s : State) (c k : Nat) : Pic :=
  let x := s.ctxOf c
  let p := (x.surfs.getD k (Pic.coded 0, false)).1
  let bs := s.dramRead (x.surfAddr k) x.surfSize
  if bs = x.surfBytes p then p else { p with id := Config.storedPicture bs, copied := [] }

/-- Host granules of an encode's input. -/
def EncIn.granules (x : EncIn) : List Nat :=
  if x.host then (x.rows.flatMap fun r => (pieces r.1 r.2).map fun p => p.1 / 64).eraseDups else []

/-- A command that has been checked: TFILL and CTBMAX take effect on its picture, an encoder's window is set, and its input is read from the host where it lies there, non-real-time. -/
def State.startCmd (s : State) (p c : Nat) (d : List Nat) : State :=
  let x := s.ctxOf c
  let s := s.setCtx c { x with cmd := some d, coded := false, got := [], rc := s.rd (Reg.cdcCtxRccfg c), due := 0 }
  if !x.encoder then s
  else
    let i := x.input d
    let s := s.startWindow c ((encRefs d).map (s.surfPic c))
    if !i.host then s
    else match i.rows.findSome? fun r => s.cdcSpan c false 1 r.1 r.2 with
    | some (e, a) => s.cdcFail p c e false a
    | none => s.cxlAskAll ⟨0, 0, .codec p, false, 0, 0, 0, (c, 0, 0, 0), false, 0, 0⟩ i.granules

/-- A host granule of pipe p's input comes: kind 0 with data, else CDC_E_BUS (R353). -/
def State.codecArrive (s : State) (p : Nat) (r : CxlRead) (kind : Nat) (data : List Nat) : State :=
  match s.cdc.pipes.getD p none with
  | none => s
  | some c =>
    if c != r.key.1 || (s.ctxOf c).cmd.isNone || (s.ctxOf c).coded then s
    else if kind != 0 then s.cdcHalt p c 5
    else s.setCtx c { s.ctxOf c with got := (r.addr / 64, data) :: (s.ctxOf c).got }

/-- Pipe p takes a ready context and its command; a context other than its last loads for 16 µs. DEDUCED, log entry 101. -/
def State.pickPipe (s : State) (p : Nat) : State :=
  if !s.pipeIsFree p then s
  else match s.pickCtx p with
  | none => s
  | some (c, live) =>
    let load := if s.cdc.last.getD p none = some c then 0 else 16000
    let s := { s with cdc := { s.cdc with
      pipes := s.cdc.pipes.set p (some c), last := s.cdc.last.set p (some c)
      ready := s.cdc.ready.set p (s.time.uptime + load)
      ptrLive := if live then (c + 1) % 32 else s.cdc.ptrLive, ptr := if live then s.cdc.ptr else (c + 1) % 32 } }
    let s := ((s.put ⟨Reg.cdcStatus, p, 1⟩ 1).put ⟨Reg.cdcStatus, 8 + 5 * p, 5⟩ c).put (F.cdcCtxStatusRunning c) 1
    let s := s.put (F.cdcCtxStatusPipe c) p
    let x := s.ctxOf c
    let a := x.cmdBase + 64 * s.get (F.cdcCtxCmdheadIndex c)
    match s.cdcAccess c false 0 a 64 with
    | some e => s.cdcFail p c e false a
    | none =>
      let d := s.dramRead a 64
      let s := s.useLocal 32 a 64
      match cmdCheck x d with
      | 0 => s.startCmd p c d
      | e => s.cdcHalt p c e

/-- CDC_PIPE_PICK of pipe p: in a clock the free pipes pick in ascending order. DEDUCED, log entry 101. -/
def effPick (p : Nat) (s : State) : State := (List.range (p + 1)).foldl State.pickPipe s

def execCdcPipePick (pipe : Nat) (s : State) : Host.Outcome State Fault Refusal := s.done (effPick pipe s)

/-! ## Decoding (R326, R329, R337 to R342) -/

/-- Bytes of a ring from an offset, wrapping. -/
def State.ringRead (s : State) (base size ofs n : Nat) : List Nat :=
  let k := min n (size - ofs)
  s.dramRead (base + ofs) k ++ s.dramRead base (n - k)

/-- Parts of a ring, as address and length. -/
def ringParts (base size ofs n : Nat) : List (Nat × Nat) :=
  let k := min n (size - ofs)
  [(base + ofs, k), (base, n - k)]

/-- Emulation-prevention bytes removed: a 3 after two zeros; `z` zeros stand before the list. PRESUMED, log entry 184. -/
def unescape : Nat → List Nat → List Nat
  | _, [] => []
  | z, b :: bs => if 2 ≤ z && b == 3 then unescape 0 bs else b :: unescape (if b = 0 then z + 1 else 0) bs

/-- What a parameter block says of its picture (R335, R336, R340): CTB size, luma size, 8-bit samples, 4:2:2, a chroma format and bit depth
inside R335, and the conformance window in luma samples. -/
structure CodedForm where
  ctb : Nat
  w : Nat
  h : Nat
  eight : Bool
  full : Bool
  main : Bool
  left : Nat
  top : Nat
  width : Nat
  height : Nat
  deriving DecidableEq, Repr

/-- The form that the words of a parameter block give; an element that the block does not hold is inferred to be 0.
PRESUMED, log entry 184. -/
def codedForm (ws : List Nat) (f : PicForm) (z : PicWindow) : CodedForm :=
  let n := ws.length - 2 * f.slices
  let v (i : Nat) : Nat := if i < n then ws.getD i 0 else 0
  let full := v f.chroma == 2
  let sy := if full then 1 else 2
  { ctb := 2 ^ min 32 (v f.minCb + 3 + v f.diffCb), w := v f.width, h := v f.height, eight := v f.depth == 0, full := full
    main := (full || v f.chroma == 1) && v f.depth ≤ 2 && 2 * (v z.left + v z.right) ≤ v f.width &&
      sy * (v z.top + v z.bottom) ≤ v f.height
    left := 2 * v z.left, top := sy * v z.top
    width := v f.width - 2 * (v z.left + v z.right), height := v f.height - sy * (v z.top + v z.bottom) }

/-- Data of the slice segments: offset and length stand in the last words of the parameter block (R329). -/
def sliceData (ws : List Nat) (k : Nat) (au : List Nat) : List (List Nat) :=
  (List.range k).map fun j =>
    let i := ws.length - 2 * k + 2 * j
    unescape 0 ((au.drop (ws.getD i 0)).take (ws.getD (i + 1) 0))

/-- What a decode makes of its parameter block and access unit, with what H.265 finds in the stream. -/
structure Decoded extends CodedForm where
  words : List Nat
  data : List (List Nat)
  err : Nat
  copied : List Nat
  used : List Nat
  deriving DecidableEq, Repr

/-- Bytes of the access unit's data that a decode command names. -/
def State.auLength (s : State) (x : CdcCtx) (d : List Nat) : Nat := ofBytesLE (s.ringRead x.inBase x.inSize (recField d 0x14 4) 4)

/-- What decode command d reads (R329). -/
def State.decoded (s : State) (x : CdcCtx) (d : List Nat) (err : Nat) (copied : List Nat) (f : PicForm) (z : PicWindow)
    (used : List Nat) : Decoded :=
  let bs := s.dramRead (recField d 8 8) (cmdF d 0x10 0 16)
  let ws := (List.range (bs.length / 4)).map fun i => recField bs (4 * i) 4
  let au := (s.ringRead x.inBase x.inSize (recField d 0x14 4) (32 + s.auLength x d)).drop 32
  { codedForm ws f z with words := ws, data := sliceData ws f.slices au, err := err, copied := copied, used := used }

/-- The surface that a reference list entry names: the concealment reference's for a MISSING one, none for grey (R339). -/
def CdcCtx.entrySurf (x : CdcCtx) (d : List Nat) (n : Nat) : Option Nat :=
  let e := if n < 8 then nib d 0x18 n else nib d 0x1C (n % 8)
  if e = 15 then x.ref else some e

/-- The concealment reference moves out of a surface about to be written (R338). -/
def State.saveRef (s : State) (c k : Nat) : State × Option (Nat × Nat) :=
  let x := s.ctxOf c
  if x.ref = some k then
    let r := (s.useLocal 32 (x.surfAddr k) x.surfSize).cdcStore c (x.surfAddr x.nsurf) (s.dramRead (x.surfAddr k) x.surfSize)
    match r.2 with
    | some _ => r
    | none =>
      (r.1.setCtx c { x with ref := some x.nsurf, surfs := x.surfs.set x.nsurf (x.surfs.getD k (Pic.coded 0, false)) }, none)
  else (s, none)

/-- A chroma code of output row y of a picture, in its window (R340). -/
def outChroma (pic : Pic) (plane y col : Nat) : Nat :=
  let z := pic.info
  let at' (n : Nat) : Nat := pictureSample pic plane (n + (if pic.full then z.top else z.top / 2)) (col + z.left / 2)
  if pic.full then at' y
  else
    let n := y / 2
    if y % 2 = 0 then at' n else (at' n + at' (min (n + 1) ((z.height + 1) / 2 - 1)) + 1) / 2

/-- One output row in format 0x0A. -/
def outRow (pic : Pic) (y : Nat) : List Nat :=
  let luma (x : Nat) : Nat := pictureSample pic 0 (y + pic.info.top) (x + pic.info.left)
  (List.range (ceilDiv pic.info.width 2)).flatMap fun i =>
    bytesLE 5 (outChroma pic 1 y i + 2 ^ 10 * luma (2 * i) + 2 ^ 20 * outChroma pic 2 y i + 2 ^ 30 * luma (2 * i + 1))

/-- Output slots that a layer holds or that hold the newest completed picture (R342). -/
def State.outTaken (s : State) (c k : Nat) : Bool :=
  (s.layers.any fun e => match e.2.held with | some r => r.producer == 256 + c && r.slot == k | none => false) ||
    (match (Tbl.get (fun _ => Producer.init) s.producers (256 + c)).newest with | some r => r.slot == k | none => false)

/-- The header of an output slot for a picture, tainted or not, with its completion stamp (R341). -/
def slotBytes (z : PicInfo) (tainted : Bool) (stamp : Nat) : List Nat :=
  bytesLE 4 z.poc ++ bytesLE 4 (ofBool z.concealed + 2 * ofBool tainted) ++ bytesLE 8 stamp ++ bytesLE 4 z.rtp ++
    bytesLE 4 (if z.concealed then z.misspoc else 0) ++ bytesLE 4 z.order ++ bytesLE 2 z.width ++ bytesLE 2 z.height ++
    List.replicate 32 0

/-- An event is due at the completion of context c's command (R331). -/
def State.dueEvent (s : State) (c i : Nat) : State := s.setCtx c { s.ctxOf c with due := (s.ctxOf c).due ||| 2 ^ i }

/-- Writes one after the other, each address with its bytes, up to the first that fails. -/
def State.cdcStores (s : State) (c : Nat) (l : List (Nat × List Nat)) : State × Option (Nat × Nat) :=
  l.foldl (fun r w => if r.2.isSome then r else r.1.cdcStore c w.1 w.2) (s, none)

/-- One output action: the surface's picture as its command left it; false where an access fails (R340 to R342). -/
def State.outAction (s : State) (p c surf : Nat) : State × Bool :=
  let x := s.ctxOf c
  match ((List.range x.nout).map fun k => (x.prev + 1 + k) % x.nout).find? fun k => !s.outTaken c k with
  | none => ((s.bump (F.cdcCtxStatusOutdrop c)).dueEvent c 1, true)
  | some k =>
    let base := x.outBase + k * x.outStride
    match s.cdcSpan c false 0 (x.surfAddr surf) x.surfSize with
    | some (e, a) => (s.cdcFail p c e false a, false)
    | none =>
      let s := s.useLocal 32 (x.surfAddr surf) x.surfSize
      let pic := s.surfPic c surf
      let rows := (List.range pic.info.height).map fun y => (base + y * x.outPitch, outRow pic y)
      let hdr := (x.outBase + x.nout * x.outStride + 64 * k, slotBytes pic.info (x.surfs.getD surf (Pic.coded 0, false)).2 s.now)
      match s.cdcStores c (rows ++ [hdr]) with
      | (s, some (e, a)) => (s.cdcFail p c e true a, false)
      | (s, none) => ((s.setCtx c { s.ctxOf c with prev := k }).produce (256 + c) k base x.outPitch s.now, true)

/-- The first read of a decode that fails: its parameter block, its access unit. -/
def State.streamError (s : State) (c : Nat) (d : List Nat) : Option (Nat × Nat) :=
  let x := s.ctxOf c
  ((recField d 8 8, cmdF d 0x10 0 16) :: ringParts x.inBase x.inSize (recField d 0x14 4) 32 ++
    ringParts x.inBase x.inSize (recField d 0x14 4) (32 + s.auLength x d)).findSome? fun q => s.cdcSpan c false 0 q.1 q.2

/-- Surfaces that a decode reads: its references, the concealment reference where CTBs are copied, and the one that is moved (R338, R339). -/
def CdcCtx.readSurfs (x : CdcCtx) (d : List Nat) (i : Decoded) : List Nat :=
  (i.used.filterMap (x.entrySurf d) ++ (if i.copied.isEmpty then [] else x.ref.toList) ++
    (if x.ref = some (cmdF d 0 4 4) then [cmdF d 0 4 4] else [])).eraseDups

/-- The first read of a surface that fails. -/
def State.surfError (s : State) (c : Nat) (ks : List Nat) : Option (Nat × Nat) :=
  let x := s.ctxOf c
  ks.findSome? fun k => s.cdcSpan c false 0 (x.surfAddr k) x.surfSize

/-- A picture outside R335, CFG.CHROMA or GEOM (R336). -/
def pictureOutside (d : Decoded) (x : CdcCtx) : Bool :=
  d.err == 3 || !d.main || !([16, 32, 64].contains d.ctb) || 8192 < d.w || 8192 < d.h || 8912896 < d.w * d.h ||
    d.full != x.chroma422 || x.width < d.width || x.height < d.height

/-- A rate that follows the unit clock: a quarter more in Noon, half at thermal stage 1 and above (R334, R408, R413). -/
def State.unitRate (s : State) (base : Nat) : Nat :=
  if 1 ≤ s.get F.thmStatusStage then base / 2 else if s.get F.pwrStatusState = 1 then base * 5 / 4 else base

/-- The pipe's picture ends: `n` luma samples at `rate` a second, `bits` bits at 160 Mbit/s of slice data, after its context has been loaded
(R333, R334). DEDUCED, log entry 155. -/
def State.pictureEnd (s : State) (p n rate bits : Nat) : State :=
  let t := max (ceilDiv (n * 1000000000) (s.unitRate rate)) (ceilDiv (bits * 1000000000) (s.unitRate 160000000))
  let due := s.cdc.ready.getD p 0 + t
  if s.time.uptime < due then s.elapse (due - s.time.uptime) else s

/-- What a failed command must not have moved goes back: output slots, the concealment reference and the decoding order (R353). -/
def State.keepOutputs (s t : State) (c : Nat) : State :=
  let x := s.ctxOf c
  { t.setCtx c { t.ctxOf c with prev := x.prev, order := x.order, ref := x.ref } with producers := s.producers }

/-- A surface of context c takes a picture. -/
def State.putPicture (s : State) (c k : Nat) (p : Pic) (tainted : Bool) : State × Option (Nat × Nat) :=
  let x := s.ctxOf c
  match s.cdcStore c (x.surfAddr k) (x.surfBytes p) with
  | (s, some e) => (s, some e)
  | (s, none) => (s.setCtx c { s.ctxOf c with surfs := (s.ctxOf c).surfs.set k (p, tainted) }, none)

/-- The picture that a decode makes, with whether it is tainted (R335, R338, R339). -/
def State.decodedPic (s : State) (c : Nat) (d : List Nat) (i : Decoded) : Pic × Bool :=
  let x := s.ctxOf c
  let surf (n : Nat) : Option Nat := x.entrySurf d n
  let entry (n : Nat) : Nat := if n < 8 then nib d 0x18 n else nib d 0x1C (n % 8)
  let concealed := (i.used.any fun n => entry n == 15) || !i.copied.isEmpty
  let tainted := concealed || i.used.any fun n => entry n != 15 && (x.surfs.getD (entry n) (Pic.coded 0, false)).2
  let refs := i.used.map fun n => match surf n with
    | none => []
    | some k => (s.surfPic c k).key
  let rtp := ofBytesLE ((s.ringRead x.inBase x.inSize (recField d 0x14 4) 12).drop 8)
  let info : PicInfo := ⟨recField d 0x20 4, rtp, recField d 0x24 4, concealed, x.order, i.left, i.top, i.width, i.height⟩
  let src := x.ref.map fun k => ((s.surfPic c k).id, (s.surfPic c k).eight)
  (⟨Config.decodedPicture (i.words ++ [info.poc]) i.data refs, i.eight, i.full, i.ctb, ceilDiv i.w i.ctb, i.copied, src, info⟩, tainted)

/-- The decoded picture takes surface k, and the output actions follow. -/
def State.decodePicture (s : State) (p c : Nat) (d : List Nat) (i : Decoded) : State :=
  let k := cmdF d 0 4 4
  let x := s.ctxOf c
  let pic := s.decodedPic c d i
  let s := (x.readSurfs d i).foldl (fun s k => s.useLocal 32 (x.surfAddr k) x.surfSize) s
  match s.saveRef c k with
  | (s, some (e, a)) => s.cdcFail p c e true a
  | (s, none) =>
    match s.putPicture c k pic.1 pic.2 with
    | (s, some (e, a)) => s.cdcFail p c e true a
    | (s, none) =>
      let x := s.ctxOf c
      let missing := i.used.any fun n => (if n < 8 then nib d 0x18 n else nib d 0x1C (n % 8)) == 15
      let s' := s.setCtx c { x with ref := if pic.2 then x.ref else some k, order := x.order + 1, coded := true }
      let s' := if missing then s'.put (F.cdcCtxMisspocPoc c) (recField d 0x24 4) else s'
      let s' := if pic.1.info.concealed then s'.dueEvent c 0 else s'
      let r := (List.range (cmdF d 0 8 3)).foldl (fun (a : State × Bool) n => if a.2 then a.1.outAction p c (nib d 4 n) else a) (s', true)
      if r.2 then r.1 else s.keepOutputs r.1 c

/-- CDC_DECODE: the parameter block and the access unit are read, and the picture and its output actions follow.
DESIGN CHOICE, log entry 100. -/
def effDecode (p err : Nat) (copied : List Nat) (f : PicForm) (z : PicWindow) (used : List Nat) (s : State) : State :=
  match s.cdc.pipes.getD p none with
  | none => s
  | some c =>
    let x := s.ctxOf c
    match x.cmd with
    | none => s
    | some d =>
      if x.encoder || x.coded then s
      else match s.streamError c d with
      | some (e, a) => (s.pictureEnd p 0 534773760 0).cdcFail p c e false a
      | none =>
        let i := s.decoded x d err copied f z used
        let s := ((recField d 8 8, cmdF d 0x10 0 16) :: ringParts x.inBase x.inSize (recField d 0x14 4) (32 + s.auLength x d)).foldl
          (fun s q => s.useLocal 32 q.1 q.2) s
        if pictureOutside i x then (s.pictureEnd p 0 534773760 0).cdcHalt p c 3
        else
          let s := s.pictureEnd p (i.w * i.h) 534773760 (8 * (i.data.map List.length).sum)
          if i.err = 5 then s.cdcHalt p c 5
          else match s.surfError c (x.readSurfs d i) with
          | some (e, a) => s.cdcFail p c e false a
          | none => s.decodePicture p c d i

def execCdcDecode (pipe err : Nat) (copied : List Nat) (form : PicForm) (window : PicWindow) (used : List Nat) (s : State) :
    Host.Outcome State Fault Refusal := s.done (effDecode pipe err copied form window used s)

/-! ## Encoding (R346, R349 to R352) -/

/-- The first read of an encode that fails: header bytes, input, references. -/
def State.encodeError (s : State) (c : Nat) (d : List Nat) : Option (Nat × Nat) :=
  let x := s.ctxOf c
  match s.cdcSpan c false 0 (recField d 0x18 8) (cmdF d 0x20 0 16) with
  | some e => some e
  | none => match (x.input d).rows.findSome? fun r => s.cdcSpan c false (cmdF d 0 18 1) r.1 r.2 with
    | some e => some e
    | none => s.surfError c (encRefs d)

/-- Filler data NAL units of n bytes, n at least 7 (R351). -/
def filler (n : Nat) : List Nat := [0, 0, 0, 1, 0x4C, 1] ++ List.replicate (n - 7) 0xFF ++ [0x80]

/-- The picture is converted and searched (R346 to R348), and its reconstruction takes the TARGET surface; the windows end at its last CTB. -/
def State.encodePicture (s : State) (c : Nat) (d : List Nat) : State × Option (Nat × Nat) :=
  let x := s.ctxOf c
  let i := x.input d
  let v := x.got.foldl (fun v e => v.hostSee (64 * e.1) e.2) s
  let priv := s.cdc.windows.any fun w => match w with | some w => w.ctx == c | none => false
  let planes := v.encPlanes i
  let refs := (encRefs d).map (s.surfPic c)
  let pic := Config.encodedPicture s.fresh planes (refs.map Pic.key)
  let reads := (recField d 0x18 8, cmdF d 0x20 0 16) :: (if i.host then [] else i.rows) ++
    (encRefs d).map fun k => (x.surfAddr k, x.surfSize)
  let s := reads.foldl (fun s r => s.useLocal 32 r.1 r.2) s
  let s := (s.setCtx c { x with
    got := [], src := planes, motion := searchMotion (planes.getD 0 []) i.w i.h refs s.fresh x.target priv }).tick
  let last (n : Nat) : Nat := (ceilDiv n 64 - 1) * 64
  let move (w : CdcWindow) : CdcWindow := if w.ctx = c then { w with x0 := last i.w, y0 := last i.h } else w
  let ws := s.cdc.windows.map (Option.map move)
  { s with cdc := { s.cdc with windows := ws } }.putPicture c (cmdF d 0 4 4) (Pic.coded pic) false

/-- Bits spent so far in a picture, whether it has gone over to floor mode, and rows that hold floor-mode CTBs (R352). -/
structure RcRun where
  spent : Nat
  floor : Bool
  rows : Nat
  deriving DecidableEq, Repr

/-- What the rate control of a picture goes by: cap and CTBMAX in bits, NC, NR and the floor cost of a CTB. -/
structure RcRule where
  cap : Nat
  ctbMax : Nat
  nc : Nat
  nr : Nat
  fb : Nat
  deriving DecidableEq, Repr

/-- The row budget A of row r. -/
def RcRule.budget (x : RcRule) (spent r : Nat) : Int := (x.cap : Int) - spent - ((x.nr - 1 - r) * (x.nc * x.fb + 16) : Nat)

/-- Row r: each CTB is coded normally while the test holds, and from the first that fails it in floor mode; one above CTBMAX takes floor
form. Floor forms and the row's overhead keep to their bounds. -/
def RcRule.row (x : RcRule) (ctbs : List (Nat × Nat)) (ovh : Nat) (a : RcRun) (r : Nat) : RcRun :=
  let budget := x.budget a.spent r
  let z := (List.range x.nc).foldl (fun (b : Nat × Bool) i =>
    let e := ctbs.getD (x.nc * r + i) (0, 0)
    let floor := b.2 || decide (budget < (b.1 + x.ctbMax + (x.nc - 1 - i) * x.fb + 16 : Nat))
    (b.1 + (if floor || x.ctbMax < e.1 then min e.2 x.fb else e.1), floor)) (0, a.floor)
  ⟨a.spent + z.1 + min ovh 16, z.2, a.rows + ofBool z.2⟩

/-- All rows of a picture, from the header's bits on. -/
def RcRule.run (x : RcRule) (ctbs : List (Nat × Nat)) (rows : List Nat) (hdr : Nat) : RcRun :=
  (List.range x.nr).foldl (fun a r => x.row ctbs (rows.getD r 0) a r) ⟨hdr, false, 0⟩

/-- The rate control of context c's picture d. -/
def CdcCtx.rcRule (x : CdcCtx) (d : List Nat) : RcRule :=
  ⟨x.cap, x.ctbMax, ceilDiv x.width 64, ceilDiv x.height 64, if cmdF d 0 3 1 = 1 then 48 else 8⟩

/-- Data of a picture's record: header bytes and slice data inside cap, and in CBR the filler that keeps the receiver's buffer from
overflowing (R350, R351). -/
def CdcCtx.recordData (x : CdcCtx) (hdr : List Nat) (pic spent : Nat) : List Nat × List Nat :=
  let n := min (ceilDiv spent 8) (x.cap / 8) - hdr.length
  let data := (hdr ++ (List.range n).map fun i => (Config.encodedByte pic i).toNat).take (x.cap / 8)
  let excess := x.full + x.rate * x.period - 8 * data.length * 1000000000 - x.cpb * 1000000000
  (data, if x.vbr || excess = 0 then [] else filler (max 7 (ceilDiv excess 8000000000)))

/-- The header of an output record (R349). -/
def recordHead (d : List Nat) (bytes floorRows full : Nat) (fill : Bool) : List Nat :=
  bytesLE 4 bytes ++ bytesLE 4 (ofBool (floorRows != 0) + 2 * cmdF d 0 3 1 + 4 * ofBool fill) ++ bytesLE 4 floorRows ++ bytesLE 4 0 ++
    bytesLE 8 (recField d 0x10 8) ++ bytesLE 4 (satAt 0xFFFFFFFF (full / 1000000000)) ++ bytesLE 4 0

/-- The record is written to the output ring: WOFS, the receiver's buffer and the stream's queue follow it. -/
def State.putRecord (s : State) (p c : Nat) (d data fill : List Nat) (floorRows : Nat) : State :=
  let x := s.ctxOf c
  let all := data ++ fill
  let rec' := recordHead d all.length floorRows x.full (!fill.isEmpty) ++ all
  let size := ceilDiv rec'.length 64 * 64
  let w := s.get (F.cdcCtxWofsBytes c)
  let bytes := rec' ++ List.replicate (size - rec'.length) 0
  let k := min size (x.outStride - w)
  match s.cdcStores c [(x.outBase + w, bytes.take k), (x.outBase, bytes.drop k)] with
  | (s, some (e, a)) => s.cdcFail p c e true a
  | (s, none) =>
    let s := s.put (F.cdcCtxWofsBytes c) ((w + size) % max 1 x.outStride)
    let full := min (x.cpb * 1000000000) (x.full + x.rate * x.period - 8 * all.length * 1000000000)
    let s := s.setCtx c { s.ctxOf c with full := full, coded := true, order := x.order + 1 }
    let s := if s.flag (F.tspTxsEn c) then { s with net := { s.net with txq := s.net.txq ++ [(c, recField d 0x10 8, all)] } } else s
    let s := s.put (F.cdcCtxRcstatRows c) floorRows
    if floorRows = 0 then s else (s.bump (F.cdcCtxRcstatPics c)).dueEvent c 2

/-- CDC_ENCODE: the picture, and its record in the output ring. The picture keeps to its cap, header bytes too; an input in host memory has
been read whole. DESIGN CHOICE, log entry 100. -/
def effEncode (p : Nat) (ctbs : List (Nat × Nat)) (rows : List Nat) (s : State) : State :=
  match s.cdc.pipes.getD p none with
  | none => s
  | some c =>
    let x := s.ctxOf c
    match x.cmd with
    | none => s
    | some d =>
      if !x.encoder || x.coded || (x.input d).granules.any (fun g => (x.got.lookup g).isNone) then s
      else
        let s := s.pictureEnd p (x.width * x.height) 500000000 0
        match s.encodeError c d with
        | some (e, a) => s.cdcFail p c e false a
        | none =>
          let hdr := s.dramRead (recField d 0x18 8) (cmdF d 0x20 0 16)
          let run := (x.rcRule d).run ctbs rows (8 * hdr.length)
          match s.encodePicture c d with
          | (s, some (e, a)) => s.cdcFail p c e true a
          | (s, none) =>
            let pic := ((s.ctxOf c).surfs.getD (cmdF d 0 4 4) (Pic.coded 0, false)).1.id
            let r := x.recordData hdr pic run.spent
            s.putRecord p c d r.1 r.2 run.rows

def execCdcEncode (pipe : Nat) (ctbs : List (Nat × Nat)) (rows : List Nat) (s : State) : Host.Outcome State Fault Refusal :=
  s.done (effEncode pipe ctbs rows s)

/-! ## Completion (R331) -/

/-- RDOFS set: the rings of context c's HEVC flows have been read up to it, and are not full (R311, R344). -/
def State.setRdofs (s : State) (c v : Nat) : State :=
  (s.net.flows.map (·.1)).foldl (fun s f =>
    let x := s.flowOf f
    if x.kind = 1 && s.get (F.netFlowUdpCtx f) = c then s.setFlow f { x with full := false } else s) (s.put (F.cdcCtxRdofsBytes c) v)

/-- The events due at a completion are raised (R331). -/
def State.raiseDue (s : State) (c : Nat) : State :=
  let due := (s.ctxOf c).due
  [F.cdcCtxEventConcealed c, F.cdcCtxEventOutDrop c, F.cdcCtxEventRcFloor c].zipIdx.foldl (fun s e =>
    if bit due e.2 then s.raise e.1 (621 + c) else s) s

/-- CDC_COMMAND_COMPLETE of the pipe's coded picture. -/
def effCdcComplete (p : Nat) (s : State) : State :=
  match s.cdc.pipes.getD p none with
  | none => s
  | some c =>
    let x := s.ctxOf c
    match x.cmd with
    | none => s
    | some d =>
      if !x.coded then s
      else
        let s := if x.encoder || cmdF d 0 3 1 = 0 then s else
          s.setRdofs c ((recField d 0x14 4 + ceilDiv (32 + s.auLength x d) 64 * 64) % max 1 x.inSize)
        let s := s.raiseDue c
        let s := if cmdF d 0 2 1 = 1 then s.raise (F.cdcCtxEventPicDone c) (621 + c) else s
        let s := s.put (F.cdcCtxCmdheadIndex c) ((s.get (F.cdcCtxCmdheadIndex c) + 1) % x.cmdRing)
        (s.bump (F.cdcCtxStatusPics c)).pipeFree p c

def execCdcCommandComplete (pipe : Nat) (s : State) : Host.Outcome State Fault Refusal := s.done (effCdcComplete pipe s)

end Sys2Proof.Machine
end

