-- ==== Sys2Proof/Machine/CxlEnd.lean ====
section
/-! DEFINITION. Requests to the host that end (R272, R277, R278, R281): CXL.cache reads and writes, the completion timeout, and the loss
of the link. -/

namespace Sys2Proof.Machine

/-! ## Reads -/

/-- A host granule read for a band: none where the read failed. -/
def Band.hostGranule (b : Band) (g : Nat) (data : Option (List Nat)) : Band :=
  { b with fetched := (g, data) :: b.fetched.filter (·.1 != g) }

/-- A granule read for the head's next band (R25). -/
def Early.hostGranule (e : Early) (g : Nat) (data : Option (List Nat)) : Early := { e with host := (g, data) :: e.host.filter (·.1 != g) }

/-- A layer's granule reaches the band it was read for, or what is fetched early for it. -/
def State.landFetch (s : State) (r : CxlRead) (data : Option (List Nat)) : State :=
  let g := r.addr / 64
  if !r.rt then
    let y := s.groupOf r.group
    s.setGroup r.group { y with rebuild := y.rebuild.map fun b => if b.isKey r.key then b.hostGranule g data else b }
  else
    let h := r.key.1
    let x := s.headOf h
    s.setHead h { x with
      bands := x.bands.map fun b => if b.isKey r.key then b.hostGranule g data else b
      early := x.early.map fun e => if (h, e.tick, e.phase, e.j) == r.key then e.hostGranule g data else e }

/-- A layer's reference record is read (R213); of a failed read no byte holds (R278). DEDUCED, log entry 152. -/
def State.landRecord (s : State) (r : CxlRead) (data : Option (List Nat)) : State :=
  let rt := s.layerRt r.layer
  if rt.refFrom = some r.addr then
    s.setLayerRt r.layer { rt with ref := some (data.getD (List.replicate 64 0)), refFrom := none }
  else s

/-- An outstanding read ends: kind 0 with data, else with poison or an error (R278); its tracker goes to a waiting read. -/
def State.cxlReadEnd (s : State) (r : CxlRead) (kind : Nat) (data : List Nat) : State :=
  let s := { s with cxl := { s.cxl with reads := s.cxl.reads.filter fun x => x.tag != r.tag } }
  let s := s.cxlLatency r
  let bs := (data ++ List.replicate (64 - data.length) 0).take 64
  let g := r.addr / 64
  let good := decide (kind = 0)
  let s := if good then { (s.hostSee r.addr bs) with hostBad := s.hostBad.filter (· != g) }
    else { s with hostBad := g :: s.hostBad.filter (· != g) }
  let s := if good || !(r.use == .fetch || r.use == .record) then s else s.cxlRderr (some r.layer) 0 r.addr
  let got := if good then some bs else none
  let s := match r.use with
    | .fetch => s.landFetch r got
    | .record => s.landRecord r got
    | .codec p => s.codecArrive p r kind bs
    | _ => s.bltArrive r kind bs
  s.cxlIssue s.cxl.queue.length

/-! ## Writes (R281) -/

/-- A write of a writeback port failed: the sub-frame is incomplete (R278). -/
def WbSt.fail (x : WbSt) (w : CxlWrite) : WbSt :=
  { x with
    missed := x.missed || (match x.due with | some d => d.1 == w.tick && d.2.1 == w.phase | none => false)
    ends := x.ends.map fun e => if e.tick = w.tick ∧ e.phase = w.phase then { e with missed := true } else e }

/-- The host's response to an outstanding write: kind 0 is global observation, else an error (R278, R281). -/
def State.cxlWriteEnd (s : State) (w : CxlWrite) (kind : Nat) : State :=
  let s := { s with cxl := { s.cxl with writes := s.cxl.writes.filter fun x => x.tag != w.tag } }
  match w.use with
  | .writeback n =>
    let s := if kind = 0 then s else (s.setWb n ((s.wbOf n).fail w)).cxlRderr none 1 w.addr
    s.wbVisible n (s.wbOf n).ends.length
  | _ => if kind = 0 then s else s.bltWriteFail w.addr

/-- CXL_READ_COMPLETION: the outstanding CXL.cache request `tag`, a read or a write, completes; only in L0 (R272). The table gives a
write's response no command of its own. DESIGN CHOICE, log entry 161. -/
def effCxlCompletion (tag kind : Nat) (data : List Nat) (s : State) : State :=
  if !s.flag F.cxlLinkL0 then s
  else match s.cxl.reads.find? fun r => r.tag == tag with
  | some r => s.cxlReadEnd r kind data
  | none => match s.cxl.writes.find? fun w => w.tag == tag with
    | some w => s.cxlWriteEnd w kind
    | none => s

def execCxlReadCompletion (tag kind : Nat) (data : List Byte) (s : State) : Host.Outcome State Fault Refusal :=
  s.done (effCxlCompletion tag kind (data.map BitVec.toNat) s)

/-! ## Timeout and loss of the link (R272) -/

/-- Reads outstanding end with an error, those that got a tracker meanwhile too, `n` at most. -/
def State.endReads (s : State) : Nat → State
  | 0 => s
  | n + 1 => match s.cxl.reads with
    | [] => s
    | r :: _ => (s.cxlReadEnd r 2 []).endReads n

/-- The loss of the link halts the DMA engine as a whole. The error record names the oldest host access, or the channel whose turn it was
where there is none. DESIGN CHOICE, log entry 159. -/
def State.dmaLinkLost (s : State) : State :=
  if s.dmaStopped then s
  else match s.dma.reads.find? fun r => r.2.2.2 % 4 != 0 with
    | some r => s.dmaHalt r.1 5 false r.2.1
    | none =>
      let c := s.dma.turn
      match (s.dmaCh c).desc with
      | some d => if (s.dmaCh c).begun && dmaDstMem d == 1 then s.dmaHalt c 5 true (dmaDaddr d) else s.dmaHalt c 5 false 0
      | none => s.dmaHalt c 5 false 0

/-- The loss of the link ends every outstanding request with an error, those held for it and the DMA engine's too. -/
def State.linkLost (s : State) : State :=
  let s := { s with cxl := { s.cxl with hold := [], up := false } }
  let s := s.endReads (s.cxl.reads.length + s.cxl.queue.length)
  let s := s.cxl.writes.foldl (fun s w => s.cxlWriteEnd w 2) s
  let s := { s with cxl := { s.cxl with hold := [] } }.dmaLinkLost
  { s with dma := { s.dma with reads := s.dma.reads.filter fun r => r.2.2.2 % 4 == 0 } }

/-- CXL_COMPLETION_TIMEOUT: request `tag` has run out of time; with the link down, every outstanding request has. -/
def effCxlTimeout (tag : Nat) (s : State) : State :=
  if !s.flag F.cxlLinkL0 then s.linkLost
  else match s.cxl.reads.find? fun r => r.tag == tag, s.cxl.writes.find? fun w => w.tag == tag with
  | some r, _ => s.cxlReadEnd r 2 []
  | none, some w => s.cxlWriteEnd w 2
  | none, none => match s.dma.reads.find? fun r => r.2.2.1 == tag with
    | some r => s.dmaReadEnd r 2 []
    | none => s

def execCxlCompletionTimeout (tag : Nat) (s : State) : Host.Outcome State Fault Refusal := s.done (effCxlTimeout tag s)

end Sys2Proof.Machine
end

