-- ==== Sys2Proof/Machine/Icu.lean ====
section
/-! DEFINITION. The interrupt controller's commands: doorbells, claims, completes and writes of its words (R376 to R394). -/

namespace Sys2Proof.Machine

/-- A write of ICU.DOORBELL (R378): numbers that name no source are counted and ignored. -/
def effDoorbell (value : Word) (s : State) : State :=
  let n := value.toNat % 1024
  if n = 0 ∨ 1020 < n then s.bump F.icuStatusDbign else s.pend n

def execDoorbell (agent : Nat) (value : Word) (s : State) : Host.Outcome State Fault Refusal :=
  s.done (s.guardWrite agent Reg.icuDoorbell (effDoorbell value))

/-- The claim word of a source and its priority (R384). -/
def claimWord (n p : Nat) : Word := BitVec.ofNat 32 (n + 65536 * p + 2147483648)

/-- Target t claims source n at priority p: its pending bit clears and the level holds it (R384, R385). -/
def State.claimSource (s : State) (t n p : Nat) : State :=
  let s := s.put ⟨Reg.icuPending (n / 32), n % 32, 1⟩ 0
  { s with icu := { s.icu with serv := Tbl.set (fun _ => 0) s.icu.serv (16 * t + p) n } }.evalLines

/-- A read of TGT[t].CLAIM (R384): the claim word it returns, and its effects. -/
def State.claimRead (s : State) (t : Nat) : State × Word :=
  match s.best t with
  | some (n, p) => (s.claimSource t n p, claimWord n p)
  | none => (s.bump (F.icuTgtStatSpur t), 0)

/-- CLAIM by an agent; a refused read returns zero (R449). DEDUCED, log entry 20. -/
def effClaim (agent t : Nat) (s : State) : State :=
  if 8 ≤ t then s
  else
    let off := Reg.icuTgtClaim t
    let a := s.access agent false off 15
    if a ≠ .ok then { s.deny a agent false off with lastRead := 0 }
    else { (s.claimRead t).1 with lastRead := (s.claimRead t).2 }

def execClaim (agent target : Nat) (s : State) : Host.Outcome State Fault Refusal := s.done (effClaim agent target s)

/-- The in-service level of target t that holds source n (R386). -/
def State.levelOf (s : State) (t n : Nat) : Option Nat :=
  (List.range 16).find? fun k => n != 0 && Tbl.get (fun _ => 0) s.icu.serv (16 * t + k) == n

/-- A write of TGT[t].COMPLETE (R386). -/
def effComplete (t : Nat) (value : Word) (s : State) : State :=
  match s.levelOf t (value.toNat % 1024) with
  | some k => { s with icu := { s.icu with serv := Tbl.set (fun _ => 0) s.icu.serv (16 * t + k) 0 } }.evalLines
  | none => s.bump (F.icuTgtStatBadcomp t)

def execComplete (agent target : Nat) (value : Word) (s : State) : Host.Outcome State Fault Refusal :=
  s.done (if 8 ≤ target then s else s.guardWrite agent (Reg.icuTgtComplete target) (effComplete target value))

/-- Bits of word w that belong to sources: 1 to 1020 (R395). -/
def sourceBits (w : Nat) : Word := if w = 0 then 0xFFFFFFFE else if w = 31 then 0x1FFFFFFF else 0xFFFFFFFF

/-- A write of a PENDING word replaces its bits (R391). -/
def effPendingWrite (w : Nat) (value : Word) (s : State) : State :=
  (s.wr (Reg.icuPending w) (value &&& sourceBits w)).evalLines

def execPendingWrite (agent w : Nat) (value : Word) (s : State) : Host.Outcome State Fault Refusal :=
  s.done (if 32 ≤ w then s else s.guardWrite agent (Reg.icuPending w) (effPendingWrite w value))

/-- A write of an ENABLE word (R390). -/
def effEnableWrite (w : Nat) (value : Word) (s : State) : State :=
  (s.wr (Reg.icuEnable w) (value &&& sourceBits w)).evalLines

/-- TGT[t].INSERV (R385, R395). -/
def State.inserv (s : State) (t : Nat) : Word :=
  let held (k : Nat) : Nat := Tbl.get (fun _ => 0) s.icu.serv (16 * t + k)
  let levels := (List.range 16).foldl (fun a k => if held k ≠ 0 then a + 2 ^ k else a) 0
  BitVec.ofNat 32 (levels + 65536 * (if s.isLevel t = 0 then 0 else held (s.isLevel t)))

end Sys2Proof.Machine
end

