-- ==== Sys2Proof/Machine/Pwr.lean ====
section
/-! DEFINITION. Power (R396 to R410) and thermal limits (R411 to R416): domain changes, Midnight and wake, the energy bucket and
Noon, sensors, stages, the shed level, thermal Dusk and the trip. -/

namespace Sys2Proof.Machine

/-! ## Power domains -/

/-- Domain `d` is requested on (PWR.DOMCTL). -/
def State.domWanted (s : State) (d : Nat) : Bool := bit (s.rd (Reg.pwrDomctl (d / 32))).toNat (d % 32)

/-- DOMCTL and DOMSTAT bits of a domain. -/
def domCtlBit (d : Nat) : Fld := ⟨Reg.pwrDomctl (d / 32), d % 32, 1⟩
def domStatBit (d : Nat) : Fld := ⟨Reg.pwrDomstat (d / 32), d % 32, 1⟩

/-- The sets of a head that R396 looks at: active, armed and under validation. -/
def State.headSets (s : State) (h : Nat) : List HeadCfg :=
  (s.headOf h).cfg :: (s.accepted ++ s.busy.toList).filterMap fun c => c.heads.lookup h

/-- Some such set of the head has EN = 1. -/
def State.headWanted (s : State) (h : Nat) : Bool := (s.headSets h).any fun c => c.en

/-- Those sets, each with the layers that go with it. -/
def State.headScenes (s : State) (h : Nat) : List (HeadCfg × List (Nat × LayerCfg)) :=
  let x := s.headOf h
  (x.cfg, x.layers) :: (s.accepted ++ s.busy.toList).filterMap fun c =>
    (c.heads.lookup h).map fun g => (g, ownedAfter h x.layers c.layers)

/-- A head of the sector shows a video layer in such a set (R104). -/
def State.sectorVideo (s : State) (r : Nat) : Bool :=
  (List.range 32).any fun i => (s.headScenes (32 * r + i)).any fun e =>
    e.1.en && e.2.any fun l => l.2.en && l.2.video && (List.range 8).any fun p => bit l.2.phmask p && bit e.1.phmask p

/-- The Ethernet port that uses lane l in a mode (R298). -/
def lanePort (mode l : Nat) : Nat := if mode = 1 then l / 4 * 4 else if mode = 2 ∧ l < 4 then 0 else l

/-- Why a switch-off of domain `d` is refused (R396, R398): the REASON, or 0. -/
def State.offReason (s : State) (d : Nat) : Nat :=
  if d = 0 ∨ d = 73 ∨ d = 79 ∨ d = 80 then 1
  else if d ≤ 12 then
    let g := d - 1
    if (List.range 32).any (fun i =>
        let h := 32 * (g / 3) + i
        (s.headSets h).any fun c => c.en && groupOfHead h c == g) || s.sectorVideo (g / 3) then 2 else 0
  else if d ≤ 28 then (if (List.range 8).any fun i => s.headWanted (8 * (d - 13) + i) then 2 else 0)
  else if d ≤ 44 then 3 * ofBool (s.flag (F.wlkLaneCfgEn (d - 29)))
  else if d ≤ 52 then 3 * ofBool (s.flag (F.netPortCfgEn (lanePort (s.get F.netCfgMode) (d - 45))))
  else if d ≤ 56 then 3 * ofBool (s.flag F.mirCtlEn)
  else if d ≤ 68 then 0
  else if d ≤ 70 then 4 * ofBool s.cxl.up
  else if d = 71 then 3 * ofBool (s.flag F.bltStatusBusy)
  else if d = 72 then 3 * ofBool (s.flag F.dmaStatusBusy)
  else if d ≤ 76 then 0
  else if d = 77 then 3 * ofBool (s.flag F.poseCtlEn)
  else if d = 78 then (if (List.range 8).any fun p => s.flag (F.netPortCfgEn p) then 3 else 0)
  else if d ≤ 82 then 3 * ofBool (s.flag (F.clkHtbCfgEn (d - 81)))
  else 3 * ofBool (s.flag F.fltCtlEn)

/-- A switch-off that R396 defers: a pipe's picture in progress, or a channel outside self-refresh. -/
def State.offDeferred (s : State) (d : Nat) : Bool :=
  if 57 ≤ d ∧ d ≤ 60 then (s.cdc.pipes.getD (d - 57) none).isSome
  else if 61 ≤ d ∧ d ≤ 68 then
    !(s.flag (F.dmcChStatusSelfref (2 * (d - 61))) && s.flag (F.dmcChStatusSelfref (2 * (d - 61) + 1)))
  else false

/-- Registers at their reset values, but for those that `keep`. -/
def State.clearRegs (s : State) (keep : Nat → Bool) : State :=
  { s with regs := s.regs.filter fun e => keep (e.1 % 0x4000000) }

/-- A reset of registers: those that do not `keep` have their reset values, and their held low halves are lost (R9). -/
def State.resetRegs (s : State) (keep : Nat → Bool) : State :=
  { s.clearRegs keep with heldLo := s.heldLo.filter fun e => keep (e.1 % 0x4000000) }

/-- A head whose block loses power: its own registers and work; its layers stay with the layer table. -/
def HeadSt.powerOff (x : HeadSt) : HeadSt :=
  { HeadSt.init with layers := x.layers, order := x.order, agent := x.agent, latchTick := x.latchTick }

/-- What a mirror lane's lock change does (R436): with the lock, the one-way delay is measured (R423), a free value. DESIGN CHOICE,
log entry 157. -/
def State.mirrorLock (s : State) (n : Nat) (locked : Bool) : State :=
  if 4 ≤ n ∨ bit (s.get F.mirStatLock) n = locked then s
  else
    let s := if locked then (s.put F.mirStatOwd (satAt 65535 (Config.freeNat s.fresh))).tick else s
    (s.put ⟨Reg.mirStat, n, 1⟩ (ofBool locked)).raise F.mirEventMirLink 925

/-- The unit state that domain `d` loses (R397): everything but its registers. DEDUCED, log entry 120. -/
def State.loseUnit (s : State) (d : Nat) : State :=
  if d = 0 then s
  else if d ≤ 12 then { s with groups := Tbl.drop (d - 1) d s.groups, scalers := Tbl.drop (2 * (d - 1)) (2 * d) s.scalers }
  else if d ≤ 28 then
    (List.range 8).foldl (fun s i => s.setHead (8 * (d - 13) + i) (s.headOf (8 * (d - 13) + i)).powerOff) s
  else if d ≤ 44 then
    let s := effLaneLock (d - 29) false s
    { s with wlk := { s.wlk with lanes := Tbl.drop (d - 29) (d - 28) s.wlk.lanes } }
  else if d ≤ 52 then effPortLink (lanePort (s.get F.netCfgMode) (d - 45)) false false false s
  else if d ≤ 56 then s.mirrorLock (d - 53) false
  else if d ≤ 60 then { s with cdc := { s.cdc with last := s.cdc.last.set (d - 57) none, ready := s.cdc.ready.set (d - 57) 0 } }
  else if d ≤ 68 then
    let c := 2 * (d - 61)
    { s with dmc := { s.dmc with chans := Tbl.drop c (c + 2) s.dmc.chans } }
  else if d ≤ 70 then { s with cxl := { CxlSt.init with hdmBase := s.cxl.hdmBase, hdmSize := s.cxl.hdmSize } }
  else if d = 71 then { s with blt := BltSt.init }
  else if d = 72 then { s with dma := DmaSt.init }
  else if d ≤ 76 then { s with mgmt := Tbl.drop (d - 73) (d - 72) s.mgmt }
  else if d = 77 then { s with pose := PoseSt.init }
  else if d = 78 then { s with net := NetSt.init, pix := [], producers := Tbl.drop 0 256 s.producers }
  else if d = 83 then { s with wb := [], surfaces := [] }
  else s

/-- Domain `d` switches off: its registers and memories are at their reset values when it is on again (R397). -/
def State.domainOff (s : State) (d : Nat) : State :=
  ((s.loseUnit d).resetRegs fun o => domainAt o != d).put (domStatBit d) 0

/-- Domain `d` switches on; a channel whose DRAM stayed in self-refresh shows it (R255). DEDUCED, log entry 119. -/
def State.domainOn (s : State) (d : Nat) : State :=
  let s := s.put (domStatBit d) 1
  if 61 ≤ d ∧ d ≤ 68 then
    [2 * (d - 61), 2 * (d - 61) + 1].foldl (fun s n => s.put (F.dmcChStatusSelfref n) (s.get ⟨Reg.dmcStatus, 16 + n, 1⟩)) s
  else s

/-- Changes requested and not made, ascending. DEDUCED, log entry 119. -/
def State.domChanges (s : State) : List Nat :=
  (List.range 84).filter fun d => s.part.domainPresent d && s.domWanted d != s.domOn d

/-- DOMBUSY follows the changes that remain; PWR_DOMAIN when it returns to 0 (R397). -/
def State.settleDomains (s : State) : State :=
  if s.domChanges.isEmpty then
    if s.flag F.pwrStatusDombusy then (s.put F.pwrStatusDombusy 0).raise F.pwrEventPwrDomain 933 else s
  else s.put F.pwrStatusDombusy 1

/-- DOMAIN_REQUEST: a write of DOMCTL[w]; switching on a domain of an absent unit is ignored and raises ABSENT_UNIT (R6).
DEDUCED, log entry 119. -/
def effDomctl (w : Nat) (value : Word) (s : State) : State :=
  let absent := (List.range 32).any fun i =>
    bit value.toNat i && 32 * w + i < 84 && !s.part.domainPresent (32 * w + i)
  let s := if absent then s.signal 950 else s
  (s.wr (Reg.pwrDomctl w) (value &&& BitVec.ofNat 32 (domReset s.part w))).settleDomains

def execDomainRequest (agent w : Nat) (value : Word) (s : State) : Host.Outcome State Fault Refusal :=
  s.done (if 3 ≤ w then s else s.guardWrite agent (Reg.pwrDomctl w) (effDomctl w value))

/-- DOMAIN_CHANGE: the lowest change that can be made is made, or refused (R397, R398). DEDUCED, log entry 119. -/
def effDomainChange (s : State) : State :=
  if !s.takesWork || s.pwr.tripped then s
  else match s.domChanges.find? fun d => s.domWanted d || s.offReason d != 0 || !s.offDeferred d with
  | none => s.settleDomains
  | some d =>
    let s := if s.domWanted d then s.domainOn d
      else if s.offReason d ≠ 0 then
        let s := ((s.put (domCtlBit d) 1).put F.pwrRefuseReason (s.offReason d)).put F.pwrRefuseDomain d
        s.raise F.pwrEventPwrRefused 933
      else s.domainOff d
    s.settleDomains

def execDomainChange (s : State) : Host.Outcome State Fault Refusal := s.done (effDomainChange s)

/-! ## Losing every domain but the always-on one -/

/-- Every unit outside domain 0 loses what no register holds; commits not yet taken go with the heads they name. -/
def State.loseUnits (s : State) : State :=
  { s with
    heads := s.heads.map fun e => (e.1, { HeadSt.init with latchTick := e.2.latchTick, order := e.2.order, agent := e.2.agent })
    layers := [], fences := [], busy := none, accepted := [], groups := [], scalQ := [], scalers := [], surfaces := []
    producers := [], wb := [], pose := PoseSt.init, mgmt := [], mir := MirSt.init, blt := BltSt.init
    net := NetSt.init, cdc := CdcSt.init, dma := DmaSt.init, wlk := WlkSt.init, finj := FinjSt.init, pix := [] }

/-- DOMSTAT with only some of the domains that were on. DEDUCED, log entry 125. -/
def State.keepDomains (s : State) (keep : Nat → Bool) : State :=
  (List.range 84).foldl (fun s d => if keep d then s else s.put (domStatBit d) 0) s

/-! ## Midnight (R401 to R406) -/

/-- Why Midnight is refused (R401): REFUSE, or 0. -/
def State.midnightReason (s : State) : Nat :=
  if s.allHeads.any fun h => (s.headOf h).cfg.en || (s.accepted.any fun c => match c.heads.lookup h with
      | some x => x.en && (s.headOf h).order < c.order
      | none => false) then 1
  else if s.flag F.bltStatusBusy || s.flag F.dmaStatusBusy || s.cdc.pipes.any (·.isSome) || s.flag F.fltStatPending then 2
  else if s.flag F.dmcStatusFreqbusy || s.flag F.dmcTraincapBusy then 3
  else if s.inDusk then 4
  else 0

/-- A write of PWR.MIDNIGHT: ENTER requests Midnight, WAKE wakes (R401, R405). DEDUCED, log entry 124. -/
def effMidnight (value : Word) (s : State) : State :=
  let s := if bit value.toNat 0 && s.takesWork then
      let r := s.midnightReason
      if r = 0 then { (s.put F.pwrStatusState 2) with pwr := { s.pwr with noonPend := none, wakePend := false } }
      else (s.put F.pwrMidnightRefuse r).raise F.pwrEventMidnightRefused 937
    else s
  if bit value.toNat 1 then s.wake else s

def execMidnightEnter (agent : Nat) (value : Word) (s : State) : Host.Outcome State Fault Refusal :=
  s.done (s.guardWrite agent Reg.pwrMidnight (effMidnight value))

def execMidnightWake (agent : Nat) (value : Word) (s : State) : Host.Outcome State Fault Refusal :=
  s.done (s.guardWrite agent Reg.pwrMidnight (effMidnight value))

/-- Registers that survive Midnight (R403), and the state of the CXL link, which stays up. DEDUCED, log entry 125. -/
def midnightKeeps (o : Nat) : Bool := o < 0x100000 || (0x500000 ≤ o && o < 0x600000) || o == Reg.cxlLink

/-- The DRAM channels enter self-refresh with their queues empty (R255, R402). -/
def State.dmcSleep (s : State) : State :=
  (List.range s.part.channels).foldl (fun s n =>
    let s := s.payRefresh n
    (s.setSelfref n true).setChan n { DmcCh.init with delays := (s.chanOf n).delays, pair := (s.chanOf n).pair })
    { s with dmc := { s.dmc with ports := [], reply := none } }

/-- MIDNIGHT_ENTRY_DONE (R402): steps 1 to 7 have been made; a wake cause that came meanwhile acts now (R405). Request lines are not
kept (R393). DEDUCED, log entry 125. -/
def effMidnightEntryDone (s : State) : State :=
  if s.get F.pwrStatusState ≠ 2 ∨ s.pwr.tripped then s
  else
    let woken := s.pwr.wakePend
    let s := (List.range 8).foldl (fun s p => effPortLink p false false false s) s
    let s := s.dmcSleep.loseUnits
    let s := { (s.resetRegs midnightKeeps) with cxl := { CxlSt.init with
      hdmBase := s.cxl.hdmBase, hdmSize := s.cxl.hdmSize, up := s.cxl.up } }
    let s := (List.range 8).foldl (fun s t => s.put (F.icuTgtStatLine t) 0) s
    let s := s.keepDomains fun d => d == 0 || d == 69 || d == 70
    let s := (s.put F.clkStatusCmdllLock 0).put F.clkStatusSmdllLock 0
    let s := (s.put F.clkStatusHtbaLock 0).put F.clkStatusHtbbLock 0
    let s := { (s.put F.pwrStatusState 3) with pwr := { s.pwr with restored := false, wakePend := false } }
    if woken then s.wake else s

def execMidnightEntryDone (s : State) : Host.Outcome State Fault Refusal := s.done (effMidnightEntryDone s)

/-- WAKE_TIME (R405). DEDUCED, log entry 126. -/
def effWakeTime (s : State) : State :=
  let t := s.rd64 Reg.pwrWaketimeLo
  let st := s.get F.pwrStatusState
  if s.flag F.pwrWakecfgTime && (st == 2 || st == 3) && s.now ≤ t then (s.advanceTo t).wake else s

def execWakeTime (s : State) : Host.Outcome State Fault Refusal := s.done (effWakeTime s)

/-- GPIO_WAKE: a rising edge on a pin (R405). -/
def effGpioWake (pin : Nat) (s : State) : State :=
  if pin < 16 && bit (s.get F.pwrWakecfgGpio) pin then s.wake else s

def execGpioWake (pin : Nat) (s : State) : Host.Outcome State Fault Refusal := s.done (effGpioWake pin s)

/-- The address at which management core k starts after reset, BOOT.CTL.START or wake (R447). -/
def State.startAddr (s : State) (k : Nat) : Nat := if k = 0 then 0x00800000 else (s.rd (Reg.bootStart (k - 1))).toNat

/-- Management core k starts at an address with its CSRs at reset values. -/
def State.startMgmt (s : State) (k pc : Nat) : State := s.setMgmt k { MgmtSt.init with on := true, pc := pc }

/-- WAKE_RESTORE (R406): MDLLs locked, ICU and DMC restored, DRAM out of self-refresh, management cores started. DEDUCED, log entry 126. -/
def effWakeRestore (s : State) : State :=
  if s.get F.pwrStatusState ≠ 4 ∨ s.pwr.restored ∨ s.pwr.tripped then s
  else
    let s := { s with pwr := { s.pwr with restored := true } }
    let s := (s.put F.clkStatusCmdllLock 1).put F.clkStatusSmdllLock 1
    let s := ([79, 80] ++ ((List.range 8).map (61 + ·) ++ (List.range 4).map (73 + ·)).filter s.domWanted).foldl
      (fun s d => s.put (domStatBit d) 1) s
    let s := (List.range s.part.channels).foldl State.exitSelfref s
    let vec := s.get F.pwrWakevecAddr / 8 * 8
    let s := (List.range 4).foldl (fun s k =>
      if s.domWanted (73 + k) then s.startMgmt k (if vec = 0 then s.startAddr k else vec) else s) s
    s.evalLines

def execWakeRestore (s : State) : Host.Outcome State Fault Refusal := s.done (effWakeRestore s)

/-- WAKE_COMPLETE (R406): with every wanted domain on, changes that were pending before are done (R397). -/
def effWakeComplete (s : State) : State :=
  if s.get F.pwrStatusState ≠ 4 ∨ !s.pwr.restored ∨ s.pwr.tripped then s
  else
    let s := (List.range 3).foldl (fun s w => s.wr (Reg.pwrDomstat w) (s.rd (Reg.pwrDomstat w) ||| s.rd (Reg.pwrDomctl w))) s
    let s := { (s.put F.pwrStatusState 0) with pwr := { s.pwr with restored := false } }
    (s.raise F.pwrEventMidnightWake 937).settleDomains

def execWakeComplete (s : State) : Host.Outcome State Fault Refusal := s.done (effWakeComplete s)

/-! ## Noon (R407 to R410) -/

/-- Non-real-time work is queued (R407). -/
def State.noonWork (s : State) : Bool :=
  s.flag F.fltStatPending || s.get F.bltHeadidxIndex != s.get F.bltTailidxIndex ||
    (s.part.hasCodec && ((List.range 32).any s.ctxReady || s.cdc.pipes.any (·.isSome))) || s.wb.any fun e => e.2.cfg.en

/-- The first condition of R407, but for the bucket's level at entry, that fails: EXITCAUSE, or 0. -/
def State.noonFails (s : State) : Nat :=
  if s.pwr.energy = 0 then 1
  else if s.flag F.thmStatusStage || 800 ≤ signed 12 (s.get F.thmTjCur) then 2
  else if !s.noonWork then 3
  else if !s.flag F.pwrNoonEn then 4
  else if s.inDusk then 5
  else 0

/-- Joules the bucket needs for entry. DEDUCED, log entry 122. -/
def State.noonMin (s : State) : Nat := max 1 (min 34 (s.get F.pwrNoonMinj))

/-- The conditions of R407 are looked at: an entry or an exit becomes due, its cause no earlier than the bucket's last microsecond.
DEDUCED, log entry 122. -/
def State.noonCheck (s : State) : State :=
  let st := s.get F.pwrStatusState
  let f := s.noonFails
  if 2 ≤ st then s
  else match s.pwr.noonPend with
  | some true => if f ≠ 0 then { s with pwr := { s.pwr with noonPend := none } } else s
  | some false => s
  | none =>
    if st = 1 ∧ f ≠ 0 then
      { (s.put F.pwrNoonExitcause f) with pwr := { s.pwr with noonPend := some false, noonAt := s.pwr.bucketAt } }
    else if st = 0 ∧ f = 0 ∧ s.noonMin * 160000000 ≤ s.pwr.energy then
      { s with pwr := { s.pwr with noonPend := some true, noonAt := s.pwr.bucketAt } }
    else s

/-- BAND_LATCH of head h: a Noon change whose cause came before the latch takes effect at it (R408). -/
def effBandLatch (h : Nat) (s : State) : State := s.noonCheck.bandLatch h

def execBandLatch (head : Nat) (s : State) : Host.Outcome State Fault Refusal := s.done (effBandLatch head s)

/-- ENERGY_BUCKET_UPDATE: the next microsecond of the bucket (R409), with power in 1/16 W. DEDUCED, log entry 121. -/
def effEnergy (w16 : Nat) (s : State) : State :=
  let s := s.noonCheck
  let due := s.pwr.bucketAt + 1000
  let s := if s.time.uptime < due then s.elapse (due - s.time.uptime) else s
  let w := satAt 0xFFF w16
  let e := if s.get F.pwrStatusState = 1 then s.pwr.energy - 10 * (w - 1040) else min 5440000000 (s.pwr.energy + 272)
  let s := { s with pwr := { s.pwr with energy := e, bucketAt := due } }
  let s := (s.put F.pwrEbucketMj (e / 160000)).put F.pwrPestW16 w
  let s := if s.get F.pwrPestPeak < w then s.put F.pwrPestPeak w else s
  let s := s.noonCheck
  if s.pwr.noonPend.isSome && s.pwr.noonAt + 2000 ≤ s.time.uptime then s.noonApply else s

def execEnergyBucketUpdate (w16 : Nat) (s : State) : Host.Outcome State Fault Refusal := s.done (effEnergy w16 s)

/-! ## Sensors and stages (R411 to R414) -/

/-- Threshold s of THM.CFG in 0.125 °C: a value above the reset value acts as that. -/
def State.threshold (s : State) (i : Nat) : Int :=
  8 * ((match i with
    | 0 => min 0x69 (s.get F.thmCfgT1)
    | 1 => min 0x6E (s.get F.thmCfgT2)
    | _ => min 0x73 (s.get F.thmCfgT3) : Nat) : Int)

/-- THM.SHED.LEVEL follows MIN and L (R414). -/
def State.showShed (s : State) : State := s.put F.thmShedLevel s.shedLevel

/-- The thermal stage becomes `st` (R412, R414, R415). DEDUCED, log entry 123. -/
def State.setStage (s : State) (st : Nat) : State :=
  let old := s.get F.thmStatusStage
  if st = old then s
  else
    let s := (s.put F.thmStatusStage st).raise F.thmEventThermalStage 935
    let s := if (2 ≤ st) = (2 ≤ old) then s else { s with pwr := { s.pwr with shedAt := s.time.uptime } }
    let s := if 2 ≤ st then ({ s with pwr := { s.pwr with shedL := max 1 s.pwr.shedL } }).showShed else s
    if st = 3 then s.enterDusk F.pwrStatusDuskThm else s

/-- One sensor's reading: it is faulted outside −40 to 150 °C, or unchanged for 1 ms (R411). -/
def State.takeReading (s : State) (k : Nat) (v : Int) : State :=
  let old := s.pwr.sens.getD k (0, 0)
  let at0 := if v = old.1 then old.2 else s.time.uptime
  let s := (s.put (F.thmSensValue k) (unsigned 12 v))
  let s := { s with pwr := { s.pwr with sens := s.pwr.sens.set k (v, at0) } }
  let bad := v < -320 || 1200 < v || decide (at0 + 1000000 ≤ s.time.uptime)
  let was := bit (s.get F.thmSensfaultFault) k
  let s := s.put ⟨Reg.thmSensfault, k, 1⟩ (ofBool bad)
  if bad && !was then (s.put F.thmEventSensor k).raise F.thmEventThermSensor 936 else s

/-- Stage threshold i against the junction temperature (R412). -/
def PwrSt.track (p : PwrSt) (now : Nat) (i : Nat) (t h tj : Int) : PwrSt :=
  if t ≤ tj then { p with reached := p.reached.set i true, below := p.below.set i none }
  else if tj < t - h then
    let at0 := (p.below.getD i none).getD now
    { p with below := p.below.set i (some at0)
             reached := if at0 + 1000000 ≤ now then p.reached.set i false else p.reached }
  else { p with below := p.below.set i none }

/-- SENSOR_SAMPLE: the next sample of the sixteen sensors. DEDUCED, log entry 123. -/
def effSensors (vals : List Int) (s : State) : State :=
  let due := s.pwr.sampleAt + 10000
  let s := if s.time.uptime < due then s.elapse (due - s.time.uptime) else s
  let s := { s with pwr := { s.pwr with sampleAt := due } }
  let s := (List.range 16).foldl (fun s k => s.takeReading k (vals.getD k 0)) s
  let faults := s.get F.thmSensfaultFault
  let good := (List.range 16).filter fun k => !bit faults k
  let s := match good with
    | [] => s
    | k :: ks =>
      let tj := ks.foldl (fun a j => max a (vals.getD j 0)) (vals.getD k 0)
      let s := s.put F.thmTjCur (unsigned 12 tj)
      let s := if signed 12 (s.get F.thmTjPeak) < tj then s.put F.thmTjPeak (unsigned 12 tj) else s
      let h : Int := 8 * ((max 1 (s.get F.thmCfgHyst) : Nat) : Int)
      { s with pwr := (List.range 3).foldl (fun p i => p.track s.time.uptime i (s.threshold i) h tj) s.pwr }
  let st := if good.length ≤ 12 then 3 else
    (List.range 3).foldl (fun a i => if s.pwr.reached.getD i false then i + 1 else a) 0
  (s.setStage st).noonCheck

def execSensorSample (vals : List Int) (s : State) : Host.Outcome State Fault Refusal := s.done (effSensors vals s)

/-- SHED_STEP (R414): after STEP ms at stage 2 or 3 the level rises, below stage 2 it falls. DEDUCED, log entry 123. -/
def effShedStep (s : State) : State :=
  let up := decide (2 ≤ s.get F.thmStatusStage)
  if if up then s.pwr.shedL < 8 else s.pwr.shedL ≠ 0 then
    let due := s.pwr.shedAt + max 1 (s.get F.thmShedStep) * 1000000
    let s := if s.time.uptime < due then s.elapse (due - s.time.uptime) else s
    ({ s with pwr := { s.pwr with shedAt := due, shedL := if up then s.pwr.shedL + 1 else s.pwr.shedL - 1 } }).showShed
  else s

def execShedStep (s : State) : Host.Outcome State Fault Refusal := s.done (effShedStep s)

/-- A write of THM.CTL: thermal Dusk ends while the stage is below 3 (R415). -/
def effDuskexit (value : Word) (s : State) : State :=
  if bit value.toNat 0 && s.get F.thmStatusStage != 3 && s.flag F.pwrStatusDuskThm then s.leaveDusk F.pwrStatusDuskThm else s

def execDuskexit (agent : Nat) (value : Word) (s : State) : Host.Outcome State Fault Refusal :=
  s.done (s.guardWrite agent Reg.thmCtl (effDuskexit value))

/-- THERMAL_TRIP: a sensor has reached 125 °C (R416). DEDUCED, log entry 124. -/
def effTrip (sensor : Nat) (v : Int) (s : State) : State :=
  if 16 ≤ sensor ∨ v < 1000 then s
  else
    let s := s.loseUnits
    let s := { (s.resetRegs fun o => o < 0x80000) with
      cxl := CxlSt.init, dmc := DmcSt.init, icu := IcuSt.init, ltrEn := false, pcie := [], pwr := { s.pwr with tripped := true } }
    let s := (s.keepDomains fun d => d == 0).put F.thmTriprecTripped 1
    s.put F.thmTriprecTj (unsigned 12 v)

def execThermalTrip (sensor : Nat) (val : Int) (s : State) : Host.Outcome State Fault Refusal := s.done (effTrip sensor val s)

end Sys2Proof.Machine
end

