-- ==== Sys2Proof/Machine/Check.lean ====
section
/-! DEFINITION. The static check of a head program (R192) and the band cost (R193). -/

namespace Sys2Proof.Machine

/-- The program's instructions, read from the store of group g. -/
def State.program (s : State) (g : Nat) (e : PhaseEntry) : List Ins :=
  (List.range e.len).map fun i => Ins.ofNat (s.progWord g (e.prog + 8 * i))

/-! ## Where each instruction stands -/

/-- Loops that enclose an instruction, innermost first: the index past the body, and COUNT. -/
abbrev Nest := List (Nat × Nat)

/-- Each instruction with its index and the loops that enclose it. -/
def nestings : Nat → Nest → List Ins → List (Nat × Ins × Nest)
  | _, _, [] => []
  | i, n, x :: xs =>
    let n := n.dropWhile fun l => l.1 ≤ i
    (i, x, n) :: nestings (i + 1) (if x.op = 0x61 then (i + 1 + x.blen, x.count) :: n else n) xs

/-- Index past the body that holds an instruction, in a program of `len`. -/
def Nest.stop (n : Nest) (len : Nat) : Nat :=
  match n with
  | [] => len
  | l :: _ => min l.1 len

/-- COUNT of a LOOP that names a band constant (R178). -/
def isLines (c : Nat) : Bool := c == 0xFFFD
def isSpanv (c : Nat) : Bool := c == 0xFFFE
def isLayers (c : Nat) : Bool := c == 0xFFFF

/-! ## Rule 2: fields -/

/-- D, A, B, C and IMM that an opcode of the compose profile uses; none for another opcode (R178, R179). -/
def usedFields (op : Nat) : Option (Bool × Bool × Bool × Bool × Bool) :=
  if 1 ≤ op ∧ op ≤ 9 then some (true, true, true, false, false)
  else match op with
  | 0x0A => some (true, true, false, false, true)
  | 0x0B => some (true, false, false, false, true)
  | 0x0C => some (true, true, false, false, true)
  | 0x0D => some (true, true, true, true, false)
  | 0x0E => some (true, true, false, true, true)
  | 0x0F => some (true, true, true, true, false)
  | 0x10 => some (true, true, false, false, true)
  | 0x11 => some (false, true, true, false, true)
  | 0x12 => some (true, false, false, false, true)
  | 0x20 => some (true, true, false, false, true)
  | 0x21 => some (false, true, true, false, true)
  | 0x22 => some (true, true, false, false, false)
  | 0x23 => some (true, false, false, false, false)
  | 0x24 => some (true, true, false, false, false)
  | 0x30 => some (true, false, false, false, true)
  | 0x31 => some (false, false, false, false, true)
  | 0x32 => some (false, false, false, false, true)
  | 0x38 => some (true, true, false, false, true)
  | 0x40 => some (true, true, true, false, true)
  | 0x48 => some (true, true, false, true, true)
  | 0x49 => some (true, true, false, false, true)
  | 0x50 => some (false, true, false, false, true)
  | 0x60 => some (false, false, false, false, true)
  | 0x61 => some (false, false, false, false, true)
  | 0x62 => some (false, false, false, false, false)
  | _ => none

/-- IMM and the value-limited fields of an instruction are defined (R178, R180, R182 to R189). BLEND uses B for the layer's mode and
in key mode only (R187). DEDUCED, log entry 59. -/
def Ins.valuesOk (x : Ins) : Bool :=
  match x.op with
  | 0x0D => x.d < 8 && x.c < 6
  | 0x0E => x.d < 8 && x.c < 6
  | 0x0F => x.d < 8 && x.a < 8 && x.b < 8 && x.c < 4
  | 0x12 => x.imm ≤ 10
  | 0x30 => x.imm < 256
  | 0x31 => x.imm < 256
  | 0x32 => x.imm < 3
  | 0x38 => x.imm < 256
  | 0x40 => x.imm < 65536 && (x.fn == 0 || (x.lsel == 0 && ((1 ≤ x.fn && x.fn ≤ 6) || (9 ≤ x.fn && x.fn ≤ 14)) &&
      (x.fn == 5 || x.fn == 13 || x.b == 0)))
  | 0x48 => x.c < 3 || (8 ≤ x.c && x.c ≤ 12 && x.imm == 0)
  | 0x50 => x.imm == 0 || x.imm == 256
  | 0x60 => x.imm != 0
  | 0x61 => x.imm < 2 ^ 30 && x.blen != 0
  | _ => true

/-- Rule 2 holds of an instruction. -/
def Ins.fieldsOk (x : Ins) : Bool :=
  match usedFields x.op with
  | none => false
  | some (d, a, b, c, imm) =>
    (d || x.d == 0) && (a || x.a == 0) && (b || x.b == 0) && (c || x.c == 0) && (imm || x.imm == 0) && x.valuesOk

/-- Bytes of the table an instruction reads at IMM (R188). -/
def Ins.tableBytes (x : Ins) : Nat :=
  if x.op = 0x49 then 36
  else if x.op = 0x48 then (if x.c = 0 then 2048 else if x.c ≤ 2 then 8192 else 0)
  else 0

/-- Rule 1 holds of an instruction's table. -/
def Ins.tableOk (x : Ins) : Bool := x.tableBytes == 0 || (x.imm % 4 == 0 && x.imm + x.tableBytes ≤ 0x40000)

/-- The instruction has an LSEL: FETCH, SWI, KEY, BLEND. -/
def Ins.hasLsel (x : Ins) : Bool := x.op == 0x30 || x.op == 0x31 || x.op == 0x38 || x.op == 0x40

/-! ## Rules 3 to 8 -/

/-- Rule 3. -/
def Ins.rule3 (x : Ins) : Bool := (x.op != 0x40 || x.d % 2 == 0) && (!x.hasLsel || x.lsel == 0xFF || x.lsel < 0x40)

/-- Rule 4, of the instruction at index i: a branch lands on an instruction of the innermost body. DEDUCED, log entry 59. -/
def rule4 (len i : Nat) (x : Ins) (n : Nest) : Bool := x.op != 0x60 || i + x.imm < n.stop len

/-- Rule 5. -/
def rule5 (len i : Nat) (x : Ins) (n : Nest) : Bool :=
  x.op != 0x61 ||
    (x.count != 0 && decide (i + 1 + x.blen ≤ n.stop len) && n.length < 4 && !(isLines x.count && !n.isEmpty) &&
      !((isSpanv x.count || isLayers x.count) && n.any fun l => l.2 == x.count))

/-- Rule 6. -/
def rule6 (len i : Nat) (x : Ins) (n : Nest) : Bool :=
  if x.op = 0x62 then n.isEmpty else i + 1 != len

/-- Rule 7's first part: no SWI follows the first LOOP, or names less than every video layer. -/
def rule7 (first i : Nat) (x : Ins) : Bool := x.op != 0x31 || (i < first && x.lsel == 0xFF)

/-- Rule 8. -/
def rule8 (x : Ins) (n : Nest) : Bool :=
  !(x.op == 0x30 || x.op == 0x38 || (x.op == 0x40 && x.fn == 0)) || x.lsel != 0xFF || n.any fun l => isLayers l.2

/-- Instructions before `first` that a path without an unpredicated SWI reaches; the lowest index at which such a path arrives at
`first`, branches past it or reaches an END, when there is one (rule 7). `reached` is the indices reached so far. -/
def missesSwi (first : Nat) : List (Nat × Ins) → List Nat → Option Nat
  | [], reached => if reached.contains first then some first else none
  | (i, x) :: xs, reached =>
    if !reached.contains i then missesSwi first xs reached
    else if x.op = 0x62 then some i
    else if x.op = 0x31 ∧ x.pr = 0 ∧ !x.pn then missesSwi first xs reached
    else if x.op = 0x60 then
      let taken := if x.pr = 0 ∧ x.pn then [] else [i + x.imm]
      let next := if x.pr = 0 ∧ !x.pn then [] else [i + 1]
      if taken.any (first < ·) then some i else missesSwi first xs (taken ++ next ++ reached)
    else missesSwi first xs ((i + 1) :: reached)

/-! ## Key records (R185) -/

/-- LO and HI are numbers and HI exceeds LO. DEDUCED, log entry 59. -/
def KeyRec.ok (r : KeyRec) : Bool :=
  !isNan16 r.lo && !isInf16 r.lo && !isNan16 r.hi && !isInf16 r.hi && (value16 r.lo).lt (value16 r.hi)

/-- No number stands twice. -/
def distinct : List Nat → Bool
  | [] => true
  | x :: xs => !xs.contains x && distinct xs

/-! ## The check -/

/-- Lowest index of an instruction that breaks a rule. -/
def breaks (p : List (Nat × Ins × Nest)) (ok : Nat → Ins → Nest → Bool) : Option Nat :=
  (p.find? fun e => !ok e.1 e.2.1 e.2.2).map (·.1)

/-- The static check of one phase's program (R192): the rule and index of the failure it reports. `video`: some band of the phase has
a video layer in its list; `keys`: layers in key mode that the head shows in the phase. DEDUCED, log entry 54. -/
def State.staticCheck (s : State) (g table phase : Nat) (video : Bool) (keys : List Nat) : Option (Nat × Nat) :=
  if table % 64 ≠ 0 ∨ 0x40000 < table + 64 then some (1, 0)
  else
    let e := PhaseEntry.ofNat (s.progWord g (table + 8 * phase))
    if e.prog % 8 ≠ 0 ∨ 0x40000 < e.prog + 8 * e.len ∨ (e.keyn ≠ 0 ∧ (e.keymap % 32 ≠ 0 ∨ 0x40000 < e.keymap + 32 * e.keyn)) then
      some (1, 0)
    else
      let p := nestings 0 [] (s.program g e)
      let first := match p.find? fun x => x.2.1.op == 0x61 with
        | some x => x.1
        | none => e.len
      let recs := (List.range e.keyn).map fun r => s.keyRec g (e.keymap + 32 * r)
      let swi := if video then missesSwi first ((p.take first).map fun x => (x.1, x.2.1)) [0] else none
      let r7 := match breaks p fun i x _ => rule7 first i x, swi with
        | some a, some b => some (min a b)
        | some a, none => some a
        | none, b => b
      let r9 := e.keyn ≤ 8 && recs.all KeyRec.ok && distinct (recs.map (·.layer)) && keys.all fun l => recs.any fun r => r.layer == l
      let found : List (Nat × Option Nat) := [
        (1, if p.all fun x => x.2.1.tableOk then none else some 0),
        (2, breaks p fun _ x _ => x.fieldsOk),
        (3, breaks p fun _ x _ => x.rule3),
        (4, breaks p (rule4 e.len)),
        (5, breaks p (rule5 e.len)),
        (6, breaks p (rule6 e.len)),
        (7, r7),
        (8, breaks p fun _ x n => rule8 x n),
        (9, if r9 then none else some 0)]
      found.findSome? fun f => f.2.map fun i => (f.1, i)

/-! ## The band cost (R193) -/

/-- Static values of the band constants (R175): LINES, SPANV, LAYERS. -/
structure Consts where
  lines : Nat
  spanv : Nat
  layers : Nat
  deriving DecidableEq, Repr

/-- Iterations of a LOOP in the static check. -/
def Consts.count (k : Consts) (c : Nat) : Nat :=
  if isLines c then k.lines else if isSpanv c then k.spanv else if isLayers c then k.layers else c

/-- Issue cycles of an instruction that neither loops, branches nor ends (R179, R184). -/
def Ins.cycles (x : Ins) : Nat :=
  match x.op with
  | 0x09 => 3
  | 0x20 => 2
  | 0x21 => 2
  | 0x30 => 2
  | 0x32 => waitCharge x
  | 0x50 => 2
  | _ => 1

/-- Where a body can end: the program's end and that of every LOOP. -/
def bodyEnds (len : Nat) (p : List (Nat × Ins)) : List Nat :=
  (len :: p.filterMap fun e => if e.2.op = 0x61 then some (e.1 + 1 + e.2.blen) else none).eraseDups

/-- R193's cost(i, last), one row for each instruction i of the list, and in it one entry for each `last` of `ends`. -/
def costRows (k : Consts) (ends : List Nat) : List (Nat × Ins) → List (List Nat)
  | [] => []
  | (i, x) :: rest =>
    let rows := costRows k ends rest
    let cost (j last : Nat) : Nat :=
      if last ≤ j then 0 else (rows.getD (j - i - 1) []).getD (ends.findIdx (· == last)) 0
    let row (last : Nat) : Nat :=
      if last ≤ i then 0
      else if x.op = 0x61 then
        (if x.count < 0xFFFD then 1 else 4) + k.count x.count * cost (i + 1) (i + 1 + x.blen) + cost (i + 1 + x.blen) last
      else if x.op = 0x60 then
        if x.pr = 0 ∧ !x.pn then 2 + cost (i + x.imm) last else max (1 + cost (i + 1) last) (2 + cost (i + x.imm) last)
      else if x.op = 0x62 then 1
      else x.cycles + cost (i + 1) last
    ends.map row :: rows

/-- C of a program under static values (R193). -/
def programCost (k : Consts) (p : List Ins) : Nat :=
  let q := p.zipIdx.map fun e => (e.2, e.1)
  ((costRows k (bodyEnds p.length q) q).headD []).headD 0

end Sys2Proof.Machine
end

