-- ==== Sys2Proof/Machine/Validate.lean ====
section
/-! DEFINITION. Validation of head commits and structure commits (R48, R53, R70, R75, R84, R93, R111 to R133, R192, R219, R399):
the configuration checked, the checks in the order of R84, and the two commands that end a validation. -/

namespace Sys2Proof.Machine

/-! ## Results and offenders (R84) -/

/-- A head, and a layer of it where one is meant. -/
abbrev Offender := Nat × Option Nat

/-- Lowest head first, then lowest layer; a head alone comes before its layers. -/
def Offender.before (a b : Offender) : Bool :=
  a.1 < b.1 || (a.1 == b.1 && match a.2, b.2 with
    | none, some _ => true
    | some x, some y => x < y
    | _, none => false)

/-- The offender that is reported. -/
def lowestOffender : List Offender → Option Offender
  | [] => none
  | x :: xs => some (xs.foldl (fun a b => if Offender.before b a then b else a) x)

/-- A validation result: the code of R84, and the offender where there is one. -/
structure Verdict where
  code : Nat
  head : Option Nat
  layer : Option Nat
  deriving DecidableEq, Repr

def Verdict.ok : Verdict := ⟨0, none, none⟩

/-- Code `c` when a check found offenders. -/
def failing (c : Nat) (o : List Offender) : Option Verdict := (lowestOffender o).map fun x => ⟨c, some x.1, x.2⟩

/-- The head reported for a check on a group, sector or lane: the lowest of the commit that uses it; where the commit names none of
its users, the lowest user. -/
def shared (named users : List Nat) : List Offender :=
  match users.filter named.contains, users with
  | h :: _, _ => [(h, none)]
  | [], h :: _ => [(h, none)]
  | [], [] => []

/-! ## The configuration checked (R81, R84) -/

/-- A head that transmits, its set and the layers it owns. -/
structure HeadPlan where
  head : Nat
  cfg : HeadCfg
  layers : List (Nat × LayerCfg)
  deriving DecidableEq, Repr

/-- The configuration of one tick: its structure, the heads with EN = 1 ascending, the enabled writeback ports, and the sets with
EN = 0 that the commit under validation carries. -/
structure Plan where
  ts : TickStruct
  heads : List HeadPlan
  ports : List (Nat × WbCfg)
  off : List (Nat × HeadCfg)
  deriving DecidableEq, Repr

/-- The commit whose set head h runs in tick t, the candidates in write order (R81). -/
def State.planCommit (s : State) (cs : List Commit) (h t : Nat) : Option Commit :=
  cs.foldl (fun a c =>
    if c.mask.contains h && c.target ≤ t && (s.headOf h).order < c.order then some c else a) none

/-- The configuration of tick t under a structure, with the commits `cs` accepted. -/
def State.plan (s : State) (cs : List Commit) (ts : TickStruct) (t : Nat) : Plan where
  ts := ts
  heads := s.allHeads.filterMap fun h =>
    let x := s.headOf h
    let p : HeadPlan := match s.planCommit cs h t with
      | some c => ⟨h, (c.heads.lookup h).getD x.cfg, ownedAfter h x.layers c.layers⟩
      | none => ⟨h, x.cfg, x.layers⟩
    if p.cfg.en then some p else none
  ports := (List.range 16).filterMap fun n =>
    let old := (s.wbOf n).cfg
    let w := cs.foldl (fun (a : Nat × WbCfg) c => match c.ports.lookup n with
      | some w => if a.1 < c.order && c.target ≤ t && c.mask.any (fun h => (s.planCommit cs h t).map (·.order) == some c.order) then
          (c.order, w) else a
      | none => a) (0, old)
    if w.2.en then some (n, w.2) else none
  off := []

def Plan.find (p : Plan) (h : Nat) : Option HeadPlan := p.heads.find? fun x => x.head == h

/-- Phases that a head transmits. -/
def HeadPlan.phases (x : HeadPlan) (ts : TickStruct) : List Nat := (List.range (min 8 ts.phases)).filter (bit x.cfg.phmask)

/-- Heads that compose bands of their own. -/
def Plan.composing (p : Plan) : List HeadPlan := p.heads.filter fun x => !x.cfg.clone

/-! ## E_PROT (R449, R452) -/

/-- The head under which a carried entry or port is reported: its staged owner where the commit names it, else its active owner.
DEDUCED, log entry 63. -/
def reportHead (c : Commit) (staged active : Nat) : Nat := if c.mask.contains staged then staged else active

/-- Buffer of a layer entry: first byte and length (R111, R452); none when it would start below address 0. -/
def LayerCfg.extent (l : LayerCfg) : Option (Nat × Nat) :=
  let pre := if l.warpBound then 64 else 0
  if l.addr < pre then none else some (l.addr - pre, pre + (l.sy + l.sh) * l.pitchB)

/-- Buffers of a writeback port on a head of `vact` lines: first byte and length of each (R133). -/
def WbCfg.extents (w : WbCfg) (vact : Nat) : List (Nat × Nat) :=
  (List.range w.nbuf).map fun k => (w.addr + k * w.stride.toNat, vact * w.pitchB)

/-- DEDUCED, log entry 64. -/
def State.checkProt (s : State) (c : Commit) : List Offender :=
  let own (i : Nat) : Nat := match c.layers.lookup i with
    | some l => l.owner
    | none => 0
  let heads := c.mask.filter fun h => !bit (s.rd (Reg.protAgHeads c.agent (h / 32))).toNat (h % 32)
  let entries := (List.range 1024).filter fun i =>
    bit c.carries i && !bit (s.rd (Reg.protAgLayers c.agent (i / 32))).toNat (i % 32)
  let buffers := c.layers.filter fun e =>
    e.2.en && e.2.srcType < 2 && match e.2.extent with
      | some x => !s.windowGrants c.agent false e.2.srcType x.1 x.2
      | none => true
  let ports := c.ports.filter fun e =>
    e.2.en && (e.2.extents (wf ((c.heads.lookup e.2.head).getD HeadCfg.init).vtiming 16 14)).any fun x =>
      !s.windowGrants c.agent true e.2.dest x.1 x.2
  heads.map (·, none) ++ entries.map (fun i => (reportHead c (own i) (s.activeOwner i), some i)) ++
    buffers.map (fun e => (reportHead c e.2.owner (s.activeOwner e.1), some e.1)) ++
    ports.map fun e => (reportHead c e.2.head (s.wbOf e.1).cfg.head, none)

/-! ## E_FORMAT (R70, R77, R111, R113, R115, R126, R128, R133, R138) -/

/-- R70's limits and the encodings of a head's set. -/
def HeadCfg.formatOk (c : HeadCfg) : Bool :=
  1 ≤ c.hact && c.hact ≤ 8192 && c.hact ≤ c.htotal && 1 ≤ c.vact && c.vact ≤ 8192 && c.vstart + c.vact ≤ c.vtotal &&
  c.bsize != 3 && c.enc != 3 && (c.calTable ≤ 2 || (c.clone && c.en))

/-- Formats that may blend in the encoded domain (R115). -/
def encodedFormat (f : Nat) : Bool := f ≤ 9 || (16 ≤ f && f ≤ 19)

/-- The buffer rules of LOCAL and CXL sources (R111, R128, R263). -/
def State.bufferOk (s : State) (l : LayerCfg) : Bool :=
  l.addr % 64 == 0 && l.pitchB % 64 == 0 && storedWidth l.format (l.sx + l.sw) ≤ l.pitchB &&
  match l.extent with
  | none => false
  | some x => l.srcType == 1 || (x.1 + x.2 ≤ s.capacity && !s.meetsFlatten x.1 x.2 && !s.meetsControl x.1 x.2)

/-- The rules of INGEST and DECODER sources (R111, R305, R343). -/
def State.producerOk (s : State) (l : LayerCfg) : Bool :=
  if l.srcType = 2 then
    let f := s.flowOf l.idx
    f.kind == 0 && l.format == f.ringFmt && l.sx + l.sw ≤ f.width && l.sy + l.sh ≤ f.height
  else
    let x := s.ctxOf l.idx
    s.part.hasCodec && l.idx ≤ 31 && l.format == 0x0A && !x.encoder && l.sx + l.sw ≤ x.width && l.sy + l.sh ≤ x.height

/-- The fields of an enabled entry. -/
def State.layerOk (s : State) (l : LayerCfg) : Bool :=
  formatBits l.format != 0 && l.mode ≤ 5 &&
  1 ≤ l.sw && l.sw ≤ 8192 && 1 ≤ l.sh && l.sh ≤ 8192 &&
  (!l.video || (1 ≤ l.dw && l.dw ≤ 8192 && 1 ≤ l.dh && l.dh ≤ 8192)) &&
  (l.policy != 3 || l.waitn != 0) &&
  l.poseSrc ≤ 71 && l.eotf ≤ 5 && l.tone != 3 && l.tlut ≤ 31 &&
  (!l.warpBound || (l.video && l.srcType < 2 && 64 ≤ l.addr)) &&
  (!l.encoded || (!l.video && !l.static && encodedFormat l.format && (l.mode == 0 || l.mode == 5))) &&
  (!l.static || (!l.bound && l.srcType < 2)) &&
  ((l.format != 0x0A && l.format != 0x0B) || (l.sx % 2 == 0 && l.sw % 2 == 0)) &&
  (l.format != 0x0E || (l.eotf == 0 && !l.narrow)) &&
  (l.asrc != 1 || l.encoded || l.eotf == 0) &&
  (if l.srcType < 2 then s.bufferOk l else s.producerOk l)

/-- The owner rule of a carried entry or port (R77, R133). -/
def State.ownerOk (s : State) (c : Commit) (staged active : Nat) : Bool :=
  staged < s.part.heads && (staged == active || (c.mask.contains staged && c.mask.contains active))

/-- The set a commit gives a head, or the head's active set. -/
def State.givenCfg (s : State) (c : Commit) (h : Nat) : HeadCfg := (c.heads.lookup h).getD (s.headOf h).cfg

/-- DEDUCED, log entry 59. -/
def State.entryOk (s : State) (c : Commit) (i : Nat) (l : LayerCfg) : Bool :=
  s.ownerOk c l.owner (s.activeOwner i) &&
  (!l.en || (s.layerOk l && !((s.givenCfg c l.owner).clone && (s.givenCfg c l.owner).en)))

/-- DEDUCED, log entry 64. -/
def State.portOk (s : State) (c : Commit) (n : Nat) (w : WbCfg) : Bool :=
  s.ownerOk c w.head (s.wbOf n).cfg.head &&
  (!w.en ||
    (let hc := s.givenCfg c w.head
     !(hc.clone && hc.en) && 1 ≤ w.nbuf && w.nbuf ≤ 8 &&
     (w.dest == 1 || (w.extents hc.vact).all fun x =>
       x.1 + x.2 ≤ s.capacity && !s.meetsFlatten x.1 x.2 && !s.meetsControl x.1 x.2)))

/-- DEDUCED, log entry 59. -/
def State.checkFormat (s : State) (c : Commit) : List Offender :=
  ((c.heads.filter fun e => !e.2.formatOk).map fun e => (e.1, none)) ++
  ((c.layers.filter fun e => !s.entryOk c e.1 e.2).map fun e => (reportHead c e.2.owner (s.activeOwner e.1), some e.1)) ++
  ((c.ports.filter fun e => !s.portOk c e.1 e.2).map fun e => (reportHead c e.2.head (s.wbOf e.1).cfg.head, none))

/-! ## E_PHASE (R48) -/

/-- Length of the window of phase i. -/
def TickStruct.window (ts : TickStruct) (i : Nat) : Nat :=
  if i + 1 < ts.phases then ts.ofs (i + 1) - ts.ofs i else tickPeriod ts.rate + ts.ofs 0 - ts.ofs i

/-- The rules of R48 that name no head. -/
def TickStruct.ok (ts : TickStruct) : Bool :=
  1 ≤ ts.phases && ts.phases ≤ 8 &&
  ((List.range (ts.phases - 1)).all fun i => ts.ofs i < ts.ofs (i + 1)) &&
  ts.ofs (ts.phases - 1) < tickPeriod ts.rate &&
  ((List.range ts.phases).all fun i => 1041666 ≤ ts.window i)

/-- VTOTAL × Lt keeps to the window of every phase the head sends. -/
def State.phaseOk (s : State) (ts : TickStruct) (x : HeadPlan) : Bool :=
  let lt := s.lineTime x.cfg
  (x.phases ts).all fun i => (x.cfg.vtotal : Int) * lt.num ≤ (ts.window i * lt.den : Nat)

def State.checkPhase (s : State) (p : Plan) : Option Verdict :=
  if !p.ts.ok then some ⟨5, none, none⟩
  else failing 5 ((p.heads.filter fun x => !s.phaseOk p.ts x).map fun x => (x.head, none))

/-! ## E_SLOT (R75, R93, R364) -/

/-- Slots of a mask. -/
def slotCount (m : Nat) : Nat := ((List.range 8).filter (bit m)).length

/-- Valid slot masks. -/
def slotMaskOk (m : Nat) : Bool := slotCount m == 1 || [0x11, 0x22, 0x44, 0x88, 0x55, 0xAA, 0xFF].contains m

/-- Twice the capacity of R75's table, in Mpx/s. -/
def slotCapacity2 (slots enc : Nat) : Nat :=
  let row (a b c : Nat) : Nat := match enc with
    | 0 => a
    | 1 => b
    | _ => c
  match slots with
  | 1 => row 840 700 525
  | 2 => row 1680 1400 1050
  | 4 => row 3360 2800 2100
  | _ => row 6400 5332 4000

/-- Payload bytes P of a full band's packet (R362). -/
def HeadCfg.payload (c : HeadCfg) : Nat := ceilDiv (c.linesOf 0 * c.hact * 3 * c.bits) 8

/-- One head's slots carry its rate and its band packets; a cell lasts 1088 ÷ 225 ns (R358). -/
def State.slotsOk (s : State) (c : HeadCfg) : Bool :=
  let n := slotCount c.slots
  let lt := s.lineTime c
  slotMaskOk c.slots &&
  ((c.hact * 2000 * lt.den : Nat) : Int) ≤ slotCapacity2 n c.enc * lt.num &&
  (((2 + ceilDiv c.payload 63) * 8 * 1088 * lt.den : Nat) : Int) ≤ (225 * n * c.bandLines : Nat) * lt.num

/-- R93's conditions on an enabled clone. -/
def Plan.cloneOk (p : Plan) (x : HeadPlan) : Bool :=
  !x.cfg.clone || match p.find x.cfg.cloneSrc with
    | none => false
    | some y =>
      let a := x.cfg
      let b := y.cfg
      y.head / 32 == x.head / 32 && !b.clone && a.synth == b.synth && a.div == b.div && a.htotal == b.htotal && a.hact == b.hact &&
      a.vtotal == b.vtotal && a.vact == b.vact && a.vstart == b.vstart && a.bsize == b.bsize && a.phmask == b.phmask && a.enc == b.enc

/-- Heads that use a lane. -/
def Plan.laneUsers (p : Plan) (lane : Nat) : List Nat := (p.heads.filter fun x => laneOfHead x.head x.cfg == lane).map (·.head)

/-- Heads that use slot i of a lane. -/
def Plan.slotUsers (p : Plan) (lane i : Nat) : List Nat :=
  (p.heads.filter fun x => laneOfHead x.head x.cfg == lane && bit x.cfg.slots i).map (·.head)

/-- A set with EN = 0 must hold a valid mask too; a slot with two users is reported as a check on its lane. -/
def State.checkSlot (s : State) (named : List Nat) (p : Plan) : List Offender :=
  ((p.heads.filter fun x => !s.slotsOk x.cfg || !p.cloneOk x).map fun x => (x.head, none)) ++
  ((p.off.filter fun e => !slotMaskOk e.2.slots).map fun e => (e.1, none)) ++
  (List.range s.part.lanes).flatMap fun l =>
    if (List.range 8).any fun i => 1 < (p.slotUsers l i).length then shared named (p.laneUsers l) else []

/-! ## E_PROG (R192) -/

/-- The static check of the program of each phase a head sends: phase, rule and index of the first failure. -/
def State.progFault (s : State) (ts : TickStruct) (x : HeadPlan) : Option (Nat × Nat × Nat) :=
  (x.phases ts).findSome? fun i =>
    let order := layerOrder x.cfg x.layers i
    let video := order.any fun e => e.2.video &&
      (List.range x.cfg.nb).any fun j => (layerList x.cfg order j).any fun y => y.1 == e.1
    let keys := (order.filter fun e => e.2.mode == 4).map (·.1)
    (s.staticCheck (groupOfHead x.head x.cfg) x.cfg.table i video keys).map fun r => (i, r.1, r.2)

/-- Heads that fail with E_PROG, each with its program's fault if that is the reason: GROUP = 3 in any set, a clone's and one with EN = 0
among them (R84, R93). -/
def State.progFaults (s : State) (p : Plan) : List (HeadPlan × Option (Nat × Nat × Nat)) :=
  (p.heads ++ p.off.map fun e => (⟨e.1, e.2, []⟩ : HeadPlan)).filterMap fun x =>
    if x.cfg.groupSel = 3 then some (x, none)
    else if x.cfg.clone || !x.cfg.en then none
    else (s.progFault p.ts x).map fun f => (x, some f)

/-- GRP.PCHECK records one failure: the lowest head whose program fails. DEDUCED, log entry 63. -/
def State.recordProg (s : State) (l : List (HeadPlan × Option (Nat × Nat × Nat))) : State :=
  match l.findSome? fun e => e.2.map fun f => (e.1, f) with
  | none => s
  | some (x, i, rule, index) =>
    let g := groupOfHead x.head x.cfg
    let s := s.put (F.grpPcheckHead g) x.head
    let s := s.put (F.grpPcheckPhase g) i
    let s := s.put (F.grpPcheckRule g) rule
    s.put (F.grpPcheckIndex g) index

/-! ## E_LINEBUF (R121) -/

/-- Q of R121. -/
def rowNeed (l : LayerCfg) : Nat := 5 + max 1 (ceilDiv l.sh (max 1 l.dh)) + l.skew

def lineBufOk (c : HeadCfg) (l : LayerCfg) : Bool :=
  declaredWd c l ≤ 8192 && rowNeed l * declaredWd c l ≤ 49152

def Plan.checkLinebuf (p : Plan) : List Offender :=
  p.composing.flatMap fun x => (x.layers.filter fun e =>
    e.2.en && e.2.video && (x.phases p.ts).any (bit e.2.phmask) && !lineBufOk x.cfg e.2).map fun e => (x.head, some e.1)

/-! ## Charges (R123, R125, R132) -/

/-- Resources a band's bytes are charged to: reads of a sector region, reads of the CXL share, writeback to a region, writeback to
the CXL share. -/
inductive Resource where
  | region (r : Nat)
  | cxl
  | wbRegion (r : Nat)
  | wbCxl
  deriving DecidableEq, Repr

/-- The charges of one band. -/
structure Charge where
  head : Nat
  group : Nat
  sector : Nat
  latch : Int
  deadline : Int
  cycles : Nat
  scaler : List Nat
  bytes : List (Resource × Nat)
  /-- Bound layers, and the length of the layer list. -/
  binds : Nat
  layers : Nat
  deriving DecidableEq, Repr

def Charge.bytesOf (c : Charge) (r : Resource) : Nat := c.bytes.foldl (fun a e => if e.1 = r then a + e.2 else a) 0

/-- Where the charge of a layer's source begins: its first byte's address and its pitch (R123). -/
def State.sourceBase (s : State) (l : LayerCfg) : Nat × Nat :=
  match l.srcType with
  | 2 => ((s.flowOf l.idx).base, (s.flowOf l.idx).pitch)
  | 3 => ((s.ctxOf l.idx).outBase, (s.ctxOf l.idx).outPitch)
  | _ => (l.addr, l.pitchB)

/-- The sector region of an address; past installed DRAM, the last one. DEDUCED, log entry 62. -/
def State.chargedRegion (s : State) (a : Nat) : Nat := min (s.regionOf a) (s.part.sectors - 1)

/-- Bytes at an address, charged to one resource. -/
def State.at' (s : State) (l : LayerCfg) (a n : Nat) : List (Resource × Nat) :=
  if l.srcType = 1 then [(.cxl, n)] else [(.region (s.chargedRegion a), n)]

/-- The granules [g0, g1), each charged to the region that holds it. -/
def State.granules (s : State) (l : LayerCfg) (g0 g1 : Nat) : List (Resource × Nat) :=
  if l.srcType = 1 then [(.cxl, 64 * (g1 - g0))]
  else (List.range s.part.sectors).filterMap fun r =>
    let lo := max g0 (r * s.regionSize / 64)
    let hi := if r + 1 = s.part.sectors then g1 else min g1 ((r + 1) * s.regionSize / 64)
    if lo < hi then some (.region r, 64 * (hi - lo)) else none

/-- Charged width of a row (R113). -/
def chargedWidth (fmt w : Nat) : Nat := if fmt = 0x0A then 3 * w else storedWidth fmt w

/-- Head-fetch bytes of one graphic layer in band j (R123). -/
def State.fetchBytes (s : State) (c : HeadCfg) (l : LayerCfg) (j : Nat) : List (Resource × Nat) :=
  let b := s.sourceBase l
  let top := j * c.bandLines
  if l.posBound then s.at' l b.1 (c.linesOf j * 64 * (ceilDiv (chargedWidth l.format l.sw) 64 + 1))
  else
    let r := clipRect c l l.dstX l.dstY
    let w := r.x1 - r.x0
    (List.range (c.linesOf j)).flatMap fun i =>
      let y := top + i
      if w = 0 ∨ y < r.y0 ∨ r.y1 ≤ y then []
      else
        let row := b.1 + (l.sy + ((y : Int) - l.dstY).toNat) * b.2
        let col := l.sx + ((r.x0 : Int) - l.dstX).toNat
        if l.format = 0x0A then s.at' l row (64 * (ceilDiv (3 * w) 64 + 1))
        else s.granules l ((row + col * formatBits l.format / 8) / 64)
          (ceilDiv (row + ceilDiv ((col + w) * formatBits l.format) 8) 64)

/-- Scaler bytes of one video layer in a band (R123). -/
def State.scalerBytes (s : State) (c : HeadCfg) (l : LayerCfg) : List (Resource × Nat) :=
  s.at' l (s.sourceBase l).1 (declaredHf c l * 64 * (ceilDiv (chargedWidth l.format (declaredWd c l)) 64 + 1))

/-- Scaler time of one video layer in a band, in ns (R123). -/
def scalerTime (c : HeadCfg) (l : LayerCfg) : Nat := ceilDiv (declaredWd c l * declaredHf c l * 5) 8 + 200

/-- DEDUCED, log entry 62. -/
def State.layerBytes (s : State) (c : HeadCfg) (j : Nat) (e : Nat × LayerCfg) : List (Resource × Nat) :=
  if e.2.video then s.scalerBytes c e.2 else s.fetchBytes c e.2 j

/-- The layers of a phase's flatten run (R126), flattened or not; none on a part without the flatten cache. -/
def State.runIn (s : State) (order : List (Nat × LayerCfg)) : List Nat :=
  if s.flag F.topCaps1Flatten then (order.takeWhile fun e => e.2.static && !e.2.shed).map (·.1) else []

/-- What a flattened run adds in its sector's region: the excess of the surface's bytes over the members' there (R132). -/
def surfaceExtra (c : HeadCfg) (own j : Nat) (members : List (Resource × Nat)) : List (Resource × Nat) :=
  let surf := c.linesOf j * (ceilDiv (c.hact * 8) 64 * 64)
  let had := members.foldl (fun a e => if e.1 = .region own then a + e.2 else a) 0
  [(.region own, surf - had)]

/-- Bytes of a band's lines, as a port stores them in one of its buffers, that lie in sector region r. -/
def State.wbBytesIn (s : State) (w : WbCfg) (k j : Nat) (c : HeadCfg) (r : Nat) : Nat :=
  (List.range (c.linesOf j)).foldl (fun n i =>
    let a := w.addr + k * w.stride.toNat + (j * c.bandLines + i) * w.pitchB
    let lo := max a (r * s.regionSize)
    let hi := if r + 1 = s.part.sectors then a + c.lineBytes else min (a + c.lineBytes) ((r + 1) * s.regionSize)
    n + (hi - lo)) 0

/-- Writeback bytes of a band: each port that captures the sub-frame, in every region where one of its buffers takes the band's lines
(R123). DEDUCED, log entry 62. -/
def State.writeBytes (s : State) (ports : List (Nat × WbCfg)) (h phase j : Nat) (c : HeadCfg) : List (Resource × Nat) :=
  (ports.filter fun e => e.2.head == h && e.2.takes phase).flatMap fun e =>
    if e.2.dest = 1 then [(.wbCxl, c.linesOf j * c.lineBytes)]
    else (List.range s.part.sectors).filterMap fun r =>
      let n := (List.range e.2.nbuf).foldl (fun m k => max m (s.wbBytesIn e.2 k j c r)) 0
      if n = 0 then none else some (.wbRegion r, n)

/-- The charges of band j of a head in a phase whose sub-frame starts at P. -/
def State.charge (s : State) (p : Plan) (x : HeadPlan) (prog : List Ins) (order : List (Nat × LayerCfg)) (phase j : Nat) (start : Int) : Charge :=
  let list := layerList x.cfg order j
  let run := s.runIn order
  let bytes := list.flatMap (s.layerBytes x.cfg j)
  let members := list.filter fun e => run.contains e.1
  let extra := if members.isEmpty then [] else surfaceExtra x.cfg (x.head / 32) j (members.flatMap (s.layerBytes x.cfg j))
  { head := x.head, group := groupOfHead x.head x.cfg, sector := x.head / 32,
    latch := s.latchAt x.cfg start j, deadline := s.deadlineAt x.cfg start j,
    cycles := programCost ⟨x.cfg.bandLines, x.cfg.spanCols, list.length⟩ prog,
    scaler := (list.filter fun e => e.2.video).map fun e => scalerTime x.cfg e.2,
    bytes := bytes ++ extra ++ s.writeBytes p.ports x.head phase j x.cfg,
    binds := (list.filter fun e => e.2.bound).length,
    layers := list.length }

/-- The charges of every band of a tick that begins at `t`. -/
def State.charges (s : State) (p : Plan) (t : Int) : List Charge :=
  p.composing.flatMap fun x => (x.phases p.ts).flatMap fun i =>
    let order := layerOrder x.cfg x.layers i
    let g := groupOfHead x.head x.cfg
    let prog := s.program g (s.phaseEntry g x.cfg i)
    (List.range x.cfg.nb).map fun j => s.charge p x prog order i j (t + (p.ts.ofs i : Int))

/-! ## Windows (R86, R124) -/

/-- Loads that fall due at one deadline: latch, their sum, the largest. -/
structure Due where
  deadline : Int
  loads : List (Int × Nat × Nat)
  deriving DecidableEq, Repr

def addLoad (l : Int) (n : Nat) : List (Int × Nat × Nat) → List (Int × Nat × Nat)
  | [] => [(l, n, n)]
  | x :: xs => if x.1 = l then (l, x.2.1 + n, max x.2.2 n) :: xs else x :: addLoad l n xs

def addDue (l d : Int) (n : Nat) : List Due → List Due
  | [] => [⟨d, [(l, n, n)]⟩]
  | x :: xs =>
    if d < x.deadline then ⟨d, [(l, n, n)]⟩ :: x :: xs
    else if d = x.deadline then { x with loads := addLoad l n x.loads } :: xs
    else x :: addDue l d n xs

/-- Loads (latch, deadline, amount) by deadline ascending. -/
def dues (ls : List (Int × Int × Nat)) : List Due := ls.foldl (fun a e => addDue e.1 e.2.1 e.2.2 a) []

/-- Per deadline b, from the last to the first: the loads due at b with latch ≥ a, and the largest load with latch < a and a later
deadline. DEDUCED, log entry 61. -/
def windowRows (a : Int) (ds : List Due) : Nat × List (Int × Nat × Nat) :=
  ds.foldr (fun d acc =>
    let inn := d.loads.foldl (fun n x => if a ≤ x.1 then n + x.2.1 else n) 0
    let out := d.loads.foldl (fun n x => if x.1 < a then max n x.2.2 else n) acc.1
    (out, (d.deadline, inn, acc.1) :: acc.2)) (0, [])

/-- Some window from a latch a to a deadline b > a holds more than (b - a) × rate, with the largest load already started where
`blocking` (R86, R124). -/
def windowOver (rate : Q) (blocking : Bool) (ds : List Due) : Bool :=
  let starts := (ds.flatMap fun d => d.loads.map (·.1)).eraseDups
  starts.any fun a =>
    ((windowRows a ds).2.foldl (fun (t : Nat × Bool) r =>
      let n := t.1 + r.2.1
      let load : Int := (n + (if blocking then r.2.2 else 0) : Nat)
      (n, t.2 || (decide (a < r.1) && decide ((r.1 - a) * rate.num < load * rate.den)))) (0, false)).2

/-- The band the group takes first: earliest deadline, then lowest head (R13). -/
def firstDue : List Charge → Option Charge
  | [] => none
  | x :: xs => some (xs.foldl (fun a b => if b.deadline < a.deadline ∨ (b.deadline = a.deadline ∧ b.head < a.head) then b else a) x)

/-- More than 64 bands wait between latch and start when each takes its full cost or runs to its deadline (R86): `clock` in eighths of
a ns, `wait` latched and not started, `rest` still to latch in latch order. DEDUCED, log entry 61. -/
def queueOver : Nat → Int → List Charge → List Charge → Bool
  | 0, _, _, _ => false
  | n + 1, clock, wait, rest =>
    let clock := match wait, rest with
      | [], c :: _ => max clock (8 * c.latch)
      | _, _ => clock
    let come := rest.takeWhile fun c => 8 * c.latch ≤ clock
    let rest := rest.drop come.length
    let wait := wait ++ come
    let before := (wait.filter fun c => 8 * c.latch < clock).length
    match firstDue wait with
    | none => false
    | some c =>
      64 < before || 64 < wait.length - 1 ||
        queueOver n (max clock (min (clock + 5 * c.cycles) (8 * c.deadline))) (wait.erase c) rest

def latchInsert (c : Charge) : List Charge → List Charge
  | [] => [c]
  | x :: xs => if c.latch ≤ x.latch then c :: x :: xs else x :: latchInsert c xs

/-- The queue of a group never needs more than its 64 places. -/
def queueFits (cs : List Charge) : Bool :=
  cs.length ≤ 64 || !queueOver cs.length (-(10 : Int) ^ 12) [] (cs.foldr latchInsert [])

/-! ## E_SCALER and E_BUDGET -/

/-- What the budgets are checked over: the charges of two consecutive ticks, one tick period apart. -/
abbrev Window := List Charge

/-- Heads of some charges, ascending. -/
def headsOf (cs : List Charge) : List Nat := (List.range 128).filter fun h => cs.any fun c => c.head == h

/-- R124's scaler check: windows run between the latches and deadlines of every band of the sector, whether it is charged scaler time
or not. -/
def State.checkScaler (s : State) (named : List Nat) (w : Window) : List Offender :=
  (List.range s.part.sectors).flatMap fun r =>
    let cs := w.filter fun c => c.sector == r
    let users := cs.filter fun c => !c.scaler.isEmpty
    let loads := cs.flatMap fun c => (if c.scaler.isEmpty then [0] else c.scaler).map fun t => (c.latch, c.deadline, t)
    if users.isEmpty then []
    else if windowOver (.ofNat 6) true (dues loads) then shared named (headsOf users) else []

/-- R74 on a head's own depth, sets with EN = 0 included; an enabled clone's is ignored (R93). -/
def Plan.depthBad (p : Plan) : List Offender :=
  ((p.composing.map fun x => (x.head, x.cfg)) ++ p.off).filterMap fun e =>
    if e.2.depth < e.2.lead + 1 then some (e.1, none) else none

/-- Bytes of band buffer a head is allotted (R74). -/
def HeadPlan.allotment (x : HeadPlan) : Nat := if x.cfg.clone then 0 else x.cfg.depth * x.cfg.bandLines * x.cfg.lineBytes

/-- Allotments of a sector: over the transition, the larger of a head's two (R74). -/
def Plan.allotted (p old : Plan) (r : Nat) : Nat :=
  ((List.range 32).map (32 * r + ·)).foldl (fun a h =>
    let of (q : Plan) : Nat := match q.find h with | some x => x.allotment | none => 0
    a + max (of p) (of old)) 0

def State.allotBad (s : State) (named : List Nat) (p old : Plan) : List Offender :=
  (List.range s.part.sectors).flatMap fun r =>
    if 16777216 < p.allotted old r then
      shared named ((List.range 128).filter fun h => h / 32 == r && ((p.find h).isSome || (old.find h).isSome))
    else []

/-- R86: 1.6 cycles per ns. -/
def State.cyclesBad (s : State) (named : List Nat) (w : Window) : List Offender :=
  (List.range s.part.groups).flatMap fun g =>
    let cs := w.filter fun c => c.group == g
    if windowOver ⟨16, 10⟩ true (dues (cs.map fun c => (c.latch, c.deadline, c.cycles))) || !queueFits cs then
      shared named (headsOf cs)
    else []

/-- R87: 1,700 Mpx/s per group. -/
def State.stageBad (s : State) (named : List Nat) (p : Plan) : List Offender :=
  (List.range s.part.groups).flatMap fun g =>
    let xs := p.composing.filter fun x => groupOfHead x.head x.cfg == g
    let sum : Q := xs.foldl (fun (a : Q) x => a.add (Q.div (.ofNat x.cfg.hact) (s.lineTime x.cfg))) (.ofNat 0)
    if Q.lt ⟨17, 10⟩ sum then shared named (xs.map (·.head)) else []

/-- A byte check: the charges `cs` against one resource's rate. -/
def bytesBad (named : List Nat) (rate : Q) (of : Charge → Nat) (cs : List Charge) : List Offender :=
  let cs := cs.filter fun c => of c != 0
  if windowOver rate false (dues (cs.map fun c => (c.latch, c.deadline, of c))) then shared named (headsOf cs) else []

/-- The byte budget of R240 at a set point: bytes per ns. -/
def dramRate (fsp : Nat) : Q := if fsp = 0 then ⟨2048, 100⟩ else ⟨546, 10⟩

/-- The set point that validation uses (R240): the one in force, or a pending one that is lower. -/
def State.checkedFsp (s : State) : Nat :=
  match s.dmc.change with
  | some c => min (s.get F.dmcStatusFsp) c.1
  | none => s.get F.dmcStatusFsp

def State.dramBad (s : State) (named : List Nat) (fsp : Nat) (w : Window) : List Offender :=
  (List.range s.part.sectors).flatMap fun r =>
    bytesBad named (dramRate fsp) (fun c => c.bytesOf (.region r) + c.bytesOf (.wbRegion r)) w

/-- Crossbar share of a sector into another's region (R17). -/
def State.crossbarShare (s : State) : Q := if s.part.sectors = 4 then ⟨96, 10⟩ else ⟨192, 10⟩

def State.crossbarBad (s : State) (named : List Nat) (w : Window) : List Offender :=
  (List.range s.part.sectors).flatMap fun r => (List.range s.part.sectors).flatMap fun o =>
    if r = o then []
    else bytesBad named s.crossbarShare (fun c => c.bytesOf (.region o)) (w.filter fun c => c.sector == r)

def State.cxlBad (s : State) (named : List Nat) (w : Window) : List Offender :=
  (List.range s.part.sectors).flatMap fun r =>
    let cs := w.filter fun c => c.sector == r
    bytesBad named s.cxlReadShare (fun c => c.bytesOf .cxl) cs ++
      bytesBad named s.cxlWriteShare (fun c => c.bytesOf .wbCxl) cs

/-- R219: 128 bindings at one instant. -/
def bindsBad (named : List Nat) (w : Window) : List Offender :=
  ((w.map (·.latch)).eraseDups).flatMap fun t =>
    let cs := w.filter fun c => c.latch == t && c.binds != 0
    if 128 < cs.foldl (fun a c => a + c.binds) 0 then shared named (headsOf cs) else []

/-- A domain is on and not being switched off. DEDUCED, log entry 63. -/
def State.domStays (s : State) (d : Nat) : Bool := s.domOn d && s.domWanted d

/-- R399. -/
def State.domainsBad (s : State) (p : Plan) : List Offender :=
  (p.heads.filter fun x =>
    let r := x.head / 32
    !(s.domStays (13 + x.head / 8) && s.domStays (1 + groupOfHead x.head x.cfg) &&
      s.domStays (29 + laneOfHead x.head x.cfg) && s.domStays (81 + x.cfg.synth)) ||
    ((x.layers.any fun e => e.2.en && e.2.video && (x.phases p.ts).any (bit e.2.phmask)) &&
      (List.range 3).any fun g => !s.domStays (1 + 3 * r + g))).map fun x => (x.head, none)

/-- The first of R84's budget checks that fails. `w` is the steady window, `tr` the transition's. -/
def State.checkBudget (s : State) (named : List Nat) (p old : Plan) (w tr : Window) : Option Verdict :=
  let both (f : Window → List Offender) : List Offender := f w ++ f tr
  [((w.filter fun c => 64 < c.layers).map fun c => (c.head, none)),
   p.depthBad ++ s.allotBad named p old,
   both (s.cyclesBad named),
   s.stageBad named p,
   both (s.dramBad named s.checkedFsp),
   both (s.crossbarBad named),
   both (s.cxlBad named),
   both (bindsBad named),
   s.domainsBad p].findSome? (failing 1)

/-! ## Validation (R84) -/

/-- The windows of two consecutive ticks. -/
def State.window (s : State) (a b : Plan) : Window := s.charges a 0 ++ s.charges b (tickPeriod a.ts.rate : Int)

/-- Everything from E_PHASE on, of a configuration and the one before it; PCHECK records a failing program. DEDUCED, log entry 61. -/
def State.checkPlan (s : State) (named : List Nat) (p old : Plan) : State × Verdict :=
  match s.checkPhase p with
  | some v => (s, v)
  | none =>
  match failing 4 (s.checkSlot named p) with
  | some v => (s, v)
  | none =>
  let pf := s.progFaults p
  match failing 6 (pf.map fun e => (e.1.head, none)) with
  | some v => (s.recordProg pf, v)
  | none =>
  match failing 2 p.checkLinebuf with
  | some v => (s, v)
  | none =>
  let w := s.window p p
  let tr := if old.ts.rate = p.ts.rate && old != p then s.window old p else []
  match failing 3 (s.checkScaler named w ++ s.checkScaler named tr) with
  | some v => (s, v)
  | none => (s, (s.checkBudget named p old w tr).getD .ok)

/-- Configurations checked one after the other, each with the one before it: the first failure is the result. -/
def State.checkPlans (s : State) (named : List Nat) : List (Plan × Plan) → State × Verdict
  | [] => (s, .ok)
  | x :: xs =>
    let r := s.checkPlan named x.1 x.2
    if r.2.code = 0 then r.1.checkPlans named xs else r

/-- The configuration of tick t with the commits `cs`, under a structure armed for tick m, and that of the tick before. -/
def State.planPair (s : State) (cs : List Commit) (ts : TickStruct) (m t : Nat) : Plan × Plan :=
  (s.plan cs ts t, s.plan cs (if m < t then ts else s.time.ts) (t - 1))

/-- Validation of a head commit, with the commits `cs` accepted before it (R84), and against a structure armed for a later tick (R49).
DEDUCED, log entry 58. -/
def State.validate (s : State) (cs : List Commit) (c : Commit) : State × Verdict :=
  match failing 7 (s.checkProt c) with
  | some v => (s, v)
  | none =>
  match failing 8 (s.checkFormat c) with
  | some v => (s, v)
  | none =>
    let p := { s.plan (cs ++ [c]) (s.structFor c.target) c.target with off := c.heads.filter fun e => !e.2.en }
    let later := match s.time.armed with
      | some a => if a.valid && c.target < a.target then [s.planPair (cs ++ [c]) a.ts a.target a.target] else []
      | none => []
    s.checkPlans c.mask ((p, s.plan cs (s.structFor (c.target - 1)) (c.target - 1)) :: later)

/-- TICK.COFFEND's word, as the mirror forwards it (R424). -/
def Verdict.word (v : Verdict) : Nat :=
  (v.layer.getD 0) % 1024 + 1024 * ofBool v.layer.isSome + 65536 * ((v.head.getD 0) % 128) + 8388608 * ofBool v.head.isSome

/-- The result of a commit (R78, R85). -/
def State.recordVerdict (s : State) (c : Commit) (v : Verdict) : State :=
  s.recordCommit c.agent c.seq v.code c.late v.head v.layer

/-- A commit accepted: it becomes the armed set of each head it names (R81). -/
def State.acceptCommit (s : State) (c : Commit) : State :=
  let s := { s with accepted := s.accepted ++ [c] }
  (c.mask.foldl State.refreshArmed s).armedRates

/-- COMMIT_VALIDATION_DONE. DEDUCED, log entry 58. -/
def effCommitValidation (s : State) : State :=
  match s.busy with
  | none => s
  | some c =>
    let r := s.validate s.accepted c
    let v := r.2
    let s := { (r.1.recordVerdict c v) with busy := none }
    let s := s.forwardResult 3 [c.agent, c.seq, v.code, v.word]
    if v.code = 0 then s.acceptCommit c else s.rejectCommit c.mask

def execCommitValidationDone (s : State) : Host.Outcome State Fault Refusal := s.done (effCommitValidation s)

/-- An accepted commit that fails under the structure in force is withdrawn (R53). -/
def State.withdraw (s : State) (c : Commit) (v : Verdict) : State :=
  let s := { s with accepted := s.accepted.filter fun x => x.order != c.order }
  let s := (s.recordVerdict c v).rejectCommit c.mask
  (c.mask.foldl State.refreshArmed s).armedRates

/-- Every accepted commit, in write order and without the later ones, against the structure in force (R53). DEDUCED, log entry 33. -/
def State.revalidate (s : State) : State :=
  s.accepted.foldl (fun s c =>
    let r := s.validate (s.accepted.filter fun x => x.order < c.order) c
    if r.2.code = 0 then r.1 else r.1.withdraw c r.2) s

/-- Validation of an armed structure (R49): the configuration of its first tick, and that of every later tick for which a set is
armed, which R52 may re-arm for the first ones. DEDUCED, log entry 33. -/
def State.validateStruct (s : State) (a : ArmedStruct) : State × Verdict :=
  let later := ((s.accepted.map (·.target)).filter (a.target < ·)).eraseDups
  s.checkPlans [] ((a.target :: later).map (s.planPair s.accepted a.ts a.target))

/-- STRUCT_VALIDATION_DONE (R49, R51, R53). DEDUCED, log entry 33. -/
def effStructValidation (s : State) : State :=
  if !s.flag F.tickTstructStatBusy then s
  else match s.time.armed with
  | none => s.put F.tickTstructStatBusy 0
  | some a =>
    let r := s.validateStruct a
    let v := r.2
    let s := (r.1.put F.tickTstructStatCode v.code).put F.tickTstructStatHead (v.head.getD 0)
    let s := if v.code = 0 then { s with time := { s.time with armed := some { a with valid := true } } }
      else
        let s := { s with time := { s.time with armed := none } }
        (((s.put F.tickTstructStatPending 0).put F.tickTctlStructArm 0).signal 944).revalidate
    let s := s.put F.tickTstructStatBusy 0
    s.forwardResult 4 [v.code, v.head.getD 0]

def execStructValidationDone (s : State) : Host.Outcome State Fault Refusal := s.done (effStructValidation s)

end Sys2Proof.Machine
end

