-- ==== Sys2Proof/Machine/Mir.lean ====
section
/-! DEFINITION. The redundant pair (R421 to R437): messages received, time, heartbeats, takeover and swap. -/

namespace Sys2Proof.Machine

/-! ## Receiving messages in sequence (R422, R423, R434) -/

/-- Some numbers of the sequence were not received: a standby is no longer synchronised. DEDUCED, log entry 106. -/
def State.mirrorGap (s : State) : State :=
  if s.standby then
    let s := { s with mir := { s.mir with gapOrder := s.commits } }
    (s.put F.mirStatSync 0).raise F.mirEventMirDesync 929
  else s

/-- A message with sequence number `q` is delivered: `f` applies it. The first one since EN was set starts the sequence. A number already
passed is not delivered again, unless the peer has been counted as lost since the last one: it may have started anew.
DEDUCED, log entry 106. -/
def State.mirrorTake (s : State) (q : Nat) (f : State → State) : State :=
  let d := (q + 2 ^ 32 - s.mir.inSeq) % 2 ^ 32
  if s.mir.heard && !s.mir.lost && 2 ^ 31 ≤ d then s
  else
    let s := if !s.mir.heard || d = 0 then s else s.mirrorGap
    f { s with mir := { s.mir with inSeq := (q + 1) % 2 ^ 32, heard := true, lost := false } }

/-- An item that a standby takes from its primary; after a swap the new primary takes those that the old one had taken before (R433). -/
def State.onStandby (s : State) (f : State → State) : State := if s.standby || s.mir.tail then f s else s

/-! ## The items of R424 -/

/-- A forwarded write: the staging set, or the agent's CMASK; ignored and counted in a domain that is off (R400). -/
def State.mirrorWrite (s : State) (agent off : Nat) (value : Word) : State :=
  s.onStandby fun s =>
    if !mirrored off || absentAt s.part off then s
    else if !s.domOn (domainAt off) then s.deny .off 12 true off
    else if 0x40210 ≤ off ∧ off < 0x40220 then s.storeAt (bank agent off) off value
    else s.pairWrite agent off value State.store

/-- A forwarded commit word (R426): the snapshot waits for the primary's result; its own code is the standby's validation.
DEDUCED, log entry 109. -/
def State.mirrorCommit (s : State) (agent w : Nat) (word : Word) : State :=
  s.onStandby fun s =>
    let named := s.cmask agent
    let mask := named.filter (· < s.part.heads)
    if mask.isEmpty then
      (if named.isEmpty then s else s.signal 950).recordCommit agent (word.toNat % 65536) 0 false none none
    else
      let c := s.snapshot 12 (word.toNat % 65536) w mask
      let s := { s with commits := s.commits + 1 }
      let s := if c.late then mask.foldl (fun s h => s.raise (F.headEventCommitLate h) (4 * h + 1)) s else s
      let r := s.validate s.accepted c
      { r.1 with mir := { r.1.mir with waiting := r.1.mir.waiting ++ [⟨some c, r.2.code, agent⟩] } }

/-- A forwarded structure commit. -/
def State.mirrorStruct (s : State) (agent w : Nat) : State :=
  s.onStandby fun s =>
    let ts := s.stagedTick
    let m := s.structTarget ts w 256 s.time.nextTick
    let late := m != s.time.nextTick
    let a : ArmedStruct := ⟨ts, w, m, late, false⟩
    let s := { s with time := { s.time with armed := some a } }
    let s := ((s.put F.tickTctlStructArm 1).put F.tickTstructStatPending 1).put F.tickTstructStatLate (ofBool late)
    let s := if late then s.signal 945 else s
    let r := s.validateStruct a
    { r.1 with mir := { r.1.mir with waiting := r.1.mir.waiting ++ [⟨none, r.2.code, agent⟩] } }

/-- The two codes differ (R426). DEDUCED, log entry 109. -/
def State.diverge (s : State) (seq pcode scode : Nat) : State :=
  if pcode = scode then s
  else (((s.put F.mirDivergeSeq seq).put F.mirDivergePcode pcode).put F.mirDivergeScode scode).raise F.mirEventMirDiverge 930

/-- The primary's result of a commit: armed when it is OK and some frame latch of its target tick has not passed. DEDUCED, log entry 109. -/
def State.mirrorVerdict (s : State) (m : MirCommit) (c : Commit) (code offend : Nat) : State :=
  let s := s.diverge c.seq code m.own
  let s := s.recordCommit m.agent c.seq code c.late
    (if bit offend 23 then some (field offend 16 7) else none) (if bit offend 10 then some (field offend 0 10) else none)
  if code ≠ 0 then s.rejectCommit c.mask
  else if c.mask.any fun h => c.target < (s.headOf h).latchTick then s
  else s.acceptCommit c

/-- The primary's result of a structure commit. -/
def State.mirrorStructVerdict (s : State) (m : MirCommit) (code head : Nat) : State :=
  let s := (s.diverge 0 code m.own).put F.tickTstructStatCode code
  let s := s.put F.tickTstructStatHead head
  match s.time.armed with
  | none => s
  | some a =>
    if code = 0 && s.time.ticknum.toNat < a.target then { s with time := { s.time with armed := some { a with valid := true } } }
    else
      let s := { s with time := { s.time with armed := none } }
      let s := (s.put F.tickTstructStatPending 0).put F.tickTctlStructArm 0
      if code = 0 then s else (s.signal 944).revalidate

/-- A forwarded result: of the oldest commit word of that agent and number, or of the oldest structure commit. -/
def State.mirrorResult (s : State) (commit : Option (Nat × Nat)) (code offend : Nat) : State :=
  s.onStandby fun s =>
    let hit (m : MirCommit) : Bool := match m.commit, commit with
      | some c, some k => m.agent == k.1 && c.seq == k.2
      | none, none => true
      | _, _ => false
    match s.mir.waiting.find? hit with
    | none => s
    | some m =>
      let s := { s with mir := { s.mir with waiting := s.mir.waiting.erase m } }
      match m.commit with
      | some c => s.mirrorVerdict m c code offend
      | none => s.mirrorStructVerdict m code offend

/-- A forwarded pose record (R428); one past its pair stamp is late. -/
def State.mirrorPose (s : State) (src : Nat) (r : List Nat) (stamp : Nat) : State :=
  s.onStandby fun s =>
    let s := if stamp + s.get F.mirCfgPdly < s.now then (s.bump F.mirCountPlate).raise F.mirEventMirPlate 931 else s
    s.poseHistory src r stamp

/-- A time message (R429): the first lock steps DEVTIME while no head transmits, then the servo slews. -/
def State.mirrorTime (s : State) (t : Nat) : State :=
  if !s.standby then s
  else
    let off : Int := (t : Int) + (s.get F.mirStatOwd : Int) - (s.now : Int)
    let s := s.put F.mirTerrNs (unsigned 16 (max (-32768) (min 32767 (-off))))
    if s.mir.locked then s.servo
    else if s.anyTransmitting then s
    else
      let s := (s.stepBy off).retarget
      { s with mir := { s.mir with locked := true } }.put F.mirTerrNs 0

/-- A forwarded flatten rebuild start, or the start of use of a complete surface (R430). -/
def State.mirrorFlatten (s : State) (h : Nat) (done : Bool) : State :=
  s.onStandby fun s =>
    let l := s.mir.flat.filter (· != h)
    let s := { s with mir := { s.mir with flat := if done then l ++ [h] else l } }
    if done && h < s.part.heads then s.useWithPrimary h else s

/-- A heartbeat of the peer (R431). -/
def State.mirrorBeat (s : State) (tick band : Nat) : State :=
  let s := { s with mir := { s.mir with hbSeen := s.now, hbGot := some (tick, band), peerOn := true } }
  (s.put F.mirStatMissed 0).put F.mirStatPeer 1

/-- A pending swap is given up, and with it the change of the standby state that it had set. -/
def State.dropSwap (s : State) : State :=
  match s.mir.swapTick with
  | some t =>
    let v := s.get F.mirCtlRole == 0
    { (s.put F.mirCtlSwap 0) with
      wlk := { s.wlk with changes := s.wlk.changes.filter (· != (t, v)) }, mir := { s.mir with swapTick := none } }
  | none => s

/-! ## Delivery through the injector (R455) -/

/-- A swap at instant `w`: both devices change their standby state for tick t0, where they exchange roles; it replaces one pending. -/
def State.startSwap (s : State) (w : Nat) : State :=
  let s := s.dropSwap
  let r := s.setStandby w (s.get F.mirCtlRole == 0)
  { (r.1.put F.mirCtlSwap 1) with mir := { r.1.mir with swapTick := some r.2 } }

/-- The peer's swap request of instant `w` arrives: a primary with its own request pending keeps to that one, and a takeover under way is
not swapped away. DESIGN CHOICE, log entry 108. -/
def State.peerSwap (s : State) (w : Nat) : State :=
  if (s.mir.swapTick.isSome && s.get F.mirCtlRole == 0) || s.mir.takeTick.isSome then s else s.startSwap w

/-- What a message does. A swap request has the next number of its sequence: the table gives it no operand for it. -/
def State.mirrorApply (s : State) : Instr → State
  | .mirrorWrite q agent off value => s.mirrorTake q fun s => s.mirrorWrite agent off value
  | .mirrorCommit q agent struct word w => s.mirrorTake q fun s => if struct then s.mirrorStruct agent w else s.mirrorCommit agent w word
  | .mirrorResult q commit code offend => s.mirrorTake q fun s => s.mirrorResult commit code offend
  | .mirrorFence q n value stamp => s.mirrorTake q fun s => s.onStandby fun s => if n < 1024 then s.takeSignal n (value % 65536) stamp else s
  | .mirrorPoseRecord q src r stamp => s.mirrorTake q fun s => s.mirrorPose src (r.map BitVec.toNat) stamp
  | .mirrorTime q t => s.mirrorTake q fun s => s.mirrorTime t
  | .mirrorFlatten q h done => s.mirrorTake q fun s => s.mirrorFlatten h done
  | .mirrorHeartbeat q t b => s.mirrorTake q fun s => s.mirrorBeat t b
  | .swap _ w => (if s.mir.heard then { s with mir := { s.mir with inSeq := (s.mir.inSeq + 1) % 2 ^ 32 } } else s).peerSwap w.toNat
  | _ => s

/-- The values of a message once the bit of its payload that a draw picks is flipped. -/
def flipValues (kind v : Nat) (vals : List Nat) : List Nat := mirrorValues (mirrorWidths kind) vals (flipAny (mirrorBytes kind vals) v)

/-- A message with one bit of its payload flipped, picked by the upper half `v` of a draw (R454). -/
def damaged (v : Nat) : Instr → Instr
  | .mirrorWrite q agent off value =>
    let x := flipValues 0 v [agent, off, value.toNat]
    .mirrorWrite q (x.getD 0 0) off (BitVec.ofNat 32 (x.getD 2 0))
  | .mirrorCommit q agent struct word w =>
    let x := flipValues 1 v [agent, word.toNat, w]
    .mirrorCommit q (x.getD 0 0) struct (BitVec.ofNat 32 (x.getD 1 0)) (x.getD 2 0)
  | .mirrorResult q none code offend =>
    let x := flipValues 4 v [code, offend]
    .mirrorResult q none (x.getD 0 0) (x.getD 1 0)
  | .mirrorResult q (some c) code offend =>
    let x := flipValues 3 v [c.1, c.2, code, offend]
    .mirrorResult q (some (x.getD 0 0, x.getD 1 0)) (x.getD 2 0) (x.getD 3 0)
  | .mirrorFence q n value stamp =>
    let x := flipValues 5 v [n, value, stamp]
    .mirrorFence q n (x.getD 1 0) (x.getD 2 0)
  | .mirrorPoseRecord q src r stamp =>
    let x := flipValues 6 v ([src] ++ r.map BitVec.toNat ++ [stamp])
    .mirrorPoseRecord q src (((x.drop 1).take 64).map (BitVec.ofNat 8)) (x.getD 65 0)
  | .mirrorTime q t => .mirrorTime q ((flipValues 7 v [t]).getD 0 0)
  | .mirrorFlatten q h done => .mirrorFlatten q ((flipValues 8 v [h]).getD 0 0) done
  | .mirrorHeartbeat q t b =>
    let x := flipValues 10 v [t, b]
    .mirrorHeartbeat q (x.getD 0 0) (x.getD 1 0)
  | .swap agent w => .swap agent (BitVec.ofNat 64 ((flipValues 11 v [w.toNat]).getD 0 0))
  | m => m

/-- Link of a mirror lane. -/
def isMirrorLink (k : Nat) : Bool := 24 ≤ k && k < 28

/-- A message held by a reorder is delivered (R422 keeps the order of delivery). -/
def State.mirrorRelease (s : State) : State :=
  let held := s.finj.held.filter fun e => isMirrorLink e.1
  let s := { s with finj := { s.finj with held := s.finj.held.filter fun e => !isMirrorLink e.1 } }
  held.foldl (fun s e => s.mirrorApply e.2.2) s

/-- A message arrives on the link of a device of a pair with a lane to receive it. -/
def effMirror (m : Instr) (s : State) : State :=
  if !s.paired || s.mirrorLanes.isEmpty then s
  else
    let r := s.mirrorInject 0
    let s := r.1
    match r.2 with
    | none => s.mirrorRelease.mirrorApply m
    | some (k, a, v) => match a with
      | 0 => s.mirrorRelease
      | 1 => s.mirrorRelease.mirrorApply (damaged v m)
      | 2 => s.mirrorRelease
      | _ => { s.mirrorRelease with finj := { s.mirrorRelease.finj with held := s.mirrorRelease.finj.held ++ [(k, s.now, m)] } }

def execMirrorWrite (seq agent off : Nat) (value : Word) (s : State) : Host.Outcome State Fault Refusal :=
  s.done (effMirror (.mirrorWrite seq agent off value) s)

def execMirrorCommit (seq agent : Nat) (struct : Bool) (word : Word) (written : Nat) (s : State) : Host.Outcome State Fault Refusal :=
  s.done (effMirror (.mirrorCommit seq agent struct word written) s)

def execMirrorResult (seq : Nat) (commit : Option (Nat × Nat)) (code offend : Nat) (s : State) : Host.Outcome State Fault Refusal :=
  s.done (effMirror (.mirrorResult seq commit code offend) s)

def execMirrorFence (seq n value stamp : Nat) (s : State) : Host.Outcome State Fault Refusal :=
  s.done (effMirror (.mirrorFence seq n value stamp) s)

def execMirrorPoseRecord (seq source : Nat) (record : List Byte) (stamp : Nat) (s : State) : Host.Outcome State Fault Refusal :=
  s.done (effMirror (.mirrorPoseRecord seq source record stamp) s)

def execMirrorTime (seq devtime : Nat) (s : State) : Host.Outcome State Fault Refusal := s.done (effMirror (.mirrorTime seq devtime) s)

def execMirrorFlatten (seq head : Nat) (done : Bool) (s : State) : Host.Outcome State Fault Refusal :=
  s.done (effMirror (.mirrorFlatten seq head done) s)

def execMirrorHeartbeat (seq tick band : Nat) (s : State) : Host.Outcome State Fault Refusal :=
  s.done (effMirror (.mirrorHeartbeat seq tick band) s)

/-! ## Heartbeats and takeover (R431, R432) -/

/-- HEARTBEAT_SEND: every 100 µs while the reference head does not transmit. -/
def effHeartbeatSend (s : State) : State :=
  if !s.paired || s.transmitting (s.get F.mirCfgHbhead) then s
  else (s.advanceTo (s.mir.hbSent + 100000)).heartbeat true s.time.ticknum.toNat 0

def execHeartbeatSend (s : State) : Host.Outcome State Fault Refusal := s.done (effHeartbeatSend s)

/-- The instant at which the next heartbeat counts as missed: its expected instant plus PDLY. Both devices send at the same band
latches, so the device's own last one is the peer's expected one. DEDUCED, log entry 110. -/
def State.beatDue (s : State) : Nat :=
  (if s.transmitting (s.get F.mirCfgHbhead) then s.mir.hbSent else s.mir.hbSeen + 100000) + s.get F.mirCfgPdly

/-- Takeover at instant X (R432); no swap is pending any more. -/
def State.takeOver (s : State) : State :=
  let s := s.dropSwap
  let r := s.setStandby s.now false
  { r.1 with mir := { r.1.mir with takeTick := some r.2 } }

/-- The heartbeat expected next has arrived already or has been counted: the device's own last one was at a band latch of the reference
head for which the peer's is there, or was not at one. -/
def State.beatSettled (s : State) : Bool :=
  s.transmitting (s.get F.mirCfgHbhead) && (s.mir.hbDone || s.mir.hbGot == some s.mir.hbKey)

/-- HEARTBEAT_MISS. DEDUCED, log entry 110. -/
def effHeartbeatMiss (s : State) : State :=
  if !s.paired || s.beatSettled then s
  else
    let due := s.beatDue
    let s := s.advanceTo due
    let s := { s with mir := { s.mir with hbSeen := due - s.get F.mirCfgPdly, hbDone := true } }
    let n := s.get F.mirStatMissed
    if n = 3 then s
    else
      let s := s.put F.mirStatMissed (n + 1)
      if n + 1 < 3 then s
      else
        let s := { s with mir := { s.mir with lost := true } }
        let s := (s.put F.mirStatPeer 0).raise F.mirEventMirPeerlost 926
        if s.standby && s.flag F.mirStatSync then s.takeOver else s

def execHeartbeatMiss (s : State) : Host.Outcome State Fault Refusal := s.done (effHeartbeatMiss s)

/-! ## Swap (R433), and the other writes of MIR.CTL -/

/-- SWAP written with 1. -/
def State.requestSwap (s : State) : State :=
  if !s.paired || s.mir.swapTick.isSome || !s.flag F.mirStatSync || !s.flag F.mirStatPeer then s.raise F.mirEventSwapIgn 928
  else (s.mirrorSend 11 [s.now]).startSwap s.now

/-- EN changes from 0 to 1: sequence numbers and heartbeats start anew, and SYNC is 1 on a primary only; a standby transmits STANDBY 1
(R434). DEDUCED, log entry 107. -/
def State.mirrorEnable (s : State) : State :=
  let s := (((s.put F.mirStatSync (1 - s.get F.mirCtlRole)).put F.mirStatPeer 0).put F.mirStatMissed 0).put F.mirTerrNs 0
  let s := { s with mir := { MirSt.init with gapOrder := s.commits, hbSent := s.now, hbSeen := s.now, timeAt := s.now } }
  if s.get F.mirCtlRole = 1 then (s.setStandby s.now true).1 else s

/-- EN changes from 1 to 0: nothing of the pair is pending. -/
def State.mirrorDisable (s : State) : State :=
  let v := s.get F.mirCtlRole
  let s := if s.mir.swapTick.isSome then s.dropSwap.put F.wlkCtlStandby v else s
  { s with mir := { s.mir with takeTick := none, waiting := [], tail := false, owes := false } }

/-- A write to MIR.CTL. DESIGN CHOICE, log entry 108. -/
def effMirCtl (value : Word) (s : State) : State :=
  let was := s.flag F.mirCtlEn
  let stood := s.standby
  let on := bit value.toNat 0
  let s := if was then s else s.put F.mirCtlRole (wf value 1 1)
  let s := if was && !on then s.mirrorDisable else s
  let s := s.put F.mirCtlEn (ofBool on)
  let s := if !was && on then s.mirrorEnable else s
  let s := if s.standby = stood then s else s.ownCorr
  if bit value.toNat 2 then s.requestSwap else s

/-- SWAP: the register write of an agent, or, with the mirror peer's number, the request that the link brings, with its instant. -/
def execSwap (agent : Nat) (value : Word64) (s : State) : Host.Outcome State Fault Refusal :=
  s.done (if agent = 12 then effMirror (.swap agent value) s else s.guardWrite agent Reg.mirCtl (effMirCtl (value.setWidth 32)))

/-! ## Lanes and time (R422, R424, R436) -/

/-- MIRROR_LANE_LOCK_CHANGE. -/
def effMirrorLane (n : Nat) (locked : Bool) (s : State) : State :=
  if s.paired && bit (s.get F.mirCfgLanes) n && s.domOn (53 + n) then s.mirrorLock n locked else s

def execMirrorLaneLockChange (lane : Nat) (locked : Bool) (s : State) : Host.Outcome State Fault Refusal :=
  s.done (effMirrorLane lane locked s)

/-- MIRROR_TIME_SEND: the primary's time message, one every 10 µs of DEVTIME. -/
def effMirrorTimeSend (s : State) : State :=
  if !s.pairedPrimary then s
  else
    let s := s.advanceTo (s.mir.timeAt + 10000)
    { (s.forward 7 [s.now]) with mir := { (s.forward 7 [s.now]).mir with timeAt := s.now } }

def execMirrorTimeSend (s : State) : Host.Outcome State Fault Refusal := s.done (effMirrorTimeSend s)

end Sys2Proof.Machine
end

