-- ==== Sys2Proof/Machine/Boot.lean ====
section
/-! DEFINITION. Resets (R438, R439, R466, R469), Dawn (R440 to R445), flash commands (R446), starting management cores (R447), and
the units a fault injection holds back (R455). -/

namespace Sys2Proof.Machine

/-! ## Resets -/

/-- The block after a reset: everything at its reset value but what lies outside the device, and, where `trip`, THM.TRIPREC. RSTCAUSE
names the reset. DESIGN CHOICE, log entries 10, 14, 60. -/
def State.afterReset (s : State) (trip : Bool) (cause : Nat) : State :=
  let r : State := { State.reset with
    pending := s.pending, part := s.part, lastRead := s.lastRead, fresh := s.fresh, out := s.out, pins := s.pins
    dram := s.dram, host := s.host }
  let r := if trip then r.wr Reg.thmTriprec (s.rd Reg.thmTriprec) else r
  r.wr Reg.bootRstcause (BitVec.ofNat 32 cause)

/-- PORST: PORST_N has been low for 100 ns, and resets every domain; a shorter pulse is no command (R469). DEDUCED, log entry 127. -/
def effPorst (s : State) : State := { s with pins := { s.pins with porst := true } }.afterReset false 1

def execPorst (s : State) : Host.Outcome State Fault Refusal := s.done (effPorst s)

/-- RESET_PIN: RESET_N has been low for 100 ns; while PORST_N is low too, PORST alone is recorded (R469). DEDUCED, log entry 127. -/
def effResetPin (s : State) : State :=
  let s := { s with pins := { s.pins with reset := true } }
  if s.pins.porst || s.pins.undervolt then s else s.afterReset true 2

def execResetPin (s : State) : Host.Outcome State Fault Refusal := s.done (effResetPin s)

/-- RESET_RELEASE: the later rising edge of PORST_N and RESET_N: DEVTIME is 0 and Dawn begins. DEDUCED, log entry 127. -/
def effResetRelease (s : State) : State :=
  if s.pins.porst || s.pins.reset then
    let cause := if s.pins.porst then 1 else 2
    let s := { s with pins := { s.pins with porst := false, reset := false } }
    s.afterReset (cause == 2) cause
  else s

def execResetRelease (s : State) : Host.Outcome State Fault Refusal := s.done (effResetRelease s)

/-- XSPI_RESET_N, low while the device is in reset (R476). -/
def State.xspiResetN (s : State) : Bool := !s.held

/-- Dawn stands still: the device is held in reset, or a trip has switched everything but domain 0 off (R416, R439, R466). -/
def State.dawnStill (s : State) : Bool := s.held || s.pwr.tripped

/-- AON_UNDERVOLTAGE: domain 0 is held in reset while the always-on rail is low (R466). DEDUCED, log entry 127. -/
def effUndervoltage (low : Bool) (s : State) : State :=
  if low then { s with pins := { s.pins with undervolt := true } }.afterReset false 1
  else if s.pins.undervolt then { s with pins := { s.pins with undervolt := false } }.afterReset false 1
  else s

def execAonUndervoltage (low : Bool) (s : State) : Host.Outcome State Fault Refusal := s.done (effUndervoltage low s)

/-- PERST: the CXL domains and the link are reset; LINK_STATE is raised under R272. The link is down, so the requests outstanding are held
until it returns or CXL_COMPLETION_TIMEOUT ends them (R272). DEDUCED, log entry 130. -/
def effPerst (s : State) : State :=
  if s.held then s
  else
    let up := s.flag F.cxlLinkL0
    let s := s.resetRegs fun o => domainAt o != 69
    let s := { s with
      cxl := { s.cxl with latSeen := none, hdmBase := 0, hdmSize := 0, up := false }, ltrEn := false, pcie := []
      pins := { s.pins with perst := true }, boot := { s.boot with cfgReady := false }
      icu := { s.icu with unmasked := [], msixPend := [], msixHeld := [] } }
    if up then s.cxlBudget.raise F.cxlEventLinkState 717 else s

def execPerst (s : State) : Host.Outcome State Fault Refusal := s.done (effPerst s)

/-! ## The Dawn timeline (R440) -/

/-- MDLL_LOCK: management core 0 starts in ROM and the header read begins. DEDUCED, log entry 15. -/
def effMdllLock (s : State) : State :=
  if s.boot.stage ≠ 0 ∨ s.dawnStill then s
  else
    let s := (s.put F.clkStatusCmdllLock 1).put F.clkStatusSmdllLock 1
    { s.startMgmt 0 (s.startAddr 0) with boot := { s.boot with stage := 1 } }

def execMdllLock (s : State) : Host.Outcome State Fault Refusal := s.done (effMdllLock s)

/-- CXL_CONFIG_READY. DEDUCED, log entry 130. -/
def effCxlReady (s : State) : State :=
  if s.held then s
  else { s with boot := { s.boot with cfgReady := true }, pins := { s.pins with perst := false } }

def execCxlConfigReady (s : State) : Host.Outcome State Fault Refusal := s.done (effCxlReady s)

/-- A little-endian word of a list of bytes. -/
def wordAt (bs : List Nat) (o : Nat) : Nat := ofBytesLE ((bs.drop o).take 4)

def hdrLength (h : List Nat) : Nat := wordAt h 0x08
def hdrNsect (h : List Nat) : Nat := wordAt h 0x10

/-- The first of causes 1 to 4 that the header meets, or 0 (R442, R443). -/
def headerCause (h : List Nat) : Nat :=
  let len := hdrLength h
  if h.length < 64 then 1
  else if wordAt h 0 ≠ 0x49435854 then 2
  else if wordAt h 4 / 65536 ≠ 1 then 3
  else if len % 64 ≠ 0 ∨ len < 128 ∨ 67108864 < len ∨ 1 < wordAt h 0x0C ∨ hdrNsect h = 0 ∨ 32 < hdrNsect h ∨
      ((h.drop 0x18).take 0x24).any (· != 0) then 4
  else 0

/-- BOOT_HEADER_READ: the header as the flash gave it; no bytes where it did not answer. DEDUCED, log entries 15, 128. -/
def effHeaderRead (h : List Nat) (s : State) : State :=
  if s.boot.stage ≠ 1 ∨ s.dawnStill then s
  else
    let h := h.take 64
    let c := headerCause h
    let s := { s with boot := { s.boot with stage := 2, header := h, octal := c == 0 && wordAt h 0x0C == 1 } }
    s.put F.bootStatusCause c

def execBootHeaderRead (header : List Byte) (s : State) : Host.Outcome State Fault Refusal :=
  s.done (effHeaderRead (header.map BitVec.toNat) s)

/-! ## Checking and loading the image (R442 to R444) -/

/-- A section: TYPE, OFFSET, SIZE, DEST. -/
structure Section where
  type : Nat
  offset : Nat
  size : Nat
  dest : Nat
  deriving DecidableEq, Repr

def sections (img : List Nat) (n : Nat) : List Section :=
  (List.range n).map fun i =>
    let o := 0x40 + 16 * i
    ⟨wordAt img o, wordAt img (o + 4), wordAt img (o + 8), wordAt img (o + 12)⟩

/-- The management SRAM that holds [a, a + n) whole; the own-core addresses name no one SRAM. -/
def inOneSram (a n : Nat) : Bool :=
  (0x20000 ≤ a && a + n ≤ 0xA0000 && (n == 0 || a / 0x10000 == (a + n - 1) / 0x10000)) || (0x100000 ≤ a && a + n ≤ 0x200000)

/-- DEDUCED, log entry 128. -/
def Section.ok (img : List Nat) (len : Nat) (x : Section) : Bool :=
  x.offset + x.size ≤ len && x.offset % 64 == 0 &&
  match x.type with
  | 1 => x.size == 0x300
  | 2 => x.size == 4 && (let m := wordAt img x.offset; 256 ≤ m && m ≤ 4096 && m % 4 == 0)
  | 3 => inOneSram x.dest x.size
  | 4 => true
  | _ => false

/-- Values of the DMC section at `o` and the flatten region size (R444). -/
def State.loadDmc (s : State) (img : List Nat) (o region : Nat) : State :=
  let m := wordAt img o
  let r := wordAt img (o + 4)
  let s := (s.put F.dmcMapOrder (field m 0 2)).put F.dmcMapDensity (field m 4 2)
  let s := ((s.put F.dmcRefcfgTrefipb (field r 0 12)).put F.dmcRefcfgTrfcpb (field r 16 8)).put F.dmcRefcfgTpbr (field r 24 8)
  let s := (List.range 8).foldl (fun s i =>
    let b := wordAt img (o + 0x40 + 8 * i)
    ((s.put (F.dmcCregBaseMib i) (field b 0 17)).put (F.dmcCregBaseEn i) (field b 31 1)).put
      (F.dmcCregSizeSize8 i) (field (wordAt img (o + 0x44 + 8 * i)) 0 13)) s
  s.put F.fltSizeRegion region

/-- A CONTROL window: first byte and length; length 0 while it is disabled. -/
def State.controlWin (s : State) (i : Nat) : Nat × Nat :=
  (s.get (F.dmcCregBaseMib i) * 1048576, if s.flag (F.dmcCregBaseEn i) then s.get (F.dmcCregSizeSize8 i) * 8388608 else 0)

/-- The CONTROL windows keep R262 and meet neither each other nor the flatten region (R444). -/
def State.controlOk (s : State) : Bool :=
  (List.range 8).all fun i =>
    let a := s.controlWin i
    a.2 == 0 || (a.1 + a.2 ≤ s.capacity && s.regionOf a.1 == s.regionOf (a.1 + a.2 - 1) && !s.meetsFlatten a.1 a.2 &&
      (List.range i).all fun j =>
        let b := s.controlWin j
        a.1 + a.2 ≤ b.1 || b.1 + b.2 ≤ a.1)

/-- The image's check word (R442). -/
def imageCheck (h img : List Nat) (len : Nat) : Nat := crc32c (h.take 0x3C ++ (img.take len).drop 0x40)

/-- The block with the DMC and flatten values of an image loaded, when cause 6 does not apply. DEDUCED, log entry 128. -/
def State.loadImage (s : State) (h img : List Nat) : Option State :=
  let len := hdrLength h
  let ss := sections img (hdrNsect h)
  let dmc := ss.filter fun x => x.type == 1
  let flat := ss.filter fun x => x.type == 2
  if len < 0x40 + 16 * hdrNsect h || !(ss.all (Section.ok img len)) || 1 < flat.length then none
  else match dmc with
  | [d] =>
    let s := s.loadDmc img d.offset (match flat with | f :: _ => wordAt img f.offset | [] => 256)
    if s.controlOk then
      some (ss.foldl (fun s x =>
        if x.type = 3 then
          { s with sram := Mem.writeBytes dramDefault s.sram x.dest (((img.drop x.offset).take x.size).map (BitVec.ofNat 8)) }
        else s) s)
    else none
  | _ => none

/-! ## Factory defaults (R445) -/

/-- The Marhus standard program (its listed encodings). -/
def standardProgram : List Nat :=
  [0x000000FF00000031, 0x0000000000000032, 0x000DFFFD00000061, 0x000CFFFE00000061, 0x0000000000000023, 0x0000000000001023] ++
  [0x0004FFFF00000061, 0x000000FF00002030, 0x000000FF00043038, 0x000000FF00C40040, 0x0000000000000050, 0x0000000048024048] ++
  [0x0000090000080040, 0x0000010000000049, 0x0000020008000048, 0x0000010000000050, 0x0000000100000032, 0x0000000000000062]

/-- A 64-bit word of group 0's program store. -/
def State.pokeProg (s : State) (o v : Nat) : State := s.wr64 (pstore 0 o) v

/-- Consecutive 64-bit words from byte `o`. -/
def State.pokeProgs (s : State) (o : Nat) : List Nat → State
  | [] => s
  | v :: vs => (s.pokeProg o v).pokeProgs (o + 8) vs

/-- The identity curve of R154, four entries to a word; entries past 3,968 are never read. -/
def identityCurve : List Nat :=
  (List.range 1024).map fun k =>
    let e (i : Nat) : Nat := if i ≤ 3968 then 8 * i else 0
    e (4 * k) + 65536 * e (4 * k + 1) + 65536 ^ 2 * e (4 * k + 2) + 65536 ^ 3 * e (4 * k + 3)

def State.defaultProgram (s : State) : State :=
  let s := s.pokeProgs 0 (List.replicate 8 0x0004220000480040)
  let s := s.pokeProgs 0x40 standardProgram
  let s := s.pokeProgs 0x100 [0x10000, 0, 0x10000, 0, 0x10000]
  let s := s.pokeProgs 0x200 identityCurve
  s.pokeProgs 0x2200 [0x3C00000000000000, 0, 0, 0]

/-- The pixel word of bar k. -/
def barWord (k : Nat) : Nat :=
  let on (b : Bool) : Nat := if b then 1023 else 0
  let r := on ([0, 1, 4, 5].contains k)
  let g := on (k < 4)
  let b := on ([0, 2, 4, 6].contains k)
  r + 1024 * g + 1048576 * b

/-- Bytes of the picture buffer that are not 0, ascending. -/
def barPicture : Mem :=
  (List.range 1080).flatMap fun y => (List.range 1680).flatMap fun x =>
    let a := 7680 * y + 4 * x
    (bytesLE 4 (barWord (x / 240))).zipIdx.filterMap fun e => if e.1 = 0 then none else some (a + e.2, BitVec.ofNat 8 e.1)

/-- The picture buffer is written from local address 0. -/
def State.defaultPicture (s : State) : State := { s with dram := barPicture ++ Tbl.drop 0 8294400 s.dram }

/-- FSP0 delays from the factory ROM, whose values the spec does not give. DESIGN CHOICE, log entry 129. -/
def State.defaultDelays (s : State) : State :=
  (List.range s.part.channels).foldl (fun s n =>
    [Reg.dmcChDly n 0 0, Reg.dmcChDly n 0 1, Reg.dmcChVref n 0, Reg.dmcChCadly n 0].foldl (fun s o =>
      s.tick.wr o (writable o (Config.freeWord s.fresh))) s) s

/-- Registers that the defaults put back to their reset values: the protection map, TSRC and the staged tick structure, DMC.MAP,
REFCFG and CREG, and the registers of LAYER[0] and HEAD[0]. -/
def defaultsReset (o : Nat) : Bool :=
  (0x20100 ≤ o && o < 0x22100) || o == Reg.tickTsrc || o == Reg.tickTrate || o == Reg.tickPhcfg || (0x40040 ≤ o && o < 0x40060) ||
  o == Reg.dmcMap || o == Reg.dmcRefcfg || (0x500080 ≤ o && o < 0x5000C0) || (0x100000 ≤ o && o < 0x100020) ||
  (0x200000 ≤ o && o < 0x200100)

/-- Every write of R445, and the commit of head 0 as agent 0. DESIGN CHOICE, log entry 129. -/
def State.factoryDefaults (s : State) : State :=
  let s := (s.clearRegs fun o => !defaultsReset o).put F.protCtlDelegate 1
  let s := (s.put F.fltSizeRegion 256).defaultDelays
  let s := effHtbCfg 0 true 0 (effHtbCfg 0 false 0x60 s)
  let s := (effLaneCfg 0 1 s).defaultProgram.defaultPicture
  let s := (s.wr (Reg.layerCtl 0) 0x101).wr (Reg.layerSrc 0) 0x20000
  let s := (s.wr (Reg.layerPitch 0) 7680).wr (Reg.layerSrcsize 0) 0x04380780
  let s := (s.put (F.headCtlEn 0) 1).put (F.headLinkSlots 0) 1
  effCommit 0 0 (s.wr (bank 0 (Reg.tickCmask 0)) 1)

/-- The header's values appear in the boot unit's registers (R463); a flash that did not answer gave none. -/
def State.showHeader (s : State) : State :=
  let h := s.boot.header
  if s.get F.bootStatusCause = 1 then s
  else
    let s := (s.wr Reg.bootImglen (BitVec.ofNat 32 (hdrLength h))).wr Reg.bootEntry (BitVec.ofNat 32 (wordAt h 0x14))
    (s.put F.bootStatusMinor (wordAt h 4)).put F.bootStatusMajor (wordAt h 4 / 65536)

/-- BOOT_IMAGE_CHECKED: the image as the flash gave it. DEDUCED, log entry 15. -/
def effImageChecked (img : List Nat) (s : State) : State :=
  if s.boot.stage ≠ 2 ∨ s.dawnStill then s
  else
    let h := s.boot.header
    let len := hdrLength h
    let c := s.get F.bootStatusCause
    let due := 40000 + (if s.boot.octal then ceilDiv ((len - 64) * 5) 2 else len * 160)
    let s := (if c = 0 && s.time.uptime < due then s.elapse (due - s.time.uptime) else s).showHeader
    let sum := imageCheck h img len
    let s := if c = 0 then s.wr Reg.bootCheck (BitVec.ofNat 32 sum) else s
    let c := if c ≠ 0 then c else if sum ≠ wordAt h 0x3C then 5 else 0
    let ok := if c = 0 then s.loadImage h img else none
    let c := if c = 0 && ok.isNone then 6 else c
    match ok with
    | some s =>
      let s := { (s.put F.bootStatusState 1) with boot := { s.boot with stage := 3 } }
      let e := wordAt h 0x14
      if e = 0 then s else s.setMgmt 0 { s.mgmtOf 0 with pc := e, wait := .none }
    | none =>
      let s := { ((s.put F.bootStatusCause c).put F.bootStatusState 1) with boot := { s.boot with stage := 3 } }
      let s := (s.put F.bootStatusDefaulted 1).factoryDefaults
      s.raise F.bootEventBootDefaulted 952

def execBootImageChecked (image : List Byte) (s : State) : Host.Outcome State Fault Refusal :=
  s.done (effImageChecked (image.map BitVec.toNat) s)

/-! ## Flash commands (R446) -/

/-- XSPI_COMMAND: a write to BOOT.XCMD. DEDUCED, log entry 131. -/
def effXcmd (value : Word) (s : State) : State :=
  if s.flag F.bootXcmdBusy then s
  else
    let s := s.store Reg.bootXcmd value
    if bit value.toNat 31 then
      let s := s.put F.bootXcmdBusy 1
      let n := min 64 (s.get F.bootXcmdLen)
      let wrt := s.flag F.bootXcmdWrite
      let buf := (s.rdList (Reg.bootXbuf 0) 16).flatMap fun w => bytesLE 4 w.toNat
      s.emit (.xspi (s.get F.bootXcmdOp) (if s.flag F.bootXcmdAddr then some (s.rd Reg.bootXaddr).toNat else none) wrt
        (if wrt then buf.take n else []) n)
    else s

def execXspiCommand (agent : Nat) (value : Word) (s : State) : Host.Outcome State Fault Refusal :=
  s.done (s.guardWrite agent Reg.bootXcmd (effXcmd value))

/-- Bytes put into BOOT.XBUF from its start. DEDUCED, log entry 131. -/
def State.fillXbuf (s : State) (bs : List Nat) : State :=
  (List.range 16).foldl (fun s i =>
    let old := bytesLE 4 (s.rd (Reg.bootXbuf i)).toNat
    let new := (List.range 4).map fun k => (bs[4 * i + k]?).getD (old.getD k 0)
    s.wr (Reg.bootXbuf i) (BitVec.ofNat 32 (ofBytesLE new))) s

/-- XSPI_DONE: the command ends, with the bytes the flash gave. -/
def effXspiDone (data : List Nat) (s : State) : State :=
  if !s.flag F.bootXcmdBusy then s
  else
    let s := if s.flag F.bootXcmdWrite then s else s.fillXbuf (data.take (min 64 (s.get F.bootXcmdLen)))
    (s.put F.bootXcmdBusy 0).raise F.bootEventXspiDone 953

def execXspiDone (data : List Byte) (s : State) : Host.Outcome State Fault Refusal := s.done (effXspiDone (data.map BitVec.toNat) s)

/-! ## BOOT.CTL (R439, R447) -/

/-- Core k (1 to 3) starts, unless it runs or its domain is off. DEDUCED, log entry 120. -/
def State.startCore (s : State) (k : Nat) : State :=
  if (s.mgmtOf k).on || !s.domOn (73 + k) then s
  else (s.startMgmt k (s.startAddr k)).put ⟨Reg.bootCtl, k, 1⟩ 1

/-- A write to BOOT.CTL: SWRESET by a privileged agent resets the device; else START bits start cores. -/
def effBootCtl (agent : Nat) (value : Word) (s : State) : State :=
  if bit value.toNat 0 && s.privileged agent then s.afterReset true 4
  else [1, 2, 3].foldl (fun s k => if bit value.toNat k then s.startCore k else s) s

def execSwreset (agent : Nat) (value : Word) (s : State) : Host.Outcome State Fault Refusal :=
  s.done (s.guardWrite agent Reg.bootCtl (effBootCtl agent value))

def execCoreStart (agent : Nat) (value : Word) (s : State) : Host.Outcome State Fault Refusal :=
  s.done (s.guardWrite agent Reg.bootCtl (effBootCtl agent value))

/-! ## Held units (R455) -/

/-- DEVTIME at which a unit held on a link was held. -/
def State.heldSince (s : State) (k : Nat) : Option Nat := (s.finj.held.find? fun e => e.1 == k).map fun e => e.2.1

/-- FINJ_HOLD_EXPIRY: no unit has followed within 1 ms. DEDUCED, log entry 132. -/
def effHoldExpiry (k : Nat) (s : State) : State :=
  match s.heldSince k with
  | some t =>
    let s := s.advanceTo (t + 1000000)
    if isMirrorLink k then s.mirrorRelease
    else if 16 ≤ k ∧ k < 24 then s.ethHeld (k - 16)
    else s.serialHeld (k - 28) s.now
  | none => if isMirrorLink k then s.releaseMirror else s

def execFinjHoldExpiry (link : Nat) (s : State) : Host.Outcome State Fault Refusal := s.done (effHoldExpiry link s)

end Sys2Proof.Machine
end

