-- ==== Sys2Proof/Machine/Boundary.lean ====
section
/-! DEFINITION. The tick boundary (R47): ticks and structures, the standby state of the Wall Link, and pixel-map sends. -/

namespace Sys2Proof.Machine

/-- TICK_BOUNDARY; a clock that has died reaches no boundary (R63). DEDUCED, log entry 6. -/
def effTickBoundary (s : State) : State :=
  if s.still then s
  else
    let s := s.boundary
    (s.standBoundary s.time.ticknum.toNat).pixBoundary s.time.ticknum.toNat

def execTickBoundary (s : State) : Host.Outcome State Fault Refusal := s.done (effTickBoundary s)

end Sys2Proof.Machine
end

