-- ==== Sys2Proof/Machine/Freq.lean ====
section
/-! DEFINITION. Changing the set point of local DRAM (R260): the request and its tests, the hold for a capture, the change and its
end, and the withdrawal. -/

namespace Sys2Proof.Machine

/-- The latest target tick of an armed commit or structure, or the current tick. -/
def State.lastTarget (s : State) : Nat :=
  let t := s.accepted.foldl (fun a c => max a c.target) s.time.ticknum.toNat
  match s.time.armed with
  | some a => if a.valid then max t a.target else t
  | none => t

/-- The configuration that R81 and the structures select for a tick. -/
def State.planOf (s : State) (t : Nat) : Plan := s.plan s.accepted (s.structFor t) t

/-- The configurations in force meet the byte budget at 20.48 bytes per ns in every tick up to the latest target, and over each
transition between ticks of one rate (R260). -/
def State.fitsFsp0 (s : State) : Bool :=
  let k := s.time.ticknum.toNat
  (List.range (s.lastTarget - k + 1)).all fun i =>
    let p := s.planOf (k + i)
    let n := s.planOf (k + i + 1)
    (s.dramBad [] 0 (s.window p p)).isEmpty && (p.ts.rate != n.ts.rate || (s.dramBad [] 0 (s.window p n)).isEmpty)

/-- A request is refused (R260, step 1). -/
def State.freqRefused (s : State) (target : Nat) : Bool :=
  s.frozen || (target == 1 && !s.flag F.dmcCtlDlyvalid1) || (target == 0 && s.anyTransmitting && !s.fitsFsp0)

/-- CANCEL: a change that has not reached step 4 is withdrawn. -/
def State.freqCancel (s : State) : State :=
  match s.dmc.change with
  | some (_, _, false) =>
    ({ s with dmc := { s.dmc with change := none } }.put F.dmcStatusFreqbusy 0).put F.dmcFreqReq 0
  | _ => s

/-- A write to DMC.FREQ. DEDUCED, log entry 85. -/
def effFreqWrite (value : Word) (s : State) : State :=
  let s := s.put F.dmcFreqTarget (wf value 0 1)
  let s := if bit value.toNat 2 then s.freqCancel else s
  if !bit value.toNat 1 || s.flag F.dmcStatusFreqbusy then s
  else
    let target := s.get F.dmcFreqTarget
    if s.freqRefused target then (s.put F.dmcFreqReq 0).raise (F.dmcChEventFreqReject 0) 656
    else
      let s := (s.put F.dmcFreqReq 1).put F.dmcStatusFreqbusy 1
      { s with dmc := { s.dmc with change := some (target, s.time.uptime, false) } }

def execFreqRequest (agent : Nat) (value : Word) (s : State) : Host.Outcome State Fault Refusal :=
  s.done (s.guardWrite agent Reg.dmcFreq (effFreqWrite value))

def execFreqCancel (agent : Nat) (value : Word) (s : State) : Host.Outcome State Fault Refusal :=
  s.done (s.guardWrite agent Reg.dmcFreq (effFreqWrite value))

/-- A capture that still runs 50 µs after the request is aborted (step 2); how many of its points are complete is a free value. -/
def effFreqHold (s : State) : State :=
  match s.dmc.change, s.dmc.capture with
  | some (_, at0, false), some (n, pts) =>
    let due := at0 + 50000
    let s := if s.time.uptime < due then s.elapse (due - s.time.uptime) else s
    s.tick.endCapture n (Config.freeNat s.fresh % max 1 pts) true
  | _, _ => s

def execFreqCaptureHoldExpiry (s : State) : Host.Outcome State Fault Refusal := s.done (effFreqHold s)

/-- Step 3 holds: LATMIN allows the change and no channel is in a forced refresh burst. -/
def State.freqReady (s : State) : Bool :=
  6000 < s.get F.tickLatminUs * 1000 && (List.range s.part.channels).all fun n => !(s.chanOf n).burst

/-- FREQ_CHANGE (step 4): every channel issues its owed refreshes and stops serving requests. -/
def effFreqChange (s : State) : State :=
  match s.dmc.change with
  | some (t, at0, false) =>
    if s.frozen || s.dmc.capture.isSome || !s.freqReady then s
    else
      let s := (List.range s.part.channels).foldl (fun s n => if s.chanRuns n then s.payRefresh n else s) s
      { s with dmc := { s.dmc with change := some (t, at0, true) } }
  | _ => s

def execFreqChange (s : State) : Host.Outcome State Fault Refusal := s.done (effFreqChange s)

/-- FREQ_DONE (step 5): the new set point is in force, with its delays (R258). -/
def effFreqDone (s : State) : State :=
  match s.dmc.change with
  | some (t, _, true) =>
    if s.frozen then s
    else
      let s := { s with dmc := { s.dmc with change := none } }
      let s := ((s.put F.dmcStatusFsp t).put F.dmcFreqReq 0).put F.dmcStatusFreqbusy 0
      let s := (List.range s.part.channels).foldl (fun s n => s.setChan n { s.chanOf n with delays := s.delayRegs n }) s
      s.raise (F.dmcChEventFreqDone 0) 656
  | _ => s

def execFreqDone (s : State) : Host.Outcome State Fault Refusal := s.done (effFreqDone s)

end Sys2Proof.Machine
end

