-- ==== Sys2Proof/Machine/Pcie.lean ====
section
/-! DEFINITION. The functions that the host sees (R269, R270, R282 to R284): configuration spaces, MSI-X tables behind BAR2, and the HDM
decoder behind BAR4. The table of commands has no access to them of its own: the model numbers them after the 64 MiB of BAR0, function f's
configuration space at 0x400_0000 + 0x1000 × f, its MSI-X table at 0x401_0000 + 0x1_0000 × f, the PF's component registers at 0x409_0000.
Where a capability stands in a configuration space is the model's choice. DESIGN CHOICE, log entry 153. -/

namespace Sys2Proof.Machine

/-- First word past BAR0, and past the last that the model numbers. -/
def pcieBase : Nat := 0x4000000
def pcieEnd : Nat := 0x40A0000

/-- Offset of word `o` of the MSI-X table of function f, and of the component registers. -/
def msixOff (f o : Nat) : Nat := 0x4010000 + 0x10000 * f + o
def hdmOff (o : Nat) : Nat := 0x4090000 + o

/-- A word that a write has left. -/
def State.pcieWord (s : State) (off : Nat) : Nat := (Tbl.get (fun _ => 0) s.pcie off).toNat

/-- A word stored, the bits outside `mask` kept 0. -/
def State.pcieStore (s : State) (off mask : Nat) (v : Word) : State :=
  { s with pcie := Tbl.set (fun _ => 0) s.pcie off (v &&& BitVec.ofNat 32 mask) }

/-! ## Configuration space -/

/-- Bits of a word of function f's configuration space that can be written: BARs, power state, MSI-X control, LTR enable, SR-IOV. -/
def cfgMask (f o : Nat) : Nat :=
  match o with
  | 0x44 => 3
  | 0x50 => 0xC0000000
  | 0x10 => if f = 0 then 0xFC000000 else 0
  | 0x18 | 0x20 => if f = 0 then 0xFFFF0000 else 0
  | 0x14 | 0x1C | 0x24 => if f = 0 then 0xFFFFFFFF else 0
  | 0x70 => if f = 0 then 0x400 else 0
  | 0x108 => if f = 0 then 9 else 0
  | 0x110 => if f = 0 then 0xFFFF else 0
  | 0x124 => if f = 0 then 0xFC000000 else 0
  | 0x12C => if f = 0 then 0xFFFF0000 else 0
  | 0x128 | 0x130 => if f = 0 then 0xFFFFFFFF else 0
  | _ => 0

/-- What the other bits read: identifiers, class code and revision, BAR types, MSI-X table of four entries in BAR2, seven VFs. -/
def State.cfgFixed (s : State) (f o : Nat) : Nat :=
  let code := s.get F.topCaps3Part
  match o with
  | 0x00 => Config.vendorId.toNat + 2 ^ 16 * ((code + if f = 0 then 0 else 0x8000) % 2 ^ 16)
  | 0x08 => s.get F.topCaps3Stepping + 2 ^ 8 * 0x038000
  | 0x10 | 0x18 | 0x20 => if f = 0 then 4 else 0
  | 0x50 => 0x00030011
  | 0x54 => 2
  | 0x58 => 0x8002
  | 0x10C => if f = 0 then 0x00070007 else 0
  | 0x118 => if f = 0 then 2 ^ 16 * ((code + 0x8000) % 2 ^ 16) else 0
  | 0x124 | 0x12C => if f = 0 then 4 else 0
  | _ => 0

/-- LTR enable follows its bit; a message goes once when it is set (R283). -/
def State.ltrFollow (s : State) : State :=
  let on := bit (s.cfgWord 0 0x70) 10
  if on == s.ltrEn then s
  else
    let s := { s with ltrEn := on }
    if on then s.sendLtr else s

/-- A write to word `o` of function f's configuration space. -/
def State.cfgWrite (s : State) (f o : Nat) (v : Word) : State := ((s.pcieStore (cfgOff f o) (cfgMask f o) v).ltrFollow).msixFlow

/-! ## MSI-X tables (R270, R284) -/

/-- A word of the MSI-X table of function f: address, data and mask of four entries, and the pending bits at 0x8000. -/
def State.msixRead (s : State) (f o : Nat) : Nat :=
  if o < 0x40 then
    if o % 16 = 12 then ofBool (!s.icu.unmasked.contains (f, o / 16)) else s.pcieWord (msixOff f o)
  else if o = 0x8000 then (List.range 4).foldl (fun a e => a + 2 ^ e * ofBool (s.icu.msixPend.contains (f, e))) 0
  else 0

/-- A write to it; an entry's mask bit masks and unmasks it. -/
def State.msixWrite (s : State) (f o : Nat) (v : Word) : State :=
  if 0x40 ≤ o then s
  else if o % 16 = 12 then
    if bit v.toNat 0 then { s with icu := { s.icu with unmasked := s.icu.unmasked.filter (· != (f, o / 16)) } }
    else effUnmask f (o / 16) s
  else s.pcieStore (msixOff f o) (if o % 16 = 0 then 0xFFFFFFFC else 0xFFFFFFFF) v

/-! ## The HDM decoder (R282) -/

/-- Bits of a component register that can be written: base at 0x10 and 0x14, size at 0x18 and 0x1C, in units of 256 MiB. -/
def hdmMask (o : Nat) : Nat := if o = 0x10 ∨ o = 0x18 then 0xF0000000 else if o = 0x14 ∨ o = 0x1C then 0xFFFFFFFF else 0

/-- A write to a component register: the decoder follows it. -/
def State.hdmWrite (s : State) (o : Nat) (v : Word) : State :=
  let s := s.pcieStore (hdmOff o) (hdmMask o) v
  let units (k : Nat) : Nat := (s.pcieWord (hdmOff k) + 2 ^ 32 * s.pcieWord (hdmOff (k + 4))) / 2 ^ 28
  { s with cxl := { s.cxl with hdmBase := units 0x10, hdmSize := units 0x18 } }

/-! ## Accesses -/

/-- The function whose configuration space or MSI-X table the offset is in; the PF's for the component registers. -/
def pcieFunc (off : Nat) : Nat :=
  if off < 0x4008000 then (off - pcieBase) / 0x1000
  else if off < 0x4090000 then (off - 0x4010000) / 0x10000
  else 0

/-- A word as its function reads it. -/
def State.pcieRead (s : State) (off : Nat) : Nat :=
  let f := pcieFunc off
  if off < 0x4008000 then s.pcieWord off ||| s.cfgFixed f (off % 0x1000)
  else if off < 0x4010000 then 0
  else if off < 0x4090000 then s.msixRead f (off % 0x10000)
  else s.pcieWord off

/-- An access of an agent past BAR0: a function of the host reaches its own, once configuration requests are answered (R440); any other
request is unsupported (R271). -/
def effPcie (agent : Nat) (write : Bool) (off : Nat) (v : Word) (s : State) : State :=
  let f := pcieFunc off
  if agent != 4 + f || pcieEnd ≤ off then s.emit (.unsupported off)
  else if !s.boot.cfgReady then s
  else if !write then { s with lastRead := BitVec.ofNat 32 (s.pcieRead off) }
  else if off < 0x4008000 then s.cfgWrite f (off % 0x1000) v
  else if off < 0x4010000 then s
  else if off < 0x4090000 then s.msixWrite f (off % 0x10000) v
  else s.hdmWrite (off % 0x10000) v

end Sys2Proof.Machine
end

