-- ==== Sys2Proof/Machine/Bus.lean ====
section
/-! DEFINITION. One access to the register space: the checks of R460 to R462, reads (R8, R9), writes by access type, and the writes
that do more than store. -/

namespace Sys2Proof.Machine

/-! ## Reads -/

/-- Registers of which every agent has its own copy (R78). -/
def banked (off : Nat) : Bool := off == Reg.tickCstat || off == Reg.tickCoffend || (0x40210 ≤ off && off < 0x40220)

/-- Where an agent's view of the word at `off` is kept. -/
def viewKey (agent off : Nat) : Nat := if banked off then bank agent off else off

/-- The word at `off` as an agent sees it before the access types are applied: what is kept, with the values that follow time. -/
def State.live (s : State) (agent off : Nat) : Word :=
  if off = Reg.tickDevtimeLo then BitVec.ofNat 32 s.now
  else if off = Reg.tickDevtimeHi then BitVec.ofNat 32 (s.now / 2 ^ 32)
  else if off = Reg.tickTicknumLo then BitVec.ofNat 32 s.time.ticknum.toNat
  else if off = Reg.tickTicknumHi then BitVec.ofNat 32 (s.time.ticknum.toNat / 2 ^ 32)
  else if off = Reg.tickCstat then
    BitVec.ofNat 32 (putField (s.rd (bank agent off)).toNat 20 1 (ofBool (s.busy.isSome || s.flag F.tickTstructStatBusy)))
  else if (slot off (Reg.clkHtbCorr 0) 0x10 2).isSome then BitVec.ofInt 32 s.corrNow
  else if (slot off (Reg.netPortStat 0) 0x20 8).any s.untrained then
    BitVec.ofNat 32 (putField (s.rd off).toNat 2 1 1)
  else if (slot off (Reg.dmcChStatus 0) 0x800 16).isSome then
    BitVec.ofNat 32 (putField (s.rd off).toNat 6 1 (ofBool (s.srDenied ((off - Reg.dmcChStatus 0) / 0x800))))
  else match slot off (Reg.tspShaperCredit 0) 0x20 32 with
    | some n => BitVec.ofInt 32 (Int.tdiv (s.creditNow n) 8000)
    | none => match slot off (Reg.icuTgtInserv 0) 0x20 8 with
      | some t => s.inserv t
      | none => match slot off (Reg.icuTgtStat 0) 0x20 8 with
        | some t => BitVec.ofNat 32 (putField (s.rd off).toNat 0 4 (s.isLevel t))
        | none => s.rd (viewKey agent off)

/-- A word as a read returns it (R8): WO bits read 0, and the value of a reserved bit is open. DEDUCED, log entry 22. -/
def readable (off : Nat) (v : Word) (k : Nat) : Word :=
  match rowAt off with
  | none => Config.freeWord k
  | some r =>
    let known := BitVec.ofNat 32 (r.rw ||| r.ro ||| r.w1c ||| r.w1s ||| r.rws)
    let rsv := ~~~known &&& ~~~(BitVec.ofNat 32 r.wo)
    (v &&& known) ||| (Config.freeWord k &&& rsv)

/-- A permitted read of the word at `off` by an agent (R9, R384). DEDUCED, log entry 22. -/
def State.readWord (s : State) (agent off : Nat) : State × Word :=
  match slot off (Reg.icuTgtClaim 0) 0x20 8 with
  | some t => s.claimRead t
  | none =>
    if roPairLo off then
      ({ s with capHi := halfSet s.capHi (halfKey agent (off + 4)) (s.live agent (off + 4)) }.tick,
        readable off (s.live agent off) s.fresh)
    else if 4 ≤ off ∧ roPairLo (off - 4) then
      let key := halfKey agent off
      let v := (halfAt s.capHi key).getD (s.live agent off)
      ({ s with capHi := s.capHi.filter fun e => e.1 != key }.tick, readable off v s.fresh)
    else
      let s := if off = Reg.netIbuf then s.drain else match slot off (Reg.wlkLaneFec 0) 0x40 16 with
        | some n => s.countFec n 0
        | none => s
      (s.tick, readable off (s.live agent off) s.fresh)

/-- A read that the protection map has let pass. -/
def State.readPast (s : State) (agent off : Nat) : State × Word :=
  let a := s.accessPast false off 15
  if a = .ok then s.readWord agent off else (s.deny a agent false off, 0)

/-- A read by an agent: what the checks refuse reads zero (R3, R400, R449, R461). DEDUCED, log entry 23. -/
def State.busRead (s : State) (agent off : Nat) : State × Word :=
  let a := s.access agent false off 15
  if a = .ok then s.readWord agent off else (s.deny a agent false off, 0)

/-! ## The program store (R172, R173) -/

/-- Phases of the structure in force, or of the armed one where it has more. -/
def State.phasesInUse (s : State) : Nat :=
  max s.time.ts.phases (match s.time.armed with | some a => if a.valid then a.ts.phases else 0 | none => 0)

/-- Byte regions of group g's program store that a head's set references. DEDUCED, log entry 27. -/
def State.headRegions (s : State) (g h : Nat) (c : HeadCfg) : List (Nat × Nat) :=
  if !c.en || c.clone || c.groupSel = 3 || groupOfHead h c ≠ g then []
  else
    ((List.range (min 8 s.phasesInUse)).filter (bit c.phmask)).foldl (fun l ph =>
      let e := s.phaseEntry g c ph
      let p := s.program g e
      l ++ [(e.prog, 8 * e.len), (e.keymap, 32 * e.keyn)] ++
        ((p.filter fun i => i.tableBytes != 0).map fun i => (i.imm, i.tableBytes))) [(c.table, 64)]

/-- Sets that a head can still take: none that a newer commit for the same tick or an earlier one has replaced (R81). -/
def State.armedSets (s : State) : List (Nat × HeadCfg) :=
  s.accepted.flatMap fun c => c.heads.filter fun e =>
    (s.headOf e.1).order < c.order && !(s.accepted.any fun d => d.mask.contains e.1 && c.order < d.order && d.target ≤ c.target)

/-- Byte `o` of the store lies in a region that an active or armed set references. DEDUCED, log entry 27. -/
def State.storeInUse (s : State) (g o : Nat) : Bool :=
  let sets := (s.heads.map fun e => (e.1, e.2.cfg)) ++ s.armedSets
  sets.any fun e => (s.headRegions g e.1 e.2).any fun r => r.1 ≤ o && o < r.1 + r.2

/-- A write to the program store. -/
def State.writePstore (s : State) (g o off : Nat) (v : Word) : State :=
  let used := s.storeInUse g o
  let x := s.groupOf g
  let s := (s.wr off v).setGroup g { x with badWords := x.badWords.filter (· != o / 8 * 8) }
  if used then ((s.put (F.grpPaddrOffset g) o).put (F.grpPaddrKind g) 1).raise (F.grpEventPstoreInuse g) (513 + 4 * g) else s

/-! ## Writes that do more than store, block by block. `v` is the word, `off` the register. -/

/-- A store, after which a field is set to `x` when bit `i` was written with 1. -/
def State.storeThen (s : State) (off : Nat) (v : Word) (i : Nat) (f : Fld) (x : Nat) : State :=
  let s := s.store off v
  if bit v.toNat i then s.put f x else s

/-- A store in which `f` keeps its value unless `ok`. -/
def State.storeKeep (s : State) (off : Nat) (v : Word) (f : Fld) (ok : Bool) : State :=
  let old := s.get f
  let s := s.store off v
  if ok then s else s.put f old

def State.writeBoot (s : State) (agent off : Nat) (v : Word) : State :=
  if off = Reg.bootXcmd then effXcmd v s
  else if off = Reg.bootCtl then effBootCtl agent v s
  else s.store off v

def State.writeProt (s : State) (agent off : Nat) (v : Word) : State :=
  if off = Reg.protCtl then s.storeKeep off v F.protCtlDelegate (agent < 4) else s.store off v

def State.writeClk (s : State) (off : Nat) (v : Word) : State :=
  match slot off (Reg.clkHtbCfg 0) 0x10 2, slot off (Reg.clkHtbFrac 0) 0x10 2 with
  | some m, _ => effHtbCfg m false v s
  | _, some m => effHtbCfg m true v s
  | _, _ =>
    if off = Reg.clkSyncin then effSyncinArm v s
    else if off = Reg.clkCtl then effRestore v s
    else if off = Reg.clkHdither then
      let s := s.store off v
      if s.get F.clkHditherSeed = 0 then s.put F.clkHditherSeed 1 else s
    else s.store off v

def State.writeTick (s : State) (agent off : Nat) (v : Word) : State :=
  if off = Reg.tickCommit then effCommit agent v s
  else if off = Reg.tickTctl then effStructArmForward agent v (effStep v s)
  else if off = Reg.tickTphase then effTphaseWrite v s
  else if off = Reg.tickTsrc then s.writeTsrc v
  else if 0x40210 ≤ off ∧ off < 0x40220 then s.storeAt (bank agent off) off v
  else match slot off (Reg.tickShutCfg 0) 0x10 8, slot off (Reg.tickShutOfs 0) 0x10 8, slot off (Reg.tickShutWidth 0) 0x10 8 with
    | some n, _, _ => s.shutWrite n 0 v
    | _, some n, _ => s.shutWrite n 1 v
    | _, _, some n => s.shutWrite n 2 v
    | _, _, _ => s.store off v

def State.writePwr (s : State) (off : Nat) (v : Word) : State :=
  match slot off (Reg.pwrDomctl 0) 4 3 with
  | some w => effDomctl w v s
  | none =>
    if off = Reg.pwrMidnight then effMidnight v s
    else if off = Reg.pwrNoon then (s.store off v).noonCheck
    else if off = Reg.pwrPest then s.storeThen off v 31 F.pwrPestPeak 0
    else s.store off v

def State.writeThm (s : State) (off : Nat) (v : Word) : State :=
  if off = Reg.thmCtl then effDuskexit v s
  else if off = Reg.thmShed then (s.store off v).showShed
  else if off = Reg.thmTj then s.storeThen off v 31 F.thmTjPeak 0
  else s.store off v

def State.writeIcu (s : State) (off : Nat) (v : Word) : State :=
  if off = Reg.icuDoorbell then effDoorbell v s
  else match slot off (Reg.icuPending 0) 4 32, slot off (Reg.icuEnable 0) 4 32, slot off (Reg.icuTgtComplete 0) 0x20 8 with
    | some w, _, _ => effPendingWrite w v s
    | _, some w, _ => effEnableWrite w v s
    | _, _, some t => effComplete t v s
    | _, _, _ => (s.store off v).evalLines

def State.writeHead (s : State) (off : Nat) (v : Word) : State :=
  let h := (off - 0x100000) / 0x1000
  if off = Reg.headRbctl h then effRbctl h v s
  else if off = Reg.headEvent h then
    let s := s.storeThen off v 4 (F.headCountLatecnt h) 0
    if bit v.toNat 9 then s.put (F.headCountClampcnt h) 0 else s
  else s.store off v

def State.writeLayer (s : State) (off : Nat) (v : Word) : State :=
  match slot off (Reg.layerFence 0) 4 1024 with
  | some n => effFence n v s
  | none => s.store off v

def State.writeGrp (s : State) (off : Nat) (v : Word) : State :=
  if 0x1000000 ≤ off then
    let g := (off - 0x1000000) / 0x100000
    let o := off % 0x100000
    if o < 0x40000 then s.writePstore g o off v else s.store off v
  else
    let g := (off - 0x300000) / 0x1000
    if off = Reg.grpEvent g then
      let s := s.store off v
      if bit v.toNat 2 then s.wr (Reg.grpStallmax g) 0 else s
    else s.store off v

def State.writeScl (s : State) (off : Nat) (v : Word) : State :=
  let u := (off - 0x310000) / 0x400
  if off = Reg.sclStatus u then s.storeThen off v 0 (F.sclCountWlimcnt u) 0 else s.store off v

/-- A coefficient of a pose source: in force a microsecond after the write (R215). -/
def State.writeCoef (s : State) (off : Nat) (v : Word) : State :=
  let l := s.pose.recent.filter fun e => s.now ≤ e.2.1 + 4095
  let s' := s.store off v
  { s' with pose := { s'.pose with recent := l ++ [(off, s.now, s.rd off)] } }

/-- DEDUCED, log entry 70. A write of TRCCTL with EN = 1 clears TRCSEQ.VALID, whether it sets EN or not. DESIGN CHOICE, log entry 177. -/
def State.writePose (s : State) (off : Nat) (v : Word) : State :=
  if off = Reg.poseTrcctl then s.storeThen off v 10 F.poseTrcseqValid 0
  else match slot off (Reg.poseSrcCfg 0) 0x100 72 with
    | some i => effPoseEnable i v s
    | none => if 0x401000 ≤ off ∧ 0x20 ≤ off % 0x100 ∧ off % 0x100 < 0xA8 then s.writeCoef off v else s.store off v

def State.writeDmc (s : State) (off : Nat) (v : Word) : State :=
  if off = Reg.dmcTraincap then effTraincap v s
  else if off = Reg.dmcFreq then effFreqWrite v s
  else if off = Reg.dmcCtl then s.storeThen off v 1 F.dmcCtlDlyvalid1 1
  else match slot off (Reg.dmcChEvent 0) 0x800 16 with
    | some n => s.storeThen off v 0 (F.dmcChEccCe n) 0
    | none => s.store off v

def State.writeCxl (s : State) (off : Nat) (v : Word) : State :=
  if off = Reg.cxlRtstat then s.storeThen off v 31 F.cxlRtstatLatmax 0
  else if off = Reg.cxlRtcfg then (s.store off v).cxlBudget
  else s.store off v

def State.writeDma (s : State) (agent off : Nat) (v : Word) : State :=
  if off = Reg.dmaCtl then effDmaReset v s
  else match slot off (Reg.dmaChCfg 0) 0x20 16, slot off (Reg.dmaChHeadidx 0) 0x20 16, slot off (Reg.dmaChTailidx 0) 0x20 16 with
    | some c, _, _ => effDmaCfg c v s
    | _, some c, _ => if s.flag (F.dmaChCfgEn c) then s else s.store off v
    | _, _, some c => (s.store off v).setDmaCh c { s.dmaCh c with agent := agent }
    | _, _, _ => s.store off v

def State.writeBlt (s : State) (agent off : Nat) (v : Word) : State :=
  if off = Reg.bltCtl then effBltCtl v s
  else if off = Reg.bltTailidx then
    let s := s.store off v
    { s with blt := { s.blt with agent := agent } }
  else s.store off v

/-- A write to the geometry of a flow that an active or armed layer names is refused (R309). DEDUCED, log entry 99. -/
def State.writeGeometry (s : State) (f off : Nat) (v : Word) : State :=
  if s.flowNamed f then s.put (F.netFlowStatCfgerr f) 1 else s.store off v

def State.writeNet (s : State) (agent off : Nat) (v : Word) : State :=
  if off = Reg.netCfg then effNetMode v s
  else if off = Reg.netFwrxctl then
    let s := s.storeKeep off v F.netFwrxctlRingsz (!s.flag F.netFwrxctlEn)
    { s with net := { s.net with rxAgent := agent } }
  else if 0x801000 ≤ off ∧ off < 0x805000 then
    let f := (off - 0x801000) / 0x40
    let r := off % 0x40
    if r = 0 then effFlowCtl agent f v s
    else if 0x20 ≤ r ∧ r < 0x3C ∧ r ≠ 0x34 then s.writeGeometry f off v
    else s.store off v
  else s.store off v

def State.writeTsp (s : State) (agent off : Nat) (v : Word) : State :=
  if off = Reg.tspFwtxctl then (s.storeKeep off v F.tspFwtxctlRingsz (!s.flag F.tspFwtxctlEn)).fwtxPull
  else if off = Reg.tspFwtxtail then
    let s := s.store off v
    { s with net := { s.net with txAgent := agent } }.fwtxPull
  else match slot off (Reg.tspShaperCfg 0) 0x20 32, slot off (Reg.tspShaperRate 0) 0x20 32, slot off (Reg.tspShaperClrdebt 0) 0x20 32 with
    | some n, _, _ => effShaperCfg n v s
    | _, some n, _ => effShaperRate n v s
    | _, _, some n => effClrdebt n v s
    | _, _, _ => match slot off (Reg.tspShaperHicredit 0) 0x20 32, slot off (Reg.tspShaperLocredit 0) 0x20 32 with
      | some n, _ => (s.settleClass n).store off v
      | _, some n => (s.settleClass n).store off v
      | _, _ => s.store off v

/-- A write to a context register: all but the named ones are locked while EN = 1 (R327). DEDUCED, log entry 102. -/
def State.writeCdc (s : State) (agent off : Nat) (v : Word) : State :=
  if off < 0x901000 then s.store off v
  else
    let c := (off - 0x901000) / 0x80
    let r := off % 0x80
    let en := s.flag (F.cdcCtxCfgEn c)
    if off = Reg.cdcCtxCfg c then effCdcCfg c v s
    else if off = Reg.cdcCtxStatus c then effCdcStatus c v s
    else if off = Reg.cdcCtxCmdtail c then (s.store off v).setCtx c { s.ctxOf c with agent := agent }
    else if off = Reg.cdcCtxRdofs c then if s.rd off = v then s else s.setRdofs c v.toNat
    else if off = Reg.cdcCtxRccfg c then
      if en then s.store off ((s.rd off &&& ~~~0xFF00FF00#32) ||| (v &&& 0xFF00FF00)) else s.store off v
    else if r = 0x48 then s.store off v
    else if en then s
    else s.store off v

def State.writeWlk (s : State) (off : Nat) (v : Word) : State :=
  if off = Reg.wlkCtl then effStandby v s
  else match slot off (Reg.wlkLaneCfg 0) 0x40 16 with
    | some n => effLaneCfg n v s
    | none => s.store off v

def State.writeMir (s : State) (off : Nat) (v : Word) : State :=
  if off = Reg.mirCtl then effMirCtl v s
  else if off = Reg.mirCfg then s.storeKeep off v F.mirCfgLanes (!s.flag F.mirCtlEn)
  else s.store off v

def State.writeFlt (s : State) (off : Nat) (v : Word) : State := if off = Reg.fltCtl then effFlush v s else s.store off v

def State.writeFinj (s : State) (off : Nat) (v : Word) : State :=
  match slot off (Reg.finjLinkCfg 0) 0x10 36 with
  | some k => effFinjEnable k v s
  | none => s.store off v

/-- A permitted write takes effect, by the block of its register. DEDUCED, log entry 25. -/
def State.writeWord (s : State) (agent off : Nat) (v : Word) : State :=
  match blockOf off with
  | some 1 => s.writeBoot agent off v
  | some 2 => s.writeProt agent off v
  | some 3 => s.writeClk off v
  | some 4 => s.writeTick agent off v
  | some 5 => s.writePwr off v
  | some 6 => s.writeThm off v
  | some 7 => s.writeIcu off v
  | some 8 => s.writeHead off v
  | some 9 => s.writeLayer off v
  | some 10 => s.writeGrp off v
  | some 11 => s.writeScl off v
  | some 12 => s.writePose off v
  | some 13 => s.writeDmc off v
  | some 14 => s.writeCxl off v
  | some 15 => s.writeDma agent off v
  | some 16 => s.writeBlt agent off v
  | some 17 => s.writeNet agent off v
  | some 18 => s.writeTsp agent off v
  | some 19 => s.writeCdc agent off v
  | some 20 => s.writeWlk off v
  | some 21 => s.writeMir off v
  | some 22 => s.writeFlt off v
  | some 23 => s.writeFinj off v
  | some _ => s.store off v
  | none => s

/-- A context register pair that an enabled context locks (R327). -/
def State.pairLocked (s : State) (off : Nat) : Bool :=
  0x901000 ≤ off && off < 0x902000 && s.flag (F.cdcCtxCfgEn ((off - 0x901000) / 0x80))

/-- A permitted write, with R9 for pairs; an enabled context's pairs are locked. -/
def State.writePair (s : State) (agent off : Nat) (v : Word) : State :=
  if rwPairLo off && s.pairLocked off then s else s.pairWrite agent off v fun s o x => s.writeWord agent o x

/-- A write that has passed the checks; a paired primary forwards a staged one (R424). DEDUCED, log entry 25. -/
def State.takeWrite (s : State) (agent off : Nat) (v : Word) : State :=
  let s := s.writePair agent off v
  if mirrored off then s.forward 0 [agent, off, v.toNat] else s

/-- A write by an agent (R462, R425). -/
def State.busWrite (s : State) (agent off be : Nat) (v : Word) : State :=
  let a := s.access agent true off be
  if a ≠ .ok then s.deny a agent true off
  else if s.standby && standbyBlocks off then
    if off = Reg.tickCommit then blockedCommit agent v s.localWrite else s.localWrite
  else s.takeWrite agent off v

/-- A request of an agent to the two words that hold the four bytes from `off`, which is no multiple of 4: each word with an enabled byte
is accessed with partial enables, the lower first (R460). A read returns the four bytes, 0 for those of a word it does not touch. -/
def State.splitAccess (s : State) (agent : Nat) (write : Bool) (off be : Nat) : State :=
  let w := off / 4 * 4
  let k := off % 4
  let lo := 2 ^ k * (be % 16) % 16
  let hi := be % 16 / 2 ^ (4 - k)
  if write then
    let s := if lo = 0 then s else s.busWrite agent w lo 0
    if hi = 0 then s else s.busWrite agent (w + 4) hi 0
  else
    let a := if lo = 0 then (s, 0) else s.busRead agent w
    let b := if hi = 0 then (a.1, 0) else a.1.busRead agent (w + 4)
    { b.1 with lastRead := BitVec.ofNat 32 ((a.2.toNat + 2 ^ 32 * b.2.toNat) / 2 ^ (8 * k)) }

/-- One access by an agent: an offset inside a word is a request to the two containing words with partial byte enables to the host, and no
access at all to a management core (R460). DEDUCED, log entries 20, 26. Past BAR0 stand the functions' other spaces. DESIGN CHOICE, log
entry 153. -/
def effAccess (agent : Nat) (write : Bool) (off be : Nat) (value : Word) (s : State) : State :=
  if agent < 4 && off % 4 != 0 then s
  else if pcieBase ≤ off then effPcie agent write (off / 4 * 4) value s
  else if off % 4 ≠ 0 then s.splitAccess agent write off be
  else if write then s.busWrite agent off be value
  else { (s.busRead agent off).1 with lastRead := (s.busRead agent off).2 }

def execRegisterWrite (agent : Nat) (write : Bool) (off be : Nat) (value : Word) (s : State) : Host.Outcome State Fault Refusal :=
  s.done (effAccess agent write off be value s)

end Sys2Proof.Machine
end

