-- ==== Sys2Proof/Machine/Mgmt.lean ====
section
/-! DEFINITION. The management cores (R29, R196 to R198): the address map of R447, exceptions, and the effect of each instruction of
the control profile. -/

namespace Sys2Proof.Machine

/-! ## The address map (R447) -/

/-- What a management core finds at an address. -/
inductive Place where
  /-- A management SRAM, by its shared address; the core it belongs to, none for the shared SRAM. -/
  | sram (a : Nat) (core : Option Nat)
  | rom (a : Nat)
  | flash (a : Nat)
  | reg (off : Nat)
  | dram (a : Nat)
  | none
  deriving DecidableEq, Repr

/-- Core k's view of `n` bytes at `a`. -/
def State.place (s : State) (k a n : Nat) : Place :=
  if a < 0x20000 then .sram (0x20000 * (k + 1) + a) (some k)
  else if a < 0xA0000 then .sram a (some ((a - 0x20000) / 0x20000))
  else if 0x100000 ≤ a ∧ a < 0x200000 then .sram a none
  else if 0x800000 ≤ a ∧ a < 0x840000 then .rom (a - 0x800000)
  else if 0x10000000 ≤ a ∧ a < 0x14000000 then .flash (a - 0x10000000)
  else if 0x40000000 ≤ a ∧ a < 0x44000000 then .reg (a - 0x40000000)
  else if 0x1000000000 ≤ a ∧ a - 0x1000000000 + n ≤ s.capacity then .dram (a - 0x1000000000)
  else .none

/-- The place is in the core's own SRAM: a load completes at once (R196). -/
def Place.own (p : Place) (k : Nat) : Bool :=
  match p with
  | .sram _ (some j) => j == k
  | _ => false

/-- Commands that may have changed the flash. DESIGN CHOICE, log entry 118. -/
def State.flashEpoch (s : State) : Nat := s.out.countP fun m => match m with
  | .xspi .. => true
  | _ => false

/-- A byte of the flash: its contents are outside the device, and any xSPI command may change them. DESIGN CHOICE, log entry 118. -/
def State.flashAt (s : State) (a : Nat) : Nat := (Config.flashByte (a + 0x4000000 * s.flashEpoch)).toNat

/-! ## Checks (R449, R450, R460) -/

/-- Register words of an access of `n` bytes. -/
def regWords (off n : Nat) : List Nat := if n = 8 then [off, off + 4] else [off]

/-- The cause that an access of `n` bytes at `a` by core k takes before anything is done. DEDUCED, log entry 115. -/
def State.mgmtFault (s : State) (k : Nat) (write : Bool) (a n : Nat) : Option Nat :=
  match s.place k a n with
  | .reg off =>
    if n ≤ 2 then some 4
    else if a % n ≠ 0 then some 2
    else if (regWords off n).any fun o => !s.mayAccess k write o then some 3
    else none
  | .dram d => if a % n ≠ 0 then some 2 else if !s.granted k write 0 d n then some 3 else none
  | .none => if a % n ≠ 0 then some 2 else some 4
  | _ => if a % n ≠ 0 then some 2 else none

/-- A refused access is recorded (R449). -/
def State.mgmtRefused (s : State) (k : Nat) (write : Bool) (a n : Nat) : State :=
  match s.place k a n with
  | .reg off =>
    match (regWords off n).find? fun o => !s.mayAccess k write o with
    | some o => s.violation k write 0 o
    | none => s
  | .dram d => s.violation k write 1 d
  | _ => s

/-! ## Accesses -/

/-- The domain of a management SRAM's access logic where it is off: its core's, and core 0's for the shared SRAM (R400, R403).
DEDUCED, log entry 117. -/
def State.sramOff (s : State) (core : Option Nat) : Option Nat :=
  let d := 73 + core.getD 0
  if s.domOn d then none else some d

def State.offAccess (s : State) (d : Nat) : State :=
  ((s.bump F.pwrOffaccCount).put F.pwrOffaccDomain d).raise F.pwrEventPowerOffAccess 938

/-- A load of `n` bytes by core k: the value, or none for poison. -/
def State.mgmtLoad (s : State) (k a n : Nat) : State × Option Nat :=
  match s.place k a n with
  | .sram x core =>
    match s.sramOff core with
    | some d => (s.offAccess d, some 0)
    | none => (s, some (ofBytesLE ((Mem.readBytes dramDefault s.sram x n).map BitVec.toNat)))
  | .rom x => (s, some (ofBytesLE ((List.range n).map fun i => (Config.romByte (x + i)).toNat)))
  | .flash x => (s, some (ofBytesLE ((List.range n).map fun i => s.flashAt (x + i))))
  | .reg off =>
    let r := s.readPast k off
    if n = 8 then
      let q := r.1.readPast k (off + 4)
      (q.1, some (r.2.toNat + 2 ^ 32 * q.2.toNat))
    else (r.1, some r.2.toNat)
  | .dram x => if s.localDead x n then (s, none) else (s.useLocal 34 x n, some (ofBytesLE (s.dramRead x n)))
  | .none => (s, none)

/-- A store of `n` bytes by core k; the boot ROM and the flash window are read-only. DESIGN CHOICE, log entry 116. -/
def State.mgmtStore (s : State) (k a n v : Nat) : State :=
  match s.place k a n with
  | .sram x core =>
    match s.sramOff core with
    | some d => s.offAccess d
    | none => { s with sram := Mem.writeBytes dramDefault s.sram x ((bytesLE n v).map (BitVec.ofNat 8)) }
  | .reg off =>
    (regWords off n).foldl (fun s o => s.busWrite k o 15 (BitVec.ofNat 32 (v / 2 ^ (8 * (o - off))))) s
  | .dram x => s.localStore 34 x (bytesLE n v)
  | _ => s

/-! ## Instructions -/

/-- The next instruction of core k: its word, or the cause its fetch takes (with the core waiting, the word it waits on). A fetch
from the register space is a bus error. DESIGN CHOICE, log entry 114. -/
def State.mgmtFetch (s : State) (k : Nat) (m : MgmtSt) : Except Nat (Option Nat) :=
  if m.wait ≠ .none then .ok (some m.ins)
  else
    let a := m.pc
    match s.place k a 8, s.mgmtFault k false a 8 with
    | .reg _, _ => .error 4
    | _, some c => .error c
    | .flash _, none => if s.flag F.bootXcmdBusy then .ok none else .ok ((s.mgmtLoad k a 8).2)
    | _, none =>
      match (s.mgmtLoad k a 8).2 with
      | some w => .ok (some w)
      | none => .error 4

/-- The block once core k has fetched: an SRAM whose domain is off counts the access, and local DRAM serves it (R244, R400). -/
def State.fetched (s : State) (k : Nat) (m : MgmtSt) : State :=
  match s.place k m.pc 8 with
  | .sram .. => (s.mgmtLoad k m.pc 8).1
  | .dram _ => (s.mgmtLoad k m.pc 8).1
  | _ => s

/-- The core runs. -/
def State.mgmtOn (s : State) (k : Nat) : Bool := k < 4 && (s.mgmtOf k).on

/-- Its interrupt line (R380). -/
def State.mgmtLine (s : State) (k : Nat) : Bool := s.flag (F.icuTgtStatLine k)

/-- The core goes on at an address. -/
def MgmtSt.goto (m : MgmtSt) (a : Nat) : MgmtSt := { m with pc := a % 2 ^ 64, wait := .none }

def MgmtSt.next (m : MgmtSt) : MgmtSt := m.goto (m.pc + 8)

def MgmtSt.setS (m : MgmtSt) (n : Nat) (v : Word64) : MgmtSt := { m with s := setSreg m.s n v }

def MgmtSt.setP (m : MgmtSt) (n : Nat) (v : Bool) : MgmtSt := { m with p := setPreg m.p n v }

/-- One instruction of opcode `op` on core k: nothing when the core's next instruction is another, or it waits.
DESIGN CHOICE, log entry 7; DEDUCED, log entry 53. -/
def effMgmt (k op : Nat) (eff : State → MgmtSt → Ins → State) (s : State) : State :=
  let m := s.mgmtOf k
  if !s.mgmtOn k || m.wait ≠ .none then s
  else match s.mgmtFetch k m with
    | .ok (some w) =>
      let i := Ins.ofNat w
      let m := { m with ins := w }
      let u := s.fetched k m
      if i.op ≠ op then s
      else if i.holds m.p then eff u m i
      else u.setMgmt k m.next
    | _ => s

/-- An instruction that only changes the core and goes on. -/
def effMgmtPlain (k op : Nat) (f : Ins → MgmtSt → MgmtSt) (s : State) : State :=
  effMgmt k op (fun s m i => s.setMgmt k (f i m).next) s

/-- An exception of the instruction at pc (R198). -/
def State.mgmtTrap (s : State) (k : Nat) (m : MgmtSt) (cause : Nat) : State := s.setMgmt k (m.trap cause m.pc)

/-- An opcode outside the control profile (R196), whatever its predicate. DEDUCED, log entry 53. -/
def effMgmtIllegal (k op : Nat) (s : State) : State :=
  let m := s.mgmtOf k
  if !s.mgmtOn k || m.wait ≠ .none then s
  else match s.mgmtFetch k m with
    | .ok (some w) => if (Ins.ofNat w).op = op then (s.fetched k m).mgmtTrap k { m with ins := w } 1 else s
    | _ => s

/-- A load or store faults before anything is done: recorded when refused, and the exception of its cause with the address. -/
def State.mgmtAccessTrap (s : State) (k : Nat) (m : MgmtSt) (write : Bool) (cause a n : Nat) : State :=
  (if cause = 3 then s.mgmtRefused k write a n else s).setMgmt k (m.trapAt cause m.pc a)

/-- Address of LD and ST: sA + IMM. -/
def MgmtSt.addr (m : MgmtSt) (i : Ins) : Nat := (sreg m.s i.a + simm64 i).toNat

/-- Bytes of LD and ST: C[1:0]. -/
def Ins.size (i : Ins) : Nat := 2 ^ (i.c % 4)

/-- A load ends: its value in sD, or cause 4 for poison. DEDUCED, log entry 117. -/
def State.endLoad (s : State) (k : Nat) (m : MgmtSt) (i : Ins) (poison : Bool) : State :=
  let a := m.addr i
  if poison then s.mgmtAccessTrap k m false 4 a i.size
  else
    let r := s.mgmtLoad k a i.size
    match r.2 with
    | none => r.1.mgmtAccessTrap k m false 4 a i.size
    | some v => r.1.setMgmt k ((m.setS i.d (extend i.size (bit i.c 2) v)).next)

/-- LD (R196): completes at once in the core's own SRAM, and waits for its data otherwise. DEDUCED, log entry 117. -/
def effLd (k : Nat) (s : State) (m : MgmtSt) (i : Ins) : State :=
  let a := m.addr i
  match s.mgmtFault k false a i.size with
  | some c => s.mgmtAccessTrap k m false c a i.size
  | none => if (s.place k a i.size).own k then s.endLoad k m i false else s.setMgmt k { m with wait := .load }

/-- LD_DATA_RETURN: a flash read waits while an xSPI command runs (R446); the protection map was looked at when the access was made
(R451). DEDUCED, log entry 117. -/
def effLdReturn (k : Nat) (poison : Bool) (s : State) : State :=
  let m := s.mgmtOf k
  let i := Ins.ofNat m.ins
  let a := m.addr i
  let flash := match s.place k a i.size with
    | .flash _ => true
    | _ => false
  if !s.mgmtOn k || m.wait ≠ .load || (flash && s.flag F.bootXcmdBusy) then s
  else s.endLoad k { m with wait := .none } i poison

/-- ST (R196): a store that faults writes nothing. DESIGN CHOICE, log entry 116. -/
def effSt (k : Nat) (s : State) (m : MgmtSt) (i : Ins) : State :=
  let a := m.addr i
  match s.mgmtFault k true a i.size with
  | some c => s.mgmtAccessTrap k m true c a i.size
  | none => (s.setMgmt k m.next).mgmtStore k a i.size ((sreg m.s i.b).toNat % 2 ^ (8 * i.size))

/-! ## Control and status registers (R197) -/

/-- Key of a core's captured CYCLE_HI among the captured halves of R9. -/
def cycleKey (k : Nat) : Nat := halfKey k 0x3FFFFFC

/-- System-clock cycles since reset. DEDUCED, log entry 8. -/
def State.cycles (s : State) : Nat := s.time.sysTenths / 10

/-- A CSR read: the value, none for a number that names no register. -/
def State.csrRead (s : State) (k : Nat) (m : MgmtSt) (n : Nat) : State × Option Nat :=
  match n with
  | 0 => (s, some (ofBool m.ie + 2 * ofBool m.pie))
  | 1 => (s, some m.epc)
  | 2 => (s, some m.cause)
  | 3 => (s, some m.tvec)
  | 4 => (s, some m.badaddr)
  | 5 => (s, some k)
  | 6 => ({ s with capHi := halfSet s.capHi (cycleKey k) (BitVec.ofNat 32 (s.cycles / 2 ^ 32)) }, some (s.cycles % 2 ^ 32))
  | 7 =>
    let v := (halfAt s.capHi (cycleKey k)).getD (BitVec.ofNat 32 (s.cycles / 2 ^ 32))
    ({ s with capHi := s.capHi.filter fun e => e.1 != cycleKey k }, some v.toNat)
  | _ => (s, none)

/-- A CSR write; read-only registers keep their value, and the addresses of EPC and TVEC are multiples of 8.
DESIGN CHOICE, log entry 21; DEDUCED, log entry 115. -/
def MgmtSt.csrWrite (m : MgmtSt) (n : Nat) (v : Word64) : Option MgmtSt :=
  match n with
  | 0 => some { m with ie := bit v.toNat 0, pie := bit v.toNat 1 }
  | 1 => some { m with epc := v.toNat / 8 * 8 }
  | 3 => some { m with tvec := v.toNat / 8 * 8 }
  | n => if n < 8 then some m else none

/-- CSRR. -/
def effCsrr (k : Nat) (s : State) (m : MgmtSt) (i : Ins) : State :=
  let r := s.csrRead k m i.imm
  match r.2 with
  | some v => r.1.setMgmt k ((m.setS i.d (BitVec.ofNat 64 v)).next)
  | none => s.mgmtTrap k m 1

/-- CSRW. -/
def effCsrw (k : Nat) (s : State) (m : MgmtSt) (i : Ins) : State :=
  match m.csrWrite i.imm (sreg m.s i.a) with
  | some m' => s.setMgmt k m'.next
  | none => s.mgmtTrap k m 1

/-! ## Jumps, waits and exceptions -/

/-- JAL. -/
def effJal (i : Ins) (m : MgmtSt) : MgmtSt :=
  (m.setS i.d (BitVec.ofNat 64 (m.pc + 8))).goto (unsigned 64 ((m.pc : Int) + 8 * i.simm))

/-- BR of the control profile: IMM is a signed offset in instructions. -/
def effMgmtBr (i : Ins) (m : MgmtSt) : MgmtSt := m.goto (unsigned 64 ((m.pc : Int) + 8 * i.simm))

/-- WFI: goes on when the interrupt line is asserted (R381); a waiting core looks again. DEDUCED, log entry 112. -/
def effWfi (k : Nat) (s : State) : State :=
  let m := s.mgmtOf k
  if s.mgmtOn k && m.wait = .interrupt then (if s.mgmtLine k then s.setMgmt k m.next else s)
  else effMgmt k 0x77 (fun s m _ => s.setMgmt k (if s.mgmtLine k then m.next else { m with wait := .interrupt })) s

/-- The opcode is one of the control profile (R179, R196). DEDUCED, log entry 113. -/
def controlOp (op : Nat) : Bool := (1 ≤ op && op ≤ 0x0F) || op == 0x60 || (0x70 ≤ op && op ≤ 0x79)

/-- INTERRUPT_EXCEPTION: cause 8 while the line is asserted and IE = 1 (R381), with the address of the next instruction; otherwise
the exception of a fetch that faults or of an undefined opcode. DEDUCED, log entries 53, 112, 113. -/
def effInterrupt (k : Nat) (s : State) : State :=
  let m := s.mgmtOf k
  if !s.mgmtOn k then s
  else if s.mgmtLine k && m.ie then
    match m.wait with
    | .none => s.setMgmt k (m.trap 8 m.pc)
    | .interrupt => s.setMgmt k (m.trap 8 ((m.pc + 8) % 2 ^ 64))
    | _ => s
  else if m.wait ≠ .none then s
  else match s.mgmtFetch k m with
    | .error c => s.mgmtAccessTrap k m false c m.pc 8
    | .ok (some w) => if !controlOp (Ins.ofNat w).op then (s.fetched k m).mgmtTrap k m 1 else s
    | .ok none => s

end Sys2Proof.Machine
end

