-- ==== Sys2Proof/Machine/Fkl.lean ====
section
/-! DEFINITION. The FKL instructions (R178 to R191, R196): each command is the next instruction of one core, a compose core or a
management core. What both profiles share is said once; an opcode of the compose profile alone is illegal on a management core. -/

namespace Sys2Proof.Machine

/-- An instruction of both profiles that computes from scalar and predicate registers: opcode, cycles, and the new registers. -/
def effShared (core : Core) (op cost : Nat) (f : Ins → List Word64 → List Bool → List Word64 × List Bool) (s : State) : State :=
  match core with
  | .compose g k => effPlain g k op cost (fun i c => { c with s := (f i c.s c.p).1, p := (f i c.s c.p).2 }) s
  | .composeBad g k o => effPlain g k op cost (fun i c => { c with s := (f i c.s c.p).1, p := (f i c.s c.p).2 }) (s.markBad g o)
  | .mgmt k => effMgmtPlain k op (fun i m => { m with s := (f i m.s m.p).1, p := (f i m.s m.p).2 }) s

/-- sD gets a value computed from the scalar registers. -/
def toS (v : Ins → List Word64 → Word64) (i : Ins) (r : List Word64) (p : List Bool) : List Word64 × List Bool :=
  (setSreg r i.d (v i r), p)

/-- ADD to MUL: sD gets sA op sB. -/
def effAlu (core : Core) (op cost : Nat) (s : State) : State :=
  effShared core op cost (toS fun i r => aluOp op (sreg r i.a) (sreg r i.b)) s

/-- pD gets a value; `none` is one the spec does not state (an undefined C), which is free. DESIGN CHOICE, log entry 52. -/
def effToP (core : Core) (op : Nat) (f : Ins → List Word64 → List Bool → Option Bool) (s : State) : State :=
  let free (s : State) : Bool := Config.freeNat s.fresh % 2 == 1
  let compose (g k : Nat) : State → State := effCompose g k op (fun _ => 1) fun s _ i c =>
    match f i c.s c.p with
    | some v => (s, (c.setP i.d v).goto (c.pc + 1))
    | none => (s.tick, (c.setP i.d (free s)).goto (c.pc + 1))
  match core with
  | .compose g k => compose g k s
  | .composeBad g k o => compose g k (s.markBad g o)
  | .mgmt k => effMgmt k op (fun s m i =>
      match f i m.s m.p with
      | some v => s.setMgmt k (m.setP i.d v).next
      | none => s.tick.setMgmt k (m.setP i.d (free s)).next) s

/-- An instruction of the compose profile only. DEDUCED, log entry 54. -/
def onCompose (core : Core) (op : Nat) (eff : Nat → Nat → State → State) (s : State) : State :=
  match core with
  | .compose g k => eff g k s
  | .composeBad g k o => eff g k (s.markBad g o)
  | .mgmt k => effMgmtIllegal k op s

/-- An instruction of the control profile only; a compose core never runs one (R192). -/
def onMgmt (core : Core) (eff : Nat → State → State) (s : State) : State :=
  match core with
  | .compose _ _ => s
  | .composeBad g _ o => s.markBad g o
  | .mgmt k => eff k s

/-! ## Scalar (R180) -/

def execAdd (core : Core) (s : State) : Host.Outcome State Fault Refusal := s.done (effAlu core 0x01 1 s)

def execSub (core : Core) (s : State) : Host.Outcome State Fault Refusal := s.done (effAlu core 0x02 1 s)

def execAnd (core : Core) (s : State) : Host.Outcome State Fault Refusal := s.done (effAlu core 0x03 1 s)

def execOr (core : Core) (s : State) : Host.Outcome State Fault Refusal := s.done (effAlu core 0x04 1 s)

def execXor (core : Core) (s : State) : Host.Outcome State Fault Refusal := s.done (effAlu core 0x05 1 s)

def execShl (core : Core) (s : State) : Host.Outcome State Fault Refusal := s.done (effAlu core 0x06 1 s)

def execShr (core : Core) (s : State) : Host.Outcome State Fault Refusal := s.done (effAlu core 0x07 1 s)

def execSra (core : Core) (s : State) : Host.Outcome State Fault Refusal := s.done (effAlu core 0x08 1 s)

def execMul (core : Core) (s : State) : Host.Outcome State Fault Refusal := s.done (effAlu core 0x09 3 s)

def execAddi (core : Core) (s : State) : Host.Outcome State Fault Refusal :=
  s.done (effShared core 0x0A 1 (toS fun i r => sreg r i.a + simm64 i) s)

def execMovi (core : Core) (s : State) : Host.Outcome State Fault Refusal :=
  s.done (effShared core 0x0B 1 (toS fun i _ => simm64 i) s)

def execMovhi (core : Core) (s : State) : Host.Outcome State Fault Refusal :=
  s.done (effShared core 0x0C 1 (toS fun i r => movhi (sreg r i.a) i.imm) s)

def execCmp (core : Core) (s : State) : Host.Outcome State Fault Refusal :=
  s.done (effToP core 0x0D (fun i r _ => if i.c < 6 then some (cmpHolds i.c (sreg r i.a) (sreg r i.b)) else none) s)

def execCmpi (core : Core) (s : State) : Host.Outcome State Fault Refusal :=
  s.done (effToP core 0x0E (fun i r _ => if i.c < 6 then some (cmpHolds i.c (sreg r i.a) (simm64 i)) else none) s)

def execPlog (core : Core) (s : State) : Host.Outcome State Fault Refusal :=
  s.done (effToP core 0x0F (fun i _ p => if i.c < 4 then some (plogOp i.c (preg p i.a) (preg p i.b)) else none) s)

/-! ## Scratch and vectors (R181) -/

def execLds (core : Core) (s : State) : Host.Outcome State Fault Refusal :=
  s.done (onCompose core 0x10 (fun g k => effPlain g k 0x10 1 fun i c =>
    c.setS i.d (BitVec.ofNat 64 (c.scratchRead (c.scratchAt i 8) 8))) s)

def execSts (core : Core) (s : State) : Host.Outcome State Fault Refusal :=
  s.done (onCompose core 0x11 (fun g k => effPlain g k 0x11 1 fun i c =>
    c.scratchWrite (c.scratchAt i 8) 8 (sreg c.s i.b).toNat) s)

def execSread (core : Core) (s : State) : Host.Outcome State Fault Refusal :=
  s.done (onCompose core 0x12 (fun g k => effCompose g k 0x12 (fun _ => 1) fun s b i c =>
    (s.tick, (c.setS i.d (BitVec.ofNat 64 (s.sread b k c (i.imm % 256)))).goto (c.pc + 1))) s)

def execVld (core : Core) (s : State) : Host.Outcome State Fault Refusal :=
  s.done (onCompose core 0x20 (fun g k => effPlain g k 0x20 2 fun i c => c.vld i) s)

def execVst (core : Core) (s : State) : Host.Outcome State Fault Refusal :=
  s.done (onCompose core 0x21 (fun g k => effPlain g k 0x21 2 fun i c => c.vst i) s)

def execVmov (core : Core) (s : State) : Host.Outcome State Fault Refusal :=
  s.done (onCompose core 0x22 (fun g k => effPlain g k 0x22 1 fun i c => c.setVec i.d (c.vec i.a)) s)

def execVclr (core : Core) (s : State) : Host.Outcome State Fault Refusal :=
  s.done (onCompose core 0x23 (fun g k => effPlain g k 0x23 1 fun i c => c.setVec i.d Vec.zero) s)

def execVsplat (core : Core) (s : State) : Host.Outcome State Fault Refusal :=
  s.done (onCompose core 0x24 (fun g k => effPlain g k 0x24 1 fun i c =>
    c.setVec i.d (List.replicate 16 (Px.ofNat (sreg c.s i.a).toNat))) s)

/-! ## Fetch, waits, keys, blending and the store line (R182 to R189) -/

/-- The word of the core's next instruction, a FETCH, shows a parity error (R173). DEDUCED, log entry 50. -/
def effFetchParity (g k : Nat) (s : State) : State :=
  match s.composeAt g k with
  | none => s
  | some (b, o, i, c) => if c.wait ≠ .none || i.op ≠ 0x30 then s else s.parityEnd g k o b c

def execFetch (core : Core) (ready parity : Bool) (s : State) : Host.Outcome State Fault Refusal :=
  s.done (onCompose core 0x30 (fun g k =>
    if parity then effFetchParity g k else effCompose g k 0x30 (fun _ => 2) (effFetchStart g k ready)) s)

def execFetchDataReady (core : Core) (cycles : Nat) (s : State) : Host.Outcome State Fault Refusal :=
  s.done (match core with
    | .compose g k => effFetchReady g k cycles s
    | .composeBad g k o => effFetchReady g k cycles (s.markBad g o)
    | .mgmt _ => s)

def execSwi (core : Core) (s : State) : Host.Outcome State Fault Refusal :=
  s.done (onCompose core 0x31 (fun g k => effCompose g k 0x31 (fun _ => 1) (effSwi g)) s)

def execWait (core : Core) (ready : Bool) (s : State) : Host.Outcome State Fault Refusal :=
  s.done (onCompose core 0x32 (fun g k => effCompose g k 0x32 waitCharge (effWaitStart g k ready)) s)

def execWaitConditionMet (core : Core) (cycles : Nat) (s : State) : Host.Outcome State Fault Refusal :=
  s.done (match core with
    | .compose g k => effWaitMet g k cycles s
    | .composeBad g k o => effWaitMet g k cycles (s.markBad g o)
    | .mgmt _ => s)

def execKey (core : Core) (parity : Bool) (s : State) : Host.Outcome State Fault Refusal :=
  s.done (onCompose core 0x38 (fun g k => effCompose g k 0x38 (fun _ => 1) (effKey g k parity)) s)

def execBlend (core : Core) (s : State) : Host.Outcome State Fault Refusal :=
  s.done (onCompose core 0x40 (fun g k => effCompose g k 0x40 (fun _ => 1) effBlend) s)

def execLut (core : Core) (parity : Bool) (s : State) : Host.Outcome State Fault Refusal :=
  s.done (onCompose core 0x48 (fun g k => effCompose g k 0x48 (fun _ => 1) (effLut g k parity)) s)

def execMat (core : Core) (parity : Bool) (s : State) : Host.Outcome State Fault Refusal :=
  s.done (onCompose core 0x49 (fun g k => effCompose g k 0x49 (fun _ => 1) (effMat g k parity)) s)

def execBst (core : Core) (s : State) : Host.Outcome State Fault Refusal :=
  s.done (onCompose core 0x50 (fun g k => effCompose g k 0x50 (fun _ => 2) (effBst g k)) s)

/-! ## Branches and loops (R191, R196) -/

/-- BR of a compose core: 1 cycle, and one more when taken (R179). -/
def effComposeBr (g k : Nat) (s : State) : State :=
  effCompose g k 0x60 (fun _ => 1) (fun s b i c => effBr (s.addCycles g b 1) b i c) s

def execBr (core : Core) (s : State) : Host.Outcome State Fault Refusal :=
  s.done (match core with
    | .compose g k => effComposeBr g k s
    | .composeBad g k o => effComposeBr g k (s.markBad g o)
    | .mgmt k => effMgmt k 0x60 (fun s m i => s.setMgmt k (effMgmtBr i m)) s)

def execLoop (core : Core) (s : State) : Host.Outcome State Fault Refusal :=
  s.done (onCompose core 0x61 (fun g k => effCompose g k 0x61 loopCost (effLoop k)) s)

def execEndBand (core : Core) (s : State) : Host.Outcome State Fault Refusal :=
  s.done (onCompose core 0x62 (fun g k => effCompose g k 0x62 (fun _ => 1) (effEnd g k)) s)

/-! ## The control profile (R196 to R198) -/

def execJal (core : Core) (s : State) : Host.Outcome State Fault Refusal :=
  s.done (onMgmt core (fun k => effMgmt k 0x70 fun s m i => s.setMgmt k (effJal i m)) s)

def execJr (core : Core) (s : State) : Host.Outcome State Fault Refusal :=
  s.done (onMgmt core (fun k => effMgmt k 0x71 fun s m i => s.setMgmt k (m.goto ((sreg m.s i.a).toNat / 8 * 8))) s)

def execLd (core : Core) (s : State) : Host.Outcome State Fault Refusal :=
  s.done (onMgmt core (fun k => effMgmt k 0x72 (effLd k)) s)

def execLdDataReturn (core : Core) (poison : Bool) (s : State) : Host.Outcome State Fault Refusal :=
  s.done (onMgmt core (fun k => effLdReturn k poison) s)

def execSt (core : Core) (s : State) : Host.Outcome State Fault Refusal :=
  s.done (onMgmt core (fun k => effMgmt k 0x73 (effSt k)) s)

def execCsrr (core : Core) (s : State) : Host.Outcome State Fault Refusal :=
  s.done (onMgmt core (fun k => effMgmt k 0x74 (effCsrr k)) s)

def execCsrw (core : Core) (s : State) : Host.Outcome State Fault Refusal :=
  s.done (onMgmt core (fun k => effMgmt k 0x75 (effCsrw k)) s)

def execEret (core : Core) (s : State) : Host.Outcome State Fault Refusal :=
  s.done (onMgmt core (fun k => effMgmt k 0x76 fun s m _ => s.setMgmt k m.eret) s)

def execWfi (core : Core) (s : State) : Host.Outcome State Fault Refusal :=
  s.done (onMgmt core effWfi s)

def execFence (core : Core) (s : State) : Host.Outcome State Fault Refusal :=
  s.done (onMgmt core (fun k => effMgmtPlain k 0x78 fun _ m => m) s)

def execEcall (core : Core) (s : State) : Host.Outcome State Fault Refusal :=
  s.done (onMgmt core (fun k => effMgmt k 0x79 fun s m _ => s.mgmtTrap k m 5) s)

def execInterruptException (core : Core) (s : State) : Host.Outcome State Fault Refusal :=
  s.done (onMgmt core effInterrupt s)

end Sys2Proof.Machine
end

