-- ==== Sys2Proof/Machine/Dispatch.lean ====
section
/-! DEFINITION. The meaning of every command: one arm per constructor of Instr, each one direct call. -/

namespace Sys2Proof.Machine

open Sys2Proof

/-- A command's effect on everything but the queue. -/
def exec (i : Instr) (s : State) : Host.Outcome State Fault Refusal :=
  match i with
  | .registerWrite agent write off be value => Sys2Proof.Machine.execRegisterWrite agent write off be value s
  | .tickBoundary => Sys2Proof.Machine.execTickBoundary s
  | .phaseStart phase => Sys2Proof.Machine.execPhaseStart phase s
  | .frameLatch head => Sys2Proof.Machine.execFrameLatch head s
  | .twilightEntry head => Sys2Proof.Machine.execTwilightEntry head s
  | .bandLatch head => Sys2Proof.Machine.execBandLatch head s
  | .earlyFetchStart head layer => Sys2Proof.Machine.execEarlyFetchStart head layer s
  | .bandStart group => Sys2Proof.Machine.execBandStart group s
  | .bandComplete group => Sys2Proof.Machine.execBandComplete group s
  | .bandDeadline head => Sys2Proof.Machine.execBandDeadline head s
  | .bandPacketStart head => Sys2Proof.Machine.execBandPacketStart head s
  | .writebackBand port accepted => Sys2Proof.Machine.execWritebackBand port accepted s
  | .retimeEnd head => Sys2Proof.Machine.execRetimeEnd head s
  | .commit agent value => Sys2Proof.Machine.execCommit agent value s
  | .commitValidationDone => Sys2Proof.Machine.execCommitValidationDone s
  | .structArm agent value => Sys2Proof.Machine.execStructArm agent value s
  | .structValidationDone => Sys2Proof.Machine.execStructValidationDone s
  | .step agent value => Sys2Proof.Machine.execStep agent value s
  | .tphaseWrite agent value => Sys2Proof.Machine.execTphaseWrite agent value s
  | .ptpMessage port payload => Sys2Proof.Machine.execPtpMessage port payload s
  | .genlockFrameReference ok => Sys2Proof.Machine.execGenlockFrameReference ok s
  | .sourceLost source => Sys2Proof.Machine.execSourceLost source s
  | .holdoverEnd => Sys2Proof.Machine.execHoldoverEnd s
  | .delayReqSend port => Sys2Proof.Machine.execDelayReqSend port s
  | .ppsOut => Sys2Proof.Machine.execPpsOut s
  | .ppsIn => Sys2Proof.Machine.execPpsIn s
  | .shutsyncPulseBegin n => Sys2Proof.Machine.execShutsyncPulseBegin n s
  | .shutsyncPulseEnd n => Sys2Proof.Machine.execShutsyncPulseEnd n s
  | .htbCfgWrite agent m frac value => Sys2Proof.Machine.execHtbCfgWrite agent m frac value s
  | .syncinArm agent value => Sys2Proof.Machine.execSyncinArm agent value s
  | .syncinEdge => Sys2Proof.Machine.execSyncinEdge s
  | .mdllUnlock system => Sys2Proof.Machine.execMdllUnlock system s
  | .refLost => Sys2Proof.Machine.execRefLost s
  | .htbUnlock m => Sys2Proof.Machine.execHtbUnlock m s
  | .restore agent value => Sys2Proof.Machine.execRestore agent value s
  | .readbackArm agent head value => Sys2Proof.Machine.execReadbackArm agent head value s
  | .readbackDone head => Sys2Proof.Machine.execReadbackDone head s
  | .readbackCancel agent head value => Sys2Proof.Machine.execReadbackCancel agent head value s
  | .fenceSignal agent n value => Sys2Proof.Machine.execFenceSignal agent n value s
  | .scalerBandStart sector => Sys2Proof.Machine.execScalerBandStart sector s
  | .scalerBandDone unit => Sys2Proof.Machine.execScalerBandDone unit s
  | .flattenDone head => Sys2Proof.Machine.execFlattenDone head s
  | .flush agent value => Sys2Proof.Machine.execFlush agent value s
  | .add core => Sys2Proof.Machine.execAdd core s
  | .sub core => Sys2Proof.Machine.execSub core s
  | .and core => Sys2Proof.Machine.execAnd core s
  | .or core => Sys2Proof.Machine.execOr core s
  | .xor core => Sys2Proof.Machine.execXor core s
  | .shl core => Sys2Proof.Machine.execShl core s
  | .shr core => Sys2Proof.Machine.execShr core s
  | .sra core => Sys2Proof.Machine.execSra core s
  | .mul core => Sys2Proof.Machine.execMul core s
  | .addi core => Sys2Proof.Machine.execAddi core s
  | .movi core => Sys2Proof.Machine.execMovi core s
  | .movhi core => Sys2Proof.Machine.execMovhi core s
  | .cmp core => Sys2Proof.Machine.execCmp core s
  | .cmpi core => Sys2Proof.Machine.execCmpi core s
  | .plog core => Sys2Proof.Machine.execPlog core s
  | .lds core => Sys2Proof.Machine.execLds core s
  | .sts core => Sys2Proof.Machine.execSts core s
  | .sread core => Sys2Proof.Machine.execSread core s
  | .vld core => Sys2Proof.Machine.execVld core s
  | .vst core => Sys2Proof.Machine.execVst core s
  | .vmov core => Sys2Proof.Machine.execVmov core s
  | .vclr core => Sys2Proof.Machine.execVclr core s
  | .vsplat core => Sys2Proof.Machine.execVsplat core s
  | .fetch core ready parity => Sys2Proof.Machine.execFetch core ready parity s
  | .fetchDataReady core cycles => Sys2Proof.Machine.execFetchDataReady core cycles s
  | .swi core => Sys2Proof.Machine.execSwi core s
  | .wait core ready => Sys2Proof.Machine.execWait core ready s
  | .waitConditionMet core cycles => Sys2Proof.Machine.execWaitConditionMet core cycles s
  | .key core parity => Sys2Proof.Machine.execKey core parity s
  | .blend core => Sys2Proof.Machine.execBlend core s
  | .lut core parity => Sys2Proof.Machine.execLut core parity s
  | .mat core parity => Sys2Proof.Machine.execMat core parity s
  | .bst core => Sys2Proof.Machine.execBst core s
  | .headStageReleaseDone group cycles => Sys2Proof.Machine.execHeadStageReleaseDone group cycles s
  | .br core => Sys2Proof.Machine.execBr core s
  | .loop core => Sys2Proof.Machine.execLoop core s
  | .endBand core => Sys2Proof.Machine.execEndBand core s
  | .jal core => Sys2Proof.Machine.execJal core s
  | .jr core => Sys2Proof.Machine.execJr core s
  | .ld core => Sys2Proof.Machine.execLd core s
  | .ldDataReturn core poison => Sys2Proof.Machine.execLdDataReturn core poison s
  | .st core => Sys2Proof.Machine.execSt core s
  | .csrr core => Sys2Proof.Machine.execCsrr core s
  | .csrw core => Sys2Proof.Machine.execCsrw core s
  | .eret core => Sys2Proof.Machine.execEret core s
  | .wfi core => Sys2Proof.Machine.execWfi core s
  | .fence core => Sys2Proof.Machine.execFence core s
  | .ecall core => Sys2Proof.Machine.execEcall core s
  | .interruptException core => Sys2Proof.Machine.execInterruptException core s
  | .poseDatagram port srcIp dport payload => Sys2Proof.Machine.execPoseDatagram port srcIp dport payload s
  | .serialPoseFrame port sampled bytes stopLow => Sys2Proof.Machine.execSerialPoseFrame port sampled bytes stopLow s
  | .serialCharTimeout port => Sys2Proof.Machine.execSerialCharTimeout port s
  | .serialPoll port => Sys2Proof.Machine.execSerialPoll port s
  | .poseSourceEnable agent source value => Sys2Proof.Machine.execPoseSourceEnable agent source value s
  | .bltDescriptorStart => Sys2Proof.Machine.execBltDescriptorStart s
  | .bltCopy => Sys2Proof.Machine.execBltCopy s
  | .bltFill => Sys2Proof.Machine.execBltFill s
  | .bltConvert => Sys2Proof.Machine.execBltConvert s
  | .bltBlend => Sys2Proof.Machine.execBltBlend s
  | .bltRowComplete => Sys2Proof.Machine.execBltRowComplete s
  | .bltDescriptorComplete => Sys2Proof.Machine.execBltDescriptorComplete s
  | .bltResume agent value => Sys2Proof.Machine.execBltResume agent value s
  | .bltSkip agent value => Sys2Proof.Machine.execBltSkip agent value s
  | .bltReset agent value => Sys2Proof.Machine.execBltReset agent value s
  | .dramReadRequest req addr granules => Sys2Proof.Machine.execDramReadRequest req addr granules s
  | .dramWriteRequest req addr data => Sys2Proof.Machine.execDramWriteRequest req addr data s
  | .dramSchedule ch ce port taken => Sys2Proof.Machine.execDramSchedule ch ce port taken s
  | .dmcFreeze cause ch req cmd addr => Sys2Proof.Machine.execDmcFreeze cause ch req cmd addr s
  | .refreshDue ch => Sys2Proof.Machine.execRefreshDue ch s
  | .rhWindowEnd ch => Sys2Proof.Machine.execRhWindowEnd ch s
  | .mr4Read ch hot => Sys2Proof.Machine.execMr4Read ch hot s
  | .selfRefreshEntry ch => Sys2Proof.Machine.execSelfRefreshEntry ch s
  | .traincapStart agent value => Sys2Proof.Machine.execTraincapStart agent value s
  | .traincapDone => Sys2Proof.Machine.execTraincapDone s
  | .freqRequest agent value => Sys2Proof.Machine.execFreqRequest agent value s
  | .freqCaptureHoldExpiry => Sys2Proof.Machine.execFreqCaptureHoldExpiry s
  | .freqChange => Sys2Proof.Machine.execFreqChange s
  | .freqDone => Sys2Proof.Machine.execFreqDone s
  | .freqCancel agent value => Sys2Proof.Machine.execFreqCancel agent value s
  | .linkState l0 width rate => Sys2Proof.Machine.execLinkState l0 width rate s
  | .cxlCompletionTimeout tag => Sys2Proof.Machine.execCxlCompletionTimeout tag s
  | .cxlReadCompletion tag kind data => Sys2Proof.Machine.execCxlReadCompletion tag kind data s
  | .hostSnoop addr => Sys2Proof.Machine.execHostSnoop addr s
  | .hostMemRead hpa len => Sys2Proof.Machine.execHostMemRead hpa len s
  | .hostMemWrite hpa data => Sys2Proof.Machine.execHostMemWrite hpa data s
  | .msixUnmask func entry => Sys2Proof.Machine.execMsixUnmask func entry s
  | .dmaDescriptorStart ch => Sys2Proof.Machine.execDmaDescriptorStart ch s
  | .dmaCopy ch => Sys2Proof.Machine.execDmaCopy ch s
  | .dmaFill ch => Sys2Proof.Machine.execDmaFill ch s
  | .dmaNop ch => Sys2Proof.Machine.execDmaNop ch s
  | .dmaReadCompletion ch status data => Sys2Proof.Machine.execDmaReadCompletion ch status data s
  | .dmaDescriptorComplete ch => Sys2Proof.Machine.execDmaDescriptorComplete ch s
  | .dmaHalted ch cause write addr => Sys2Proof.Machine.execDmaHalted ch cause write addr s
  | .dmaResume agent ch value => Sys2Proof.Machine.execDmaResume agent ch value s
  | .dmaSkip agent ch value => Sys2Proof.Machine.execDmaSkip agent ch value s
  | .dmaReset agent value => Sys2Proof.Machine.execDmaReset agent value s
  | .dmaResetDone => Sys2Proof.Machine.execDmaResetDone s
  | .netModeWrite agent value => Sys2Proof.Machine.execNetModeWrite agent value s
  | .portLinkChange port up fec trained => Sys2Proof.Machine.execPortLinkChange port up fec trained s
  | .ethFrameReceive port frame fcsOk => Sys2Proof.Machine.execEthFrameReceive port frame fcsOk s
  | .videoFrameTimeout flow => Sys2Proof.Machine.execVideoFrameTimeout flow s
  | .flowEnable agent flow value => Sys2Proof.Machine.execFlowEnable agent flow value s
  | .flowDisable agent flow value => Sys2Proof.Machine.execFlowDisable agent flow value s
  | .egressFrameStart port => Sys2Proof.Machine.execEgressFrameStart port s
  | .egressFrameEnd port => Sys2Proof.Machine.execEgressFrameEnd port s
  | .shaperRateWrite agent n value => Sys2Proof.Machine.execShaperRateWrite agent n value s
  | .clrdebt agent n value => Sys2Proof.Machine.execClrdebt agent n value s
  | .txsSend ctx => Sys2Proof.Machine.execTxsSend ctx s
  | .cdcContextEnable agent ctx value => Sys2Proof.Machine.execCdcContextEnable agent ctx value s
  | .cdcContextDisable agent ctx value => Sys2Proof.Machine.execCdcContextDisable agent ctx value s
  | .cdcPipePick pipe => Sys2Proof.Machine.execCdcPipePick pipe s
  | .cdcDecode pipe err copied form window used => Sys2Proof.Machine.execCdcDecode pipe err copied form window used s
  | .cdcEncode pipe ctbs rows => Sys2Proof.Machine.execCdcEncode pipe ctbs rows s
  | .cdcCommandComplete pipe => Sys2Proof.Machine.execCdcCommandComplete pipe s
  | .cdcResume agent ctx value => Sys2Proof.Machine.execCdcResume agent ctx value s
  | .cdcSkip agent ctx value => Sys2Proof.Machine.execCdcSkip agent ctx value s
  | .statusPoll lane msg => Sys2Proof.Machine.execStatusPoll lane msg s
  | .pollAnswer lane => Sys2Proof.Machine.execPollAnswer lane s
  | .credit lane msg => Sys2Proof.Machine.execCredit lane msg s
  | .status lane msg => Sys2Proof.Machine.execStatus lane msg s
  | .laneRxLockChange lane locked => Sys2Proof.Machine.execLaneRxLockChange lane locked s
  | .laneEnable agent lane value => Sys2Proof.Machine.execLaneEnable agent lane value s
  | .laneDisable agent lane value => Sys2Proof.Machine.execLaneDisable agent lane value s
  | .laneTrainingDone lane => Sys2Proof.Machine.execLaneTrainingDone lane s
  | .standbyWrite agent value => Sys2Proof.Machine.execStandbyWrite agent value s
  | .doorbell agent value => Sys2Proof.Machine.execDoorbell agent value s
  | .claim agent target => Sys2Proof.Machine.execClaim agent target s
  | .complete agent target value => Sys2Proof.Machine.execComplete agent target value s
  | .pendingWrite agent w value => Sys2Proof.Machine.execPendingWrite agent w value s
  | .domainRequest agent w value => Sys2Proof.Machine.execDomainRequest agent w value s
  | .domainChange => Sys2Proof.Machine.execDomainChange s
  | .midnightEnter agent value => Sys2Proof.Machine.execMidnightEnter agent value s
  | .midnightEntryDone => Sys2Proof.Machine.execMidnightEntryDone s
  | .midnightWake agent value => Sys2Proof.Machine.execMidnightWake agent value s
  | .wakeTime => Sys2Proof.Machine.execWakeTime s
  | .gpioWake pin => Sys2Proof.Machine.execGpioWake pin s
  | .wakeRestore => Sys2Proof.Machine.execWakeRestore s
  | .wakeComplete => Sys2Proof.Machine.execWakeComplete s
  | .energyBucketUpdate w16 => Sys2Proof.Machine.execEnergyBucketUpdate w16 s
  | .sensorSample vals => Sys2Proof.Machine.execSensorSample vals s
  | .shedStep => Sys2Proof.Machine.execShedStep s
  | .duskexit agent value => Sys2Proof.Machine.execDuskexit agent value s
  | .thermalTrip sensor val => Sys2Proof.Machine.execThermalTrip sensor val s
  | .mirrorWrite seq agent off value => Sys2Proof.Machine.execMirrorWrite seq agent off value s
  | .mirrorCommit seq agent struct word written => Sys2Proof.Machine.execMirrorCommit seq agent struct word written s
  | .mirrorResult seq commit code offend => Sys2Proof.Machine.execMirrorResult seq commit code offend s
  | .mirrorFence seq n value stamp => Sys2Proof.Machine.execMirrorFence seq n value stamp s
  | .mirrorPoseRecord seq source record stamp => Sys2Proof.Machine.execMirrorPoseRecord seq source record stamp s
  | .mirrorTime seq devtime => Sys2Proof.Machine.execMirrorTime seq devtime s
  | .mirrorFlatten seq head done => Sys2Proof.Machine.execMirrorFlatten seq head done s
  | .mirrorHeartbeat seq tick band => Sys2Proof.Machine.execMirrorHeartbeat seq tick band s
  | .heartbeatSend => Sys2Proof.Machine.execHeartbeatSend s
  | .heartbeatMiss => Sys2Proof.Machine.execHeartbeatMiss s
  | .swap agent value => Sys2Proof.Machine.execSwap agent value s
  | .porst => Sys2Proof.Machine.execPorst s
  | .resetPin => Sys2Proof.Machine.execResetPin s
  | .swreset agent value => Sys2Proof.Machine.execSwreset agent value s
  | .perst => Sys2Proof.Machine.execPerst s
  | .resetRelease => Sys2Proof.Machine.execResetRelease s
  | .bootHeaderRead header => Sys2Proof.Machine.execBootHeaderRead header s
  | .bootImageChecked image => Sys2Proof.Machine.execBootImageChecked image s
  | .cxlConfigReady => Sys2Proof.Machine.execCxlConfigReady s
  | .xspiCommand agent value => Sys2Proof.Machine.execXspiCommand agent value s
  | .xspiDone data => Sys2Proof.Machine.execXspiDone data s
  | .coreStart agent value => Sys2Proof.Machine.execCoreStart agent value s
  | .finjLinkEnable agent link value => Sys2Proof.Machine.execFinjLinkEnable agent link value s
  | .finjHoldExpiry link => Sys2Proof.Machine.execFinjHoldExpiry link s
  | .mirrorLaneLockChange lane locked => Sys2Proof.Machine.execMirrorLaneLockChange lane locked s
  | .mirrorTimeSend => Sys2Proof.Machine.execMirrorTimeSend s
  | .ppsOutFall => Sys2Proof.Machine.execPpsOutFall s
  | .mdllLock => Sys2Proof.Machine.execMdllLock s
  | .clockLockRegained which => Sys2Proof.Machine.execClockLockRegained which s
  | .aonUndervoltage low => Sys2Proof.Machine.execAonUndervoltage low s

end Sys2Proof.Machine
end

