-- ==== Sys2Proof/Safety.lean ====
section
/-! DEFINITION. What counts as a safe run (no step stops), and the terms in which the statements are made. -/

namespace Sys2Proof.Machine

/-- The outcome is a next state. -/
def Completes (o : Host.Outcome State Fault Refusal) : Prop := ∃ t, o = .next t

/-- A run of `n` steps from `s` stops nowhere. -/
def RunsFor (n : Nat) (s : State) : Prop := Completes (Host.Core.run Sys2Proof.core n s)

/-- The outcome is a next state of which `P` holds. -/
def Gives (o : Host.Outcome State Fault Refusal) (P : State → Prop) : Prop := ∃ t, o = .next t ∧ P t

/-! ## Cores -/

/-- Core k of group g is to issue the instruction `i` of opcode `op`, at byte `o` of the program store, for its band `b`: it waits for
nothing and the word shows no parity error. `c` is its state. -/
abbrev ComposeIssues (s : State) (g k op : Nat) (b : Band) (o : Nat) (i : Ins) (c : CoreSt) : Prop :=
  s.composeAt g k = some (b, o, i, c) ∧ c.wait = .none ∧ i.op = op ∧ (s.groupOf g).badWords.contains (o / 8 * 8) = false

/-- An instruction of `n` cycles is done and core k of group g is `c`. -/
def State.retired (s : State) (g k : Nat) (b : Band) (n : Nat) (c : CoreSt) : State := (s.addCycles g b n).putCore g k c

/-- The instructions of the compose profile with their opcodes, in every form (R178). -/
def composeForms : List (Nat × (Core → Instr)) :=
  [(0x01, .add), (0x02, .sub), (0x03, .and), (0x04, .or), (0x05, .xor), (0x06, .shl), (0x07, .shr), (0x08, .sra), (0x09, .mul),
    (0x0A, .addi), (0x0B, .movi), (0x0C, .movhi), (0x0D, .cmp), (0x0E, .cmpi), (0x0F, .plog)] ++
  [(0x10, .lds), (0x11, .sts), (0x12, .sread), (0x20, .vld), (0x21, .vst), (0x22, .vmov), (0x23, .vclr), (0x24, .vsplat),
    (0x31, .swi), (0x40, .blend), (0x50, .bst), (0x60, .br), (0x61, .loop), (0x62, .endBand)] ++
  [true, false].flatMap fun x => [true, false].flatMap fun y =>
    [(0x30, (.fetch · x y)), (0x32, (.wait · x)), (0x38, (.key · x)), (0x48, (.lut · x)), (0x49, (.mat · x))]

/-- The instructions of the control profile alone, in every form (R196). -/
def controlForms : List (Core → Instr) :=
  [.jal, .jr, .ld, (.ldDataReturn · true), (.ldDataReturn · false), .st, .csrr, .csrw, .eret, .wfi, .fence, .ecall, .interruptException]

/-- Management core k is to execute the word `w`, whose opcode is `op`. -/
abbrev MgmtIssues (s : State) (k op w : Nat) : Prop :=
  k < 4 ∧ (s.mgmtOf k).on = true ∧ (s.mgmtOf k).wait = .none ∧ (s.mgmtFetch k (s.mgmtOf k)).toOption = some (some w) ∧
    (Ins.ofNat w).op = op

/-- Management core k with the word it executes noted. -/
def State.mgmtAt (s : State) (k w : Nat) : MgmtSt := { s.mgmtOf k with ins := w }

/-- The block once core k has fetched the word it executes (R244, R400). -/
def State.issued (s : State) (k w : Nat) : State := s.fetched k (s.mgmtAt k w)

/-! ## Registers -/

/-- A full-word write of the agent at `off` passes the checks of R462, and the device is no paired standby that ignores it (R425). -/
abbrev State.writes (s : State) (agent off : Nat) : Prop :=
  s.access agent true off 15 = .ok ∧ (s.standby && standbyBlocks off) = false

/-- `t` is `s` after a reset of cause `cause`: registers and units at their reset values, but for THM.TRIPREC where `trip`; local memory
and what the block has sent stay. -/
def State.ResetTo (s t : State) (trip : Bool) (cause : Nat) : Prop :=
  (∀ off, off ≠ Reg.thmTriprec → off ≠ Reg.bootRstcause → t.rd off = resetWord s.part off) ∧
    t.rd Reg.bootRstcause = BitVec.ofNat 32 cause ∧
    t.rd Reg.thmTriprec = (if trip then s.rd Reg.thmTriprec else resetWord s.part Reg.thmTriprec) ∧
    t.time = TimeSt.init ∧ t.heads = [] ∧ t.accepted = [] ∧ t.busy = none ∧ t.groups = [] ∧ t.mgmt = [] ∧ t.icu = IcuSt.init ∧
    t.pwr = PwrSt.init ∧ t.dmc = DmcSt.init ∧ t.boot = BootSt.init ∧ t.dram = s.dram ∧ t.out = s.out ∧ t.part = s.part

/-- The agent and the register of a command that is a register write with a row of its own. -/
def writeTarget : Instr → Option (Nat × Nat)
  | .commit a _ => some (a, Reg.tickCommit)
  | .structArm a _ | .step a _ => some (a, Reg.tickTctl)
  | .tphaseWrite a _ => some (a, Reg.tickTphase)
  | .htbCfgWrite a m frac _ => some (a, if frac then Reg.clkHtbFrac m else Reg.clkHtbCfg m)
  | .syncinArm a _ => some (a, Reg.clkSyncin)
  | .restore a _ => some (a, Reg.clkCtl)
  | .readbackArm a h _ | .readbackCancel a h _ => some (a, Reg.headRbctl h)
  | .fenceSignal a n _ => some (a, Reg.layerFence n)
  | .flush a _ => some (a, Reg.fltCtl)
  | .poseSourceEnable a i _ => some (a, Reg.poseSrcCfg i)
  | .bltResume a _ | .bltSkip a _ | .bltReset a _ => some (a, Reg.bltCtl)
  | .traincapStart a _ => some (a, Reg.dmcTraincap)
  | .freqRequest a _ | .freqCancel a _ => some (a, Reg.dmcFreq)
  | .dmaResume a c _ | .dmaSkip a c _ => some (a, Reg.dmaChCfg c)
  | .dmaReset a _ => some (a, Reg.dmaCtl)
  | .netModeWrite a _ => some (a, Reg.netCfg)
  | .flowEnable a f _ | .flowDisable a f _ => some (a, Reg.netFlowCtl f)
  | .shaperRateWrite a n _ => some (a, Reg.tspShaperRate n)
  | .clrdebt a n _ => some (a, Reg.tspShaperClrdebt n)
  | .cdcContextEnable a c _ | .cdcContextDisable a c _ => some (a, Reg.cdcCtxCfg c)
  | .cdcResume a c _ | .cdcSkip a c _ => some (a, Reg.cdcCtxStatus c)
  | .laneEnable a n _ | .laneDisable a n _ => some (a, Reg.wlkLaneCfg n)
  | .standbyWrite a _ => some (a, Reg.wlkCtl)
  | .doorbell a _ => some (a, Reg.icuDoorbell)
  | .complete a t _ => if t < 8 then some (a, Reg.icuTgtComplete t) else none
  | .pendingWrite a w _ => if w < 32 then some (a, Reg.icuPending w) else none
  | .domainRequest a w _ => if w < 3 then some (a, Reg.pwrDomctl w) else none
  | .midnightEnter a _ | .midnightWake a _ => some (a, Reg.pwrMidnight)
  | .duskexit a _ => some (a, Reg.thmCtl)
  | .swap a _ => if a = 12 then none else some (a, Reg.mirCtl)
  | .swreset a _ | .coreStart a _ => some (a, Reg.bootCtl)
  | .xspiCommand a _ => some (a, Reg.bootXcmd)
  | .finjLinkEnable a k _ => some (a, Reg.finjLinkCfg k)
  | _ => none

/-- Registers, local memory and the management SRAMs are held in canonical form: keys strictly rising, and no entry equal to what an
unlisted key reads as. -/
def State.Canon (s : State) : Prop :=
  Tbl.wf (resetWord s.part) s.regs = true ∧ Tbl.wf dramDefault s.dram = true ∧ Tbl.wf dramDefault s.sram = true

end Sys2Proof.Machine
end

