-- ==== Sys2Proof/Certificates/Slice0/Obligations.lean ====
section
/-! DEFINITION. The statements for the provers. -/

open Sys2Proof Sys2Proof.Machine

/-! ## FKL on the compose cores (06) -/

/-- ADD to MUL, ADDI, MOVI and MOVHI on a compose core (R179, R180): sD gets the value, the listed cycles count, nothing else changes. -/
def Obligations.ComposeScalarResults : Prop :=
  ∀ (s : State) (g k : Nat) (b : Band) (o : Nat) (i : Ins) (c : CoreSt),
    let gives (op n : Nat) (ins : Core → Instr) (v : Word64) : Prop :=
      ComposeIssues s g k op b o i c → i.holds c.p = true →
        exec (ins (.compose g k)) s = .next (s.retired g k b n (CoreSt.goto { c with s := setSreg c.s i.d v } (c.pc + 1)))
    let x := sreg c.s i.a
    let y := sreg c.s i.b
    gives 0x01 1 .add (x + y) ∧ gives 0x02 1 .sub (x - y) ∧ gives 0x03 1 .and (x &&& y) ∧ gives 0x04 1 .or (x ||| y) ∧
    gives 0x05 1 .xor (x ^^^ y) ∧ gives 0x06 1 .shl (x <<< (y.toNat % 64)) ∧ gives 0x07 1 .shr (x >>> (y.toNat % 64)) ∧
    gives 0x08 1 .sra (x.sshiftRight (y.toNat % 64)) ∧ gives 0x09 3 .mul (x * y) ∧
    gives 0x0A 1 .addi (x + BitVec.ofInt 64 (signed 32 i.imm)) ∧ gives 0x0B 1 .movi (BitVec.ofInt 64 (signed 32 i.imm)) ∧
    gives 0x0C 1 .movhi (BitVec.ofNat 64 (x.toNat % 2 ^ 32 + i.imm * 2 ^ 32))

/-- CMP, CMPI and PLOG on a compose core (R180), for every condition and operation the spec defines: pD gets the value and the core goes
on. A C that the spec defines no operation for leaves pD some value, which is the model's choice (log entry 52). -/
def Obligations.ComposePredicateResults : Prop :=
  ∀ (s : State) (g k : Nat) (b : Band) (o : Nat) (i : Ins) (c : CoreSt),
    let gives (op : Nat) (ins : Core → Instr) (cond : Nat) (v : Bool) : Prop :=
      ComposeIssues s g k op b o i c → i.holds c.p = true → i.c = cond →
        exec (ins (.compose g k)) s = .next (s.retired g k b 1 (CoreSt.goto { c with p := setPreg c.p i.d v } (c.pc + 1)))
    let open' (op n : Nat) (ins : Core → Instr) : Prop :=
      ComposeIssues s g k op b o i c → i.holds c.p = true → n ≤ i.c → ∃ v, exec (ins (.compose g k)) s =
        .next ((s.addCycles g b 1).tick.putCore g k (CoreSt.goto { c with p := setPreg c.p i.d v } (c.pc + 1)))
    let x := sreg c.s i.a
    let conds (op : Nat) (ins : Core → Instr) (y : Word64) : Prop :=
      gives op ins 0 (x == y) ∧ gives op ins 1 (x != y) ∧ gives op ins 2 (decide (x.toNat < y.toNat)) ∧
      gives op ins 3 (decide (y.toNat ≤ x.toNat)) ∧ gives op ins 4 (decide (x.toInt < y.toInt)) ∧
      gives op ins 5 (decide (y.toInt ≤ x.toInt))
    let pa := preg c.p i.a
    let pb := preg c.p i.b
    conds 0x0D .cmp (sreg c.s i.b) ∧ conds 0x0E .cmpi (BitVec.ofInt 64 (signed 32 i.imm)) ∧
    gives 0x0F .plog 0 (pa && pb) ∧ gives 0x0F .plog 1 (pa || pb) ∧ gives 0x0F .plog 2 (pa != pb) ∧ gives 0x0F .plog 3 (pa && !pb) ∧
    open' 0x0D 6 .cmp ∧ open' 0x0E 6 .cmpi ∧ open' 0x0F 4 .plog

/-- LDS, STS, VLD and VST address scratch at (sA + IMM) mod 65,536, aligned down to their size (R181); VMOV, VCLR and VSPLAT (R179,
R181); SREAD of every selector of R177. A selector that R177 does not list reads some value, which is the model's choice (log entry 52). -/
def Obligations.ComposeScratchVectorResults : Prop :=
  ∀ (s : State) (g k : Nat) (b : Band) (o : Nat) (i : Ins) (c : CoreSt),
    let gives (op n : Nat) (ins : Core → Instr) (c' : CoreSt) : Prop :=
      ComposeIssues s g k op b o i c → i.holds c.p = true →
        exec (ins (.compose g k)) s = .next (s.retired g k b n (c'.goto (c.pc + 1)))
    let a (n : Nat) : Nat := unsigned 16 (((sreg c.s i.a).toNat : Int) + signed 32 i.imm) / n * n
    let byte (x : Nat) : Nat := (Tbl.get c.scratchDefault c.scratch x).toNat
    let mem (m : Mem) : CoreSt := { c with scratch := m }
    let vD (v : List Px) : CoreSt := { c with v := c.v.set i.d v }
    let x := (sreg c.s i.a).toNat
    let half (x : Nat) : BitVec 16 := BitVec.ofNat 16 (byte x + 256 * byte (x + 1))
    let selects (sel v : Nat) : Prop :=
      ComposeIssues s g k 0x12 b o i c → i.holds c.p = true → i.imm % 256 = sel →
        exec (.sread (.compose g k)) s =
          .next ((s.addCycles g b 1).tick.putCore g k (CoreSt.goto { c with s := setSreg c.s i.d (BitVec.ofNat 64 v) } (c.pc + 1)))
    gives 0x10 1 .lds { c with s := setSreg c.s i.d (BitVec.ofNat 64 (ofBytesLE ((List.range 8).map fun n => byte (a 8 + n)))) } ∧
    gives 0x11 1 .sts (mem (Mem.writeBytes c.scratchDefault c.scratch (a 8) ((bytesLE 8 (sreg c.s i.b).toNat).map (BitVec.ofNat 8)))) ∧
    gives 0x20 2 .vld (vD ((List.range 16).map fun l =>
      ⟨half (a 128 + 8 * l), half (a 128 + 8 * l + 2), half (a 128 + 8 * l + 4), half (a 128 + 8 * l + 6)⟩)) ∧
    gives 0x21 2 .vst (mem ((c.v.getD i.b Vec.zero).zipIdx.foldl (fun m e =>
      Mem.writeBytes c.scratchDefault m (a 128 + 8 * e.2) ((bytesLE 8 e.1.toNat).map (BitVec.ofNat 8))) c.scratch)) ∧
    gives 0x22 1 .vmov (vD (c.v.getD i.a Vec.zero)) ∧ gives 0x23 1 .vclr (vD Vec.zero) ∧
    gives 0x24 1 .vsplat (vD (List.replicate 16 (mkPx (x % 2 ^ 16) (x / 2 ^ 16 % 2 ^ 16) (x / 2 ^ 32 % 2 ^ 16) (x / 2 ^ 48 % 2 ^ 16)))) ∧
    selects 0 (c.cursor 1) ∧ selects 1 (c.cursor 2) ∧ selects 2 b.j ∧ selects 3 b.phase ∧ selects 4 b.head ∧
    selects 5 b.walk.length ∧
    selects 6 (if c.inside 3 then (match b.walk[c.cursor 3]? with
      | some w => w.layer.getD 0x3FF
      | none => 0x3FF) else 0x3FF) ∧
    selects 7 (b.cfg.spanX k) ∧ selects 8 (b.cfg.spanV k) ∧ selects 9 b.lines ∧ selects 10 (s.time.ticknum.toNat % 2 ^ 32) ∧
    (∀ sel, 10 < sel → ∃ v, selects sel v)

/-- BR, LOOP, END, SWI, WAIT and FETCH on a compose core (R182 to R184, R191): BR goes on at pc + IMM; LOOP enters its body for its count of
iterations, or skips it at 0; END with no open store line ends the core's band; SWI puts the scaler bands of the walk list's video layers
into the sector's queue once a band; WAIT goes on when its condition is met and waits otherwise; a FETCH beyond the walk list reads zero
when its data is present, and waits otherwise. What meets a condition or makes data present is partly the model's reading (log entries 44,
46, 47, 55). -/
def Obligations.ComposeControlResults : Prop :=
  ∀ (s : State) (g k : Nat) (b : Band) (o : Nat) (i : Ins) (c : CoreSt),
    let at1 := c.goto (c.pc + 1)
    (ComposeIssues s g k 0x60 b o i c → i.holds c.p = true →
      exec (.br (.compose g k)) s = .next (((s.addCycles g b 1).addCycles g b 1).putCore g k (c.goto (c.pc + i.imm)))) ∧
    (ComposeIssues s g k 0x61 b o i c → i.holds c.p = true →
      let n := if i.count < 0xFFFD then i.count else if i.count = 0xFFFD then b.lines
        else if i.count = 0xFFFE then b.cfg.spanV k else b.walk.length
      let kind := if i.count < 0xFFFD then 0 else i.count - 0xFFFC
      exec (.loop (.compose g k)) s = .next (s.retired g k b (if i.count < 0xFFFD then 1 else 4)
        (if n = 0 then c.goto (c.pc + 1 + i.blen)
         else { c with loops := ⟨c.pc + 1, c.pc + 1 + i.blen, n, 0, kind⟩ :: c.loops, pc := c.pc + 1 }))) ∧
    (ComposeIssues s g k 0x62 b o i c → i.holds c.p = true → c.line = none →
      exec (.endBand (.compose g k)) s = .next (s.retired g k b 1 { c with on := false })) ∧
    (ComposeIssues s g k 0x31 b o i c → i.holds c.p = true →
      Gives (exec (.swi (.compose g k)) s) fun t =>
        if b.swi then t = s.retired g k b 1 at1
        else t.scalerQ (b.head / 32) = (b.walk.filter fun w => w.layer.isSome && w.cfg.video).foldl (fun q w =>
          scalerInsert ⟨b.head, b.tick, b.phase, b.j, w.pos, b.deadline, w, b.cfg, b.surface.isSome⟩ q) (s.scalerQ (b.head / 32))) ∧
    (ComposeIssues s g k 0x32 b o i c → i.holds c.p = true → ∀ ready : Bool,
      let charge := if i.lsel = 0 then 128 else if i.lsel = 1 then 2 else 16
      let u := s.addCycles g b charge
      exec (.wait (.compose g k) ready) s =
        .next (if ready && u.waitHolds g k b i.lsel c then s.retired g k b charge at1
          else (u.askLine g k b i.lsel c).putCore g k { c with wait := .unit i.lsel, since := s.time.compTenths, listed := charge })) ∧
    (ComposeIssues s g k 0x30 b o i c → i.holds c.p = true → b.walk.length ≤ c.walkPos i.lsel →
      exec (.fetch (.compose g k) true false) s =
        .next (s.retired g k b 2 (CoreSt.goto { c with v := c.v.set i.d Vec.zero } (c.pc + 1))) ∧
      exec (.fetch (.compose g k) false false) s = .next (s.retired g k b 2 { c with wait := .fetch, since := s.time.compTenths, listed := 2 }))

/-- FETCH of a layer of the walk list whose data is present and refused by no window: vD gets, for the sixteen columns at the cursor,
the layer's pixel, from memory as the fetch path sees it, inside the active raster and zero beyond it (R182). What makes data present is
the model's reading (log entry 44). -/
def Obligations.FetchWritesTheLayersPixels : Prop :=
  ∀ (s : State) (g k : Nat) (b : Band) (o : Nat) (i : Ins) (c : CoreSt) (w : Walk),
    ComposeIssues s g k 0x30 b o i c → i.holds c.p = true → b.walk[c.walkPos i.lsel]? = some w →
    let u := s.addCycles g b 2
    let y := b.j * b.cfg.bandLines + c.cursor 1
    let x0 := b.cfg.spanX k + 16 * c.cursor 2
    let gs := c.fetchGranules k b w
    u.present b w = true → u.fetchNeeds c k b i = [] → (b.refused = true ∨ ∀ n < 16, u.refusedGranule b w (x0 + n) y = none) →
    let px := (List.range 16).map fun n =>
      if x0 + n < b.cfg.hact ∧ y < b.cfg.vact then (u.fetchView b w gs).walkPx b w (x0 + n) y else Px.zero
    exec (.fetch (.compose g k) true false) s =
      .next ((u.fetchUse b w gs).putCore g k (CoreSt.goto { c with v := c.v.set i.d px } (c.pc + 1)))

/-- KEY on a compose core (R185, R186): zero colour and, in A, 65,535 for a position beyond the walk list or a layer whose mode is not key,
and the record's key value of each lane otherwise; which of two
records of one layer counts is the model's choice (log entry 51). BLEND on a compose core (R187): no effect beyond the walk list with FN 0; with FN 0 the
layer's mode into the linear accumulator vD, or the encoded one vD + 1 for an encoded-domain layer that is not shown as FILL; with FN 1 to
6 and 9 to 14 the mode FN names, straight or premultiplied. -/
def Obligations.KeyAndBlendCompose : Prop :=
  (∀ (s : State) (g k : Nat) (b : Band) (o : Nat) (i : Ins) (c : CoreSt),
    ComposeIssues s g k 0x38 b o i c → i.holds c.p = true →
    let done (f : Px → Nat) : Prop := exec (.key (.compose g k) false) s = .next (s.retired g k b 1
      (CoreSt.goto { c with v := c.v.set i.d ((c.v.getD i.a Vec.zero).map fun p => mkPx 0 0 0 (f p)) } (c.pc + 1)))
    let u := s.addCycles g b 1
    (b.walk[c.walkPos i.lsel]? = none → done fun _ => 65535) ∧
    (∀ w, b.walk[c.walkPos i.lsel]? = some w → w.layer = none ∨ w.cfg.mode ≠ 4 → done fun _ => 65535) ∧
    (∀ w l at0, b.walk[c.walkPos i.lsel]? = some w → w.layer = some l → w.cfg.mode = 4 → u.keyAt g b l = some at0 →
      u.tableError g at0 32 false = none →
      (value16 (u.keyRec g at0).hi).le (value16 (u.keyRec g at0).lo) = false → done fun p => (u.keyRec g at0).value p)) ∧
  (∀ (s : State) (g k : Nat) (b : Band) (o : Nat) (i : Ins) (c : CoreSt),
    ComposeIssues s g k 0x40 b o i c → i.holds c.p = true →
    let done (v : List (List Px)) : Prop :=
      exec (.blend (.compose g k)) s = .next (s.retired g k b 1 (CoreSt.goto { c with v := v } (c.pc + 1)))
    let sa := c.v.getD i.a Vec.zero
    let kb := c.v.getD i.b Vec.zero
    let into (d : Nat) (f : Px → Px → Px → Px) : List (List Px) := c.v.set d ((List.range 16).map fun l =>
      f (sa.getD l Px.zero) ((c.v.getD d Vec.zero).getD l Px.zero) (kb.getD l Px.zero))
    (i.fn = 0 → b.walk[c.walkPos i.lsel]? = none → done c.v) ∧
    (∀ w, i.fn = 0 → b.walk[c.walkPos i.lsel]? = some w →
      (w.layer = none → done (into i.d fun x d _ => blendPx 0 true x d x.a.toNat 0)) ∧
      (w.layer ≠ none → w.fill = true → done (into i.d fun x d kp => blendPx w.cfg.mode false x d x.a.toNat kp.a.toNat)) ∧
      (w.layer ≠ none → w.fill = false → w.cfg.encoded = false → done (into i.d fun x d kp =>
        blendPx w.cfg.mode (w.cfg.asrc == 1) x d (resolveAlpha w.cfg.asrc w.cfg.const x.a.toNat) kp.a.toNat)) ∧
      (w.layer ≠ none → w.fill = false → w.cfg.encoded = true → done (into (i.d + 1) fun x d _ =>
        blendEncoded w.cfg.mode (w.cfg.asrc == 1) x d (resolveAlpha w.cfg.asrc w.cfg.const x.a.toNat)))) ∧
    (1 ≤ i.fn → i.fn ≤ 6 → done (into i.d fun x d kp => blendPx (i.fn - 1) false x d x.a.toNat kp.a.toNat)) ∧
    (9 ≤ i.fn → i.fn ≤ 14 → done (into i.d fun x d kp => blendPx (i.fn - 9) true x d x.a.toNat kp.a.toNat)))

/-- LUT of every kind and MAT on a compose core (R188): R, G and B through the table or the matrix, alpha unchanged. BST into the line that
the core has open, or into a line it opens (R189): the vector stands at the cursor column, and the line stays open unless FN bit 0
releases it at the span's last column; a BST for another line releases the open one first, and one that finds two lines held by the head
stage waits. END releases an open line to the head stage, once a band. How long the head stage holds a line is the model's reading (log
entry 56). -/
def Obligations.TablesMatrixAndStoreLine : Prop :=
  (∀ (s : State) (g k : Nat) (b : Band) (o : Nat) (i : Ins) (c : CoreSt),
    let u := s.addCycles g b 1
    let done (op : Nat) (ins : Core → Instr) (f : Px → Px) : Prop :=
      ComposeIssues s g k op b o i c → i.holds c.p = true →
      exec (ins (.compose g k)) s = .next (s.retired g k b 1
        (CoreSt.goto { c with v := c.v.set i.d ((c.v.getD i.a Vec.zero).map f) } (c.pc + 1)))
    let codes (t : Nat) (p : Px) : Px :=
      let f (v : BitVec 16) : Nat := round16 (u.interp1024 t ⟨v.toNat, 65535⟩)
      mkPx (f p.r) (f p.g) (f p.b) p.a.toNat
    let t := pstore g i.imm
    (i.c = 0 → u.tableError g i.imm 2048 false = none → done 0x48 (fun x => .lut x false) (codes t)) ∧
    (i.c = 1 → u.tableError g i.imm 8192 false = none → done 0x48 (fun x => .lut x false) fun p =>
      mkPx (u.tone1 t p.r.toNat) (u.tone1 t p.g.toNat) (u.tone1 t p.b.toNat) p.a.toNat) ∧
    (i.c = 2 → u.tableError g i.imm 8192 false = none → done 0x48 (fun x => .lut x false) fun p =>
      let q := u.tone2 t p.r.toNat p.g.toNat p.b.toNat
      mkPx q.1 q.2.1 q.2.2 p.a.toNat) ∧
    (∀ n < 5, i.c = 8 + n → done 0x48 (fun x => .lut x false) (codes (Reg.layerPreset n 0))) ∧
    (u.tableError g i.imm 36 false = none → done 0x49 (fun x => .mat x false) fun p =>
      let q := matRgb (fun n => (u.rd (pstore g (i.imm + 4 * n))).toNat) p.r.toNat p.g.toNat p.b.toNat
      mkPx q.1 q.2.1 q.2.2 p.a.toNat)) ∧
  (∀ (s : State) (g k : Nat) (b : Band) (o : Nat) (i : Ins) (c : CoreSt), b.surface = none → i.holds c.p = true →
    (ComposeIssues s g k 0x50 b o i c → (i.fn % 2 = 0 ∨ c.cursor 2 + 1 ≠ b.cfg.spanV k) →
      let next (l : StoreLine) : StoreLine :=
        ⟨l.line, (l.cols.filter fun e => e.1 != c.cursor 2) ++ [(c.cursor 2, c.v.getD i.a Vec.zero)]⟩
      let put (l : StoreLine) : Prop := exec (.bst (.compose g k)) s = .next (s.retired g k b 2
        (CoreSt.goto { c with line := some (next l) } (c.pc + 1)))
      (∀ l, c.line = some l → l.line = c.cursor 1 → put l) ∧
      (c.line = none → s.linesHeld g k < 2 → put ⟨c.cursor 1, []⟩)) ∧
    (ComposeIssues s g k 0x50 b o i c → c.line = none → 2 ≤ s.linesHeld g k →
      exec (.bst (.compose g k)) s = .next (s.retired g k b 2 { c with wait := .store, since := s.time.compTenths, listed := 2 })) ∧
    (ComposeIssues s g k 0x50 b o i c → ∀ l, c.line = some l → l.line ≠ c.cursor 1 → c.released.contains l.line = false →
      s.linesHeld g k = 0 → Gives (exec (.bst (.compose g k)) s) fun t =>
        ∃ q, (t.groupOf g).stageQ = (s.groupOf g).stageQ ++ ⟨k, l, false, b.key⟩ :: q) ∧
    (ComposeIssues s g k 0x62 b o i c → ∀ l, c.line = some l → c.released.contains l.line = false →
      Gives (exec (.endBand (.compose g k)) s) fun t =>
        (t.groupOf g).stageQ = (s.groupOf g).stageQ ++ [⟨k, l, false, b.key⟩] ∧
        (t.groupOf g).coreOf k = { c with line := none, released := c.released ++ [l.line], on := false }))

/-- An instruction of the compose profile whose predicate does not hold (R178): no effect but its listed cycles; a LOOP skips its body
(R191). A word in error that an instruction fetch meets (R173): whatever the instruction, the core's work on the band ends and the
group's PSTORE_PARITY is raised with the word's address; a command that names a word as newly in error runs as the same command does once
the word is known bad. What ends with the error is the model's reading (log entry 50). -/
def Obligations.FalsePredicateCostsItsCyclesOnly : Prop :=
  (∀ (s : State) (g k : Nat) (b : Band) (o : Nat) (i : Ins) (c : CoreSt), i.holds c.p = false →
    let skips (op n : Nat) (ins : Core → Instr) (len : Nat) : Prop :=
      ComposeIssues s g k op b o i c →
        exec (ins (.compose g k)) s = .next (s.retired g k b n (c.goto (c.pc + len)))
    skips 0x01 1 .add 1 ∧ skips 0x02 1 .sub 1 ∧ skips 0x03 1 .and 1 ∧ skips 0x04 1 .or 1 ∧ skips 0x05 1 .xor 1 ∧
    skips 0x06 1 .shl 1 ∧ skips 0x07 1 .shr 1 ∧ skips 0x08 1 .sra 1 ∧ skips 0x09 3 .mul 1 ∧ skips 0x0A 1 .addi 1 ∧
    skips 0x0B 1 .movi 1 ∧ skips 0x0C 1 .movhi 1 ∧ skips 0x0D 1 .cmp 1 ∧ skips 0x0E 1 .cmpi 1 ∧ skips 0x0F 1 .plog 1 ∧
    skips 0x10 1 .lds 1 ∧ skips 0x11 1 .sts 1 ∧ skips 0x12 1 .sread 1 ∧ skips 0x20 2 .vld 1 ∧ skips 0x21 2 .vst 1 ∧
    skips 0x22 1 .vmov 1 ∧ skips 0x23 1 .vclr 1 ∧ skips 0x24 1 .vsplat 1 ∧
    (∀ r, skips 0x30 2 (fun x => .fetch x r false) 1) ∧ skips 0x31 1 .swi 1 ∧
    (∀ r, skips 0x32 (waitCharge i) (fun x => .wait x r) 1) ∧ (∀ q, skips 0x38 1 (fun x => .key x q) 1) ∧
    skips 0x40 1 .blend 1 ∧ (∀ q, skips 0x48 1 (fun x => .lut x q) 1) ∧ (∀ q, skips 0x49 1 (fun x => .mat x q) 1) ∧
    skips 0x50 2 .bst 1 ∧ skips 0x60 1 .br 1 ∧ skips 0x61 (if i.count < 0xFFFD then 1 else 4) .loop (i.blen + 1) ∧
    skips 0x62 1 .endBand 1) ∧
  (∀ (s : State) (g k e : Nat), ∀ p ∈ composeForms,
    exec (p.2 (.composeBad g k e)) s = exec (p.2 (.compose g k)) (s.markBad g e)) ∧
  (∀ (s : State) (g k : Nat) (b : Band) (o : Nat) (i : Ins) (c : CoreSt), s.composeAt g k = some (b, o, i, c) → c.wait = .none →
    (s.groupOf g).badWords.contains (o / 8 * 8) = true → o < 0x40000 → g < 12 → ∀ p ∈ composeForms, i.op = p.1 →
    Gives (exec (p.2 (.compose g k)) s) fun t => t.get (F.grpPaddrOffset g) = o ∧ t.get (F.grpEventPstoreParity g) = 1 ∧
      ((t.groupOf g).coreOf k).on = false ∧ ((t.groupOf g).coreOf k).line = none ∧
      (b.surface = none ∨ c.line = none → t.dram = s.dram))

/-! ## FKL on the management cores (06) -/

/-- The instructions of both profiles on a management core (R180, R196): sD or pD gets the value and the core goes on at pc + 8. The
fetch of a word changes nothing else where the program stands in the boot ROM, the flash or a management SRAM whose core is on. -/
def Obligations.MgmtScalarResults : Prop :=
  ∀ (s : State) (k w : Nat), (Ins.ofNat w).holds (s.mgmtOf k).p = true →
    let m := s.mgmtAt k w
    let i := Ins.ofNat w
    let own : Prop := match s.place k m.pc 8 with
      | .sram _ core => s.sramOff core = none
      | .dram _ => False
      | _ => True
    let on (op : Nat) (ins : Core → Instr) (m' : MgmtSt) : Prop :=
      MgmtIssues s k op w → exec (ins (.mgmt k)) s =
        .next ((s.issued k w).setMgmt k { m' with pc := (m.pc + 8) % 2 ^ 64, wait := .none })
    let toS (op : Nat) (ins : Core → Instr) (v : Word64) : Prop := on op ins { m with s := setSreg m.s i.d v }
    let toP (op : Nat) (ins : Core → Instr) (cond : Nat) (v : Bool) : Prop :=
      i.c = cond → on op ins { m with p := setPreg m.p i.d v }
    let x := sreg m.s i.a
    let y := sreg m.s i.b
    let imm : Word64 := BitVec.ofInt 64 (signed 32 i.imm)
    let conds (op : Nat) (ins : Core → Instr) (y : Word64) : Prop :=
      toP op ins 0 (x == y) ∧ toP op ins 1 (x != y) ∧ toP op ins 2 (decide (x.toNat < y.toNat)) ∧
      toP op ins 3 (decide (y.toNat ≤ x.toNat)) ∧ toP op ins 4 (decide (x.toInt < y.toInt)) ∧
      toP op ins 5 (decide (y.toInt ≤ x.toInt))
    let pa := preg m.p i.a
    let pb := preg m.p i.b
    (own → s.issued k w = s) ∧
    toS 0x01 .add (x + y) ∧ toS 0x02 .sub (x - y) ∧ toS 0x03 .and (x &&& y) ∧ toS 0x04 .or (x ||| y) ∧ toS 0x05 .xor (x ^^^ y) ∧
    toS 0x06 .shl (x <<< (y.toNat % 64)) ∧ toS 0x07 .shr (x >>> (y.toNat % 64)) ∧ toS 0x08 .sra (x.sshiftRight (y.toNat % 64)) ∧
    toS 0x09 .mul (x * y) ∧ toS 0x0A .addi (x + imm) ∧ toS 0x0B .movi imm ∧
    toS 0x0C .movhi (BitVec.ofNat 64 (x.toNat % 2 ^ 32 + i.imm * 2 ^ 32)) ∧ conds 0x0D .cmp y ∧ conds 0x0E .cmpi imm ∧
    toP 0x0F .plog 0 (pa && pb) ∧ toP 0x0F .plog 1 (pa || pb) ∧ toP 0x0F .plog 2 (pa != pb) ∧ toP 0x0F .plog 3 (pa && !pb)

/-- BR, JAL, JR, FENCE, ERET and ECALL of the control profile (R196, R198): BR and JAL take IMM as a signed offset in instructions, JR
ignores the low 3 bits, ERET restores pc from EPC and IE from PIE, and ECALL takes the environment-call exception. A compose core runs none of them, nor the other instructions of the control profile
(R192). -/
def Obligations.MgmtControlTransfers : Prop :=
  (∀ (s : State) (g k e : Nat), ∀ ins ∈ controlForms, exec (ins (.compose g k)) s = .next s ∧
    exec (ins (.composeBad g k e)) s = .next (s.markBad g e)) ∧
  ∀ (s : State) (k w : Nat), (Ins.ofNat w).holds (s.mgmtOf k).p = true →
    let m := s.mgmtAt k w
    let i := Ins.ofNat w
    let gives (op : Nat) (ins : Core → Instr) (m' : MgmtSt) : Prop :=
      MgmtIssues s k op w → exec (ins (.mgmt k)) s = .next ((s.issued k w).setMgmt k m')
    let target := unsigned 64 ((m.pc : Int) + 8 * signed 32 i.imm)
    gives 0x60 .br { m with pc := target % 2 ^ 64, wait := .none } ∧
    gives 0x70 .jal { m with s := setSreg m.s i.d (BitVec.ofNat 64 (m.pc + 8)), pc := target % 2 ^ 64, wait := .none } ∧
    gives 0x71 .jr { m with pc := (sreg m.s i.a).toNat / 8 * 8 % 2 ^ 64, wait := .none } ∧
    gives 0x76 .eret { m with pc := m.epc, ie := m.pie } ∧
    gives 0x78 .fence { m with pc := (m.pc + 8) % 2 ^ 64, wait := .none } ∧
    gives 0x79 .ecall { m with epc := m.pc, pie := m.ie, ie := false, cause := 5, pc := m.tvec, wait := .none }

/-- CSRR and CSRW (R197): every CSR number reads its register; STATUS, EPC and TVEC are written, the addresses as multiples of 8, the
read-only CAUSE, BADADDR, COREID and CYCLE keep their value; any other number takes the illegal-instruction exception. CYCLE_LO's read
captures CYCLE_HI (R9). The low 3 bits that EPC and TVEC drop are the model's choice (log entry 21). -/
def Obligations.ControlRegistersReadAndWrite : Prop :=
  ∀ (s : State) (k w : Nat), (Ins.ofNat w).holds (s.mgmtOf k).p = true →
    let m := s.mgmtAt k w
    let u := s.issued k w
    let i := Ins.ofNat w
    let next (m' : MgmtSt) : MgmtSt := { m' with pc := (m.pc + 8) % 2 ^ 64, wait := .none }
    let reads (n v : Nat) : Prop := i.imm = n →
      exec (.csrr (.mgmt k)) s = .next (u.setMgmt k (next { m with s := setSreg m.s i.d (BitVec.ofNat 64 v) }))
    let writes (n : Nat) (m' : MgmtSt) : Prop := i.imm = n → exec (.csrw (.mgmt k)) s = .next (u.setMgmt k (next m'))
    let v := (sreg m.s i.a).toNat
    let illegal : MgmtSt := { m with epc := m.pc, pie := m.ie, ie := false, cause := 1, pc := m.tvec, wait := .none }
    (MgmtIssues s k 0x74 w →
      reads 0 ((if m.ie then 1 else 0) + (if m.pie then 2 else 0)) ∧ reads 1 m.epc ∧ reads 2 m.cause ∧ reads 3 m.tvec ∧
      reads 4 m.badaddr ∧ reads 5 k ∧
      (i.imm = 6 → Gives (exec (.csrr (.mgmt k)) s) fun t =>
        (t.mgmtOf k) = next { m with s := setSreg m.s i.d (BitVec.ofNat 64 (u.time.sysTenths / 10 % 2 ^ 32)) } ∧
        halfAt t.capHi (cycleKey k) = some (BitVec.ofNat 32 (u.time.sysTenths / 10 / 2 ^ 32))) ∧
      (∀ hi, i.imm = 7 → halfAt u.capHi (cycleKey k) = some hi → Gives (exec (.csrr (.mgmt k)) s) fun t =>
        (t.mgmtOf k) = next { m with s := setSreg m.s i.d (BitVec.ofNat 64 hi.toNat) } ∧ halfAt t.capHi (cycleKey k) = none) ∧
      (8 ≤ i.imm → exec (.csrr (.mgmt k)) s = .next (u.setMgmt k illegal))) ∧
    (MgmtIssues s k 0x75 w →
      writes 0 { m with ie := v % 2 == 1, pie := v / 2 % 2 == 1 } ∧ writes 1 { m with epc := v / 8 * 8 } ∧ writes 2 m ∧
      writes 3 { m with tvec := v / 8 * 8 } ∧ writes 4 m ∧ writes 5 m ∧ writes 6 m ∧ writes 7 m ∧
      (8 ≤ i.imm → exec (.csrw (.mgmt k)) s = .next (u.setMgmt k illegal)))

/-- WFI goes on while the core's interrupt line is asserted and waits otherwise (R196, R381); an asserted line with IE = 1 takes the
interrupt exception with the address of the next instruction in EPC (R197, R198, R381), also out of a WFI; an
undefined opcode takes the illegal-instruction exception whatever its predicate, which is the model's reading (log entries 53, 112, 113). -/
def Obligations.InterruptsWakeAndTrap : Prop :=
  ∀ (s : State) (k w : Nat),
    let m := s.mgmtOf k
    let trapped (m : MgmtSt) (epc : Nat) : MgmtSt :=
      { m with epc := epc, pie := m.ie, ie := false, cause := 8, pc := m.tvec, wait := .none }
    (MgmtIssues s k 0x77 w → (Ins.ofNat w).holds m.p = true →
      exec (.wfi (.mgmt k)) s = .next ((s.issued k w).setMgmt k (if (s.issued k w).flag (F.icuTgtStatLine k)
        then { s.mgmtAt k w with pc := (m.pc + 8) % 2 ^ 64, wait := .none } else { s.mgmtAt k w with wait := .interrupt }))) ∧
    (k < 4 → m.on = true → m.wait = .interrupt → s.flag (F.icuTgtStatLine k) = true →
      exec (.wfi (.mgmt k)) s = .next (s.setMgmt k { m with pc := (m.pc + 8) % 2 ^ 64, wait := .none })) ∧
    (k < 4 → m.on = true → s.flag (F.icuTgtStatLine k) = true → m.ie = true →
      (m.wait = .none → exec (.interruptException (.mgmt k)) s = .next (s.setMgmt k (trapped m m.pc))) ∧
      (m.wait = .interrupt → exec (.interruptException (.mgmt k)) s = .next (s.setMgmt k (trapped m ((m.pc + 8) % 2 ^ 64))))) ∧
    ((s.flag (F.icuTgtStatLine k) = false ∨ m.ie = false) → k < 4 → m.on = true → m.wait = .none →
      ∀ w, (s.mgmtFetch k m).toOption = some (some w) → controlOp (Ins.ofNat w).op = false →
      exec (.interruptException (.mgmt k)) s = .next ((s.fetched k m).setMgmt k
        { m with epc := m.pc, pie := m.ie, ie := false, cause := 1, pc := m.tvec, wait := .none }))

/-- LD and ST (R196, R198): an access that is not aligned to its size, that the protection map denies, or that reaches unmapped space
takes the exception 2, 3 or 4 with its address in BADADDR, and a store that faults writes nothing; a load from the core's own SRAM and
a store to any SRAM whose core is on complete at once; a load of anything else waits for its data. -/
def Obligations.LoadsAndStoresReachMemory : Prop :=
  ∀ (s : State) (k w : Nat), (Ins.ofNat w).holds (s.mgmtOf k).p = true →
    let m := s.mgmtAt k w
    let u := s.issued k w
    let i := Ins.ofNat w
    let a := (sreg m.s i.a + BitVec.ofInt 64 (signed 32 i.imm)).toNat
    let n := 2 ^ (i.c % 4)
    let next (m' : MgmtSt) : MgmtSt := { m' with pc := (m.pc + 8) % 2 ^ 64, wait := .none }
    let trapped (cause : Nat) : MgmtSt :=
      { m with epc := m.pc, pie := m.ie, ie := false, cause := cause, pc := m.tvec, wait := .none, badaddr := a }
    let bytes (at0 : Nat) : Nat := ofBytesLE ((List.range n).map fun j => (Tbl.get dramDefault u.sram (at0 + j)).toNat)
    let stored := (sreg m.s i.b).toNat % 2 ^ (8 * n)
    (MgmtIssues s k 0x72 w →
      (∀ c, c ≠ 3 → u.mgmtFault k false a n = some c → exec (.ld (.mgmt k)) s = .next (u.setMgmt k (trapped c))) ∧
      (u.mgmtFault k false a n = some 3 →
        exec (.ld (.mgmt k)) s = .next ((u.mgmtRefused k false a n).setMgmt k (trapped 3))) ∧
      (u.mgmtFault k false a n = none → a < 0x20000 → u.domOn (73 + k) = true →
        let v := extend n (bit i.c 2) (bytes (0x20000 * (k + 1) + a))
        exec (.ld (.mgmt k)) s = .next (u.setMgmt k (next { m with s := setSreg m.s i.d v }))) ∧
      (u.mgmtFault k false a n = none → (u.place k a n).own k = false →
        exec (.ld (.mgmt k)) s = .next (u.setMgmt k { m with wait := .load }))) ∧
    (MgmtIssues s k 0x73 w →
      (∀ c, c ≠ 3 → u.mgmtFault k true a n = some c → exec (.st (.mgmt k)) s = .next (u.setMgmt k (trapped c))) ∧
      (u.mgmtFault k true a n = some 3 →
        exec (.st (.mgmt k)) s = .next ((u.mgmtRefused k true a n).setMgmt k (trapped 3))) ∧
      (∀ at0 core, u.mgmtFault k true a n = none → u.place k a n = .sram at0 core → u.sramOff core = none →
        Gives (exec (.st (.mgmt k)) s) fun t => t.mgmtOf k = next m ∧ t.regs = u.regs ∧ t.dram = u.dram ∧
          (∀ j < n, Tbl.get dramDefault t.sram (at0 + j) = BitVec.ofNat 8 (stored / 2 ^ (8 * j))) ∧
          (∀ x, x < at0 ∨ at0 + n ≤ x → Tbl.get dramDefault t.sram x = Tbl.get dramDefault u.sram x)))

/-- An opcode of the compose profile alone, on a management core (R196): the illegal-instruction exception, whatever the predicate, which is
the model's reading (log entry 53). LD_DATA_RETURN (R196, R198): the
value that a waiting load was to read from another SRAM or local DRAM is extended into sD, and poisoned data takes the bus-error
exception, whatever the protection map says by then (R451). -/
def Obligations.WaitingLoadsAndIllegalOpcodes : Prop :=
  (∀ (s : State) (k w : Nat),
    let m := s.mgmtAt k w
    let illegal (op : Nat) (ins : Core → Instr) : Prop := MgmtIssues s k op w →
      exec (ins (.mgmt k)) s = .next ((s.issued k w).setMgmt k
        { m with epc := m.pc, pie := m.ie, ie := false, cause := 1, pc := m.tvec, wait := .none })
    illegal 0x10 .lds ∧ illegal 0x11 .sts ∧ illegal 0x12 .sread ∧ illegal 0x20 .vld ∧ illegal 0x21 .vst ∧ illegal 0x22 .vmov ∧
    illegal 0x23 .vclr ∧ illegal 0x24 .vsplat ∧ (∀ r q, illegal 0x30 (fun x => .fetch x r q)) ∧ illegal 0x31 .swi ∧
    (∀ r, illegal 0x32 (fun x => .wait x r)) ∧ (∀ q, illegal 0x38 (fun x => .key x q)) ∧ illegal 0x40 .blend ∧
    (∀ q, illegal 0x48 (fun x => .lut x q)) ∧ (∀ q, illegal 0x49 (fun x => .mat x q)) ∧ illegal 0x50 .bst ∧
    illegal 0x61 .loop ∧ illegal 0x62 .endBand) ∧
  (∀ (s : State) (k : Nat),
    let m := s.mgmtOf k
    let i := Ins.ofNat m.ins
    let a := (sreg m.s i.a + BitVec.ofInt 64 (signed 32 i.imm)).toNat
    let n := 2 ^ (i.c % 4)
    let ends (u : State) (v : Nat) : Prop := exec (.ldDataReturn (.mgmt k) false) s = .next (u.setMgmt k
      { m with s := setSreg m.s i.d (extend n (bit i.c 2) v), pc := (m.pc + 8) % 2 ^ 64, wait := .none })
    k < 4 → m.on = true → m.wait = .load →
    (∀ x core, s.place k a n = .sram x core → s.sramOff core = none →
      ends s (ofBytesLE ((List.range n).map fun j => (Tbl.get dramDefault s.sram (x + j)).toNat))) ∧
    (∀ x, s.place k a n = .dram x → s.localDead x n = false →
      ends (s.useLocal 34 x n) (ofBytesLE ((List.range n).map fun j => (Tbl.get dramDefault s.dram (x + j)).toNat))) ∧
    (∀ x, s.place k a n = .dram x → exec (.ldDataReturn (.mgmt k) true) s = .next (s.setMgmt k
      { m with epc := m.pc, pie := m.ie, ie := false, cause := 4, pc := m.tvec, wait := .none, badaddr := a })))

/-- The waits of the compose cores end (R182, R184, R194): FETCH_DATA_READY completes a waiting FETCH and WAIT_CONDITION_MET a waiting
WAIT, the cycles beyond the listed ones counted as wait cycles. -/
def Obligations.ComposeWaitsEnd : Prop :=
  ∀ (s : State) (g k : Nat) (b : Band) (o : Nat) (i : Ins) (c : CoreSt) (n : Nat),
    s.composeAt g k = some (b, o, i, c) →
    (c.wait = .fetch → b.walk.length ≤ c.walkPos i.lsel →
      exec (.fetchDataReady (.compose g k) n) s = .next ((s.addWait g b { c with wait := .none } n).1.putCore g k
        (CoreSt.goto { c with wait := .none, waited := c.waited + n, v := c.v.set i.d Vec.zero } (c.pc + 1)))) ∧
    (∀ u, c.wait = .unit u → s.waitHolds g k b u c = true →
      exec (.waitConditionMet (.compose g k) n) s = .next ((s.addWait g b { c with wait := .none } n).1.putCore g k
        (CoreSt.goto { c with wait := .none, waited := c.waited + n } (c.pc + 1))))

/-! ## Bands (02, 03, 04, 06) -/

/-- BAND_START (R13, R174): a free group takes the first band of its queue, and every core begins clean, on where its span is not empty; with
no band queued it takes the next rebuild band (R129). BAND_LATCH (R13, R72): the head's next band in latch order is latched at its latch
instant, and joins its group's queue by deadline, then head number, when the head composes. -/
def Obligations.BandsAreLatchedAndStarted : Prop :=
  (∀ (s : State) (g : Nat), g < s.part.groups → (s.groupOf g).running = none →
    let x := s.groupOf g
    let clean (t : State) (b : Band) : Prop := ∀ k < 8,
      let c := (t.groupOf g).coreOf k
      c.on = decide (k * b.cfg.spanCols < b.cfg.vcols) ∧ c.pc = 0 ∧ c.v = List.replicate 32 Vec.zero ∧
      c.s = List.replicate 32 0 ∧ (∀ n < 8, preg c.p n = decide (n = 0)) ∧ c.loops = [] ∧ c.line = none ∧ c.released = [] ∧ c.wait = .none
    (∀ e q b, x.queue = e :: q → s.bandOf (e.1, e.2.1, e.2.2.1, e.2.2.2.1) = some b → b.surface = none →
      Gives (exec (.bandStart g) s) fun t =>
        (t.groupOf g).queue = q ∧ (t.groupOf g).running = some (e.1, e.2.1, e.2.2.1, e.2.2.2.1) ∧ clean t b ∧
        t.dram = s.dram ∧ t.time = s.time ∧ t.out = s.out) ∧
    (∀ b, x.queue = [] → x.rebuild = none → s.nextRebuild g = some b →
      Gives (exec (.bandStart g) s) fun t =>
        (t.groupOf g).rebuild = some b ∧ clean t b ∧ t.heads = s.heads ∧ t.dram = s.dram)) ∧
  (∀ (s : State) (h : Nat) (r : Run), h < s.part.heads → s.nextRun (s.headOf h).runs = some r →
    let g := groupOfHead h r.cfg
    Gives (exec (.bandLatch h) s) fun t => ∃ b,
      (t.headOf h).bands = (s.headOf h).bands ++ [b] ∧
      b.head = h ∧ b.tick = r.tick ∧ b.phase = r.phase ∧ b.j = r.j ∧ b.stage = r.mode ∧ b.cfg = r.cfg ∧
      b.latch = (s.latchAt r.cfg r.start r.j).toNat ∧ b.deadline = (t.deadlineAt r.cfg r.start r.j).toNat ∧
      b.lines = r.cfg.linesOf r.j ∧ b.store = [] ∧
      t.time.devtime = (s.advanceTo (s.latchAt r.cfg r.start r.j).toNat).time.devtime ∧
      (t.groupOf g).queue = (if r.mode = .queued then queueInsert (h, b.tick, b.phase, b.j, b.deadline) (s.groupOf g).queue
        else (s.groupOf g).queue))

/-- HEAD_STAGE_RELEASE_DONE and BAND_COMPLETE (R189, R191, R129): the release the head stage encodes leaves its queue and its line is in the
band buffer, or is dropped where the band has gone; when every core has ended and no release of the band waits, the band is complete and
the group free, and a rebuild band that has ended moves its surface to the next band. BAND_DEADLINE (R88, R97): the band of earliest
deadline leaves the head at its deadline with its image: as composed, safe fill in Dusk, black in re-time; a band that no core had finished
counts as late in HEAD.COUNT, and raises BAND_LATE the first time in a sub-frame. A release for a line already sent is patched or dropped
by the model's reading (log entry 48). -/
def Obligations.BandsCompleteAndAreSent : Prop :=
  (∀ (s : State) (g : Nat),
    let x := s.groupOf g
    (∀ r q b n, x.stageQ = r :: q → (∀ j < 8, (x.coreOf j).wait ≠ .store) → s.bandOf r.key = some b → b.surface = none →
      (b.store.any fun e => e.1 == 8 * r.line.line + r.core) = false →
      Gives (exec (.headStageReleaseDone g n) s) fun t => (t.groupOf g).stageQ = q ∧ ∃ b', t.bandOf r.key = some b' ∧
        b'.store = b.store ++ [(8 * r.line.line + r.core,
          ((s.setGroup g { x with stageQ := q }).encodeSpan g b.cfg r.core r.line).1)]) ∧
    (∀ r q n, x.stageQ = r :: q → (∀ j < 8, (x.coreOf j).wait ≠ .store) → s.bandOf r.key = none → (s.headOf r.key.1).sent = [] →
      exec (.headStageReleaseDone g n) s = .next (s.setGroup g { x with stageQ := q })) ∧
    (∀ n, x.stageQ = [] → exec (.headStageReleaseDone g n) s = .next s) ∧
    (∀ k b, x.running = some k → (x.cores.all fun e => !e.2.on) = true → (x.stageQ.any fun r => r.key == k) = false →
      s.bandOf k = some b → b.surface = none →
      Gives (exec (.bandComplete g) s) fun t => (t.groupOf g).running = none ∧ (t.groupOf g).cores = x.saved ∧
        t.bandOf k = some { b with stage := .complete } ∧ t.dram = s.dram ∧ t.time = s.time) ∧
    (∀ b, x.running = none → x.rebuild = some b → (x.cores.all fun e => !e.2.on) = true →
      Gives (exec (.bandComplete g) s) fun t => (t.groupOf g).rebuild = none ∧ (t.groupOf g).cores = [] ∧
        t.surfaces = s.surfaces.map (fun f => if f.building && some f.addr == b.surface then { f with nextBand := b.j + 1 } else f) ∧
        t.heads = s.heads ∧ t.dram = s.dram ∧ t.time = s.time) ∧
    (∀ k, x.running = some k → (x.cores.any fun e => e.2.on) = true → exec (.bandComplete g) s = .next s)) ∧
  (∀ (s : State) (h : Nat), (s.headOf h).bands = [] → exec (.bandDeadline h) s = .next s) ∧
  (∀ (s : State) (h : Nat) (b : Band), (s.headOf h).earliest = some b → b.head = h → h ∉ s.copiesOf h b.tick →
    (s.headOf h).duskPend = false →
    let late := b.stage == .queued || b.stage == .running
    let counted := late && !b.parity
    Gives (exec (.bandDeadline h) s) fun t =>
      (t.headOf h).bands = (s.headOf h).bands.filter (fun c => !(c.isKey b.key && c.deadline == b.deadline)) ∧
      (t.headOf h).sent.getLast? = some ⟨b.tick, b.phase, b.j, b.deadline, b.sends.1, b.cfg, b.sends.2, false, none,
        b.j + 1 == b.cfg.nb, late || b.parity⟩ ∧
      (b.stage = .black → b.sends = (1, List.replicate b.lines (List.replicate b.cfg.hact 0))) ∧
      (b.stage = .safeFill → b.sends = (2, List.replicate b.lines (List.replicate b.cfg.hact b.cfg.fillPx))) ∧
      (b.stage ≠ .black → b.stage ≠ .safeFill → b.sends = (0, b.image)) ∧
      t.get (F.headCountLatecnt h) = (if counted then min 65535 (s.get (F.headCountLatecnt h) + 1) else s.get (F.headCountLatecnt h)) ∧
      (counted = true → (s.headOf h).lateSeen ≠ some (b.tick, b.phase) → t.get (F.headEventBandLate h) = 1) ∧
      t.time.devtime = (s.advanceTo b.deadline).time.devtime ∧ t.dram = s.dram)

/-- FRAME_LATCH (R73, R81): the head goes on to its next tick at the frame latch, and the newest accepted commit for that tick becomes
its active set; without one the set stays. A head that the part does not have latches nothing. -/
def Obligations.FrameLatchActivatesTheCommit : Prop :=
  ∀ (s : State) (h : Nat),
    let x := s.headOf h
    let k := x.latchTick
    (s.part.heads ≤ h → exec (.frameLatch h) s = .next s) ∧
    (h < s.part.heads → Gives (exec (.frameLatch h) s) fun t =>
      (t.headOf h).latchTick = k + 1 ∧
      t.time.devtime = (s.advanceTo (s.frameLatch h k).toNat).time.devtime ∧
      (match s.selects h k with
        | some c => (t.headOf h).cfg = (c.heads.lookup h).getD x.cfg ∧ (t.headOf h).order = c.order ∧ (t.headOf h).agent = c.agent
        | none => (t.headOf h).cfg = x.cfg ∧ (t.headOf h).order = x.order ∧ (t.headOf h).agent = x.agent))

/-- TWILIGHT_ENTRY (R95), RETIME_END (R91) and EARLY_FETCH_START (R25): an idle head that meets the conditions enters Twilight with its event
and sends no further the ticks that Twilight leaves out (how it ends a tick in progress is the model's reading, log entry 41), and no
other does; a re-time ends at its instant; an early fetch, not before its earliest instant, holds a local buffer as it then reads,
or asks for the granules of a host buffer that have not come. What an early fetch holds is the model's reading (log entry 42). SCALER_BAND_START, SCALER_BAND_DONE and FLATTEN_DONE (R110,
R122, R129): the sector's first scaler band takes its lowest free unit, a unit that has delivered is free and counts the band, and a
surface rebuilt whole is valid. -/
def Obligations.HeadEventsAndScalerBands : Prop :=
  (∀ (s : State) (h : Nat),
    let x := s.headOf h
    let idle := h < s.part.heads ∧ x.cfg.en = true ∧ x.cfg.clone = false ∧ s.get (F.headStatusState h) = 1 ∧ x.cfg.twiK ≠ 0 ∧
      s.time.ts.phases = 1 ∧ x.cfg.twiIdle ≠ 0 ∧ x.cfg.twiIdle ≤ x.idle
    (idle → Gives (exec (.twilightEntry h) s) fun t =>
      t.get (F.headStatusState h) = 3 ∧ t.get (F.headEventTwilight h) = 1 ∧ t.dram = s.dram ∧ t.time = s.time ∧
      t.headOf h = { x with bands := x.bands.filter fun b => b.tick % (x.cfg.twiK + 1) = 0
                            runs := x.runs.filter fun r => r.tick % (x.cfg.twiK + 1) = 0 } ∧
      (∀ k, k ≠ h → t.headOf k = s.headOf k)) ∧
    (¬ idle → exec (.twilightEntry h) s = .next s) ∧
    (∀ e, x.retimeEnd = some e →
      exec (.retimeEnd h) s = .next ((s.advanceTo e).setHead h { x with resume := true })) ∧
    (∀ layer, s.earlyPlan h layer = none → exec (.earlyFetchStart h layer) s = .next s) ∧
    (∀ layer p r w, s.earlyPlan h layer = some p →
      let u := s.advanceTo (s.earlyFrom p.1).toNat
      let e := x.earlyOf r
      let b := r.band h 0 0 [w]
      let gs := r.footprint h w
      u.earlyPlan h layer = some (r, w) → w.fill = false →
      (w.host = true → exec (.earlyFetchStart h layer) s = .next
        ((u.setHead h { x with early := some e }).askGranules (u.fetchRead 0 b layer)
          (gs.filter fun g => !e.host.any (·.1 == g) && !u.granuleRefused b.agent true (64 * g) 64))) ∧
      (w.host = false → u.frozen = false → Gives (exec (.earlyFetchStart h layer) s) fun t =>
        t.time = u.time ∧ t.dram = s.dram ∧ (t.headOf h).early = some { e with
          mem := ⟨layer, w.addr, w.pitch, (u.fetchView b w gs).dram⟩ :: e.mem.filter (·.layer != layer) }))) ∧
  (∀ (s : State) (sector u h : Nat),
    (∀ x q n, s.scalerQ sector = x :: q → (List.range 6).find? (fun n => (s.unitOf (6 * sector + n)).isNone) = some n →
      Gives (exec (.scalerBandStart sector) s) fun t =>
        t.scalerQ sector = q ∧ t.unitOf (6 * sector + n) = some x ∧
        (∀ v, v ≠ 6 * sector + n → t.unitOf v = s.unitOf v) ∧
        (t.layerRt (x.walk.layer.getD 0)).lastM.lookup x.head = some (if footprintOk x.cfg x.walk.cfg x.walk x.j x.walk.m
          then x.walk.m else ((s.layerRt (x.walk.layer.getD 0)).lastM.lookup x.head).getD x.walk.cfg.defM)) ∧
    (∀ x, s.unitOf u = some x → s.scalerTarget x = none →
      exec (.scalerBandDone u) s = .next ((s.setUnit u none).bump (F.sclCountBands u))) ∧
    (∀ x g b, s.unitOf u = some x → s.scalerTarget x = some (g, b) →
      exec (.scalerBandDone u) s = .next (((s.setUnit u none).bump (F.sclCountBands u)).putBand g
        { b with scaled := b.scaled.map fun q => if q.pos = x.pos then { q with done := true } else q })) ∧
    (∀ f, s.surfaces.find? (fun f => f.head == h && f.building && (s.headOf h).cfg.nb ≤ f.nextBand) = some f →
      Gives (exec (.flattenDone h) s) fun t =>
        t.surfaces = s.surfaces.map (fun y => if y == f then { f with valid := true, building := false } else y) ∧
        t.get F.fltStatFlattenDone = 1 ∧ t.heads = s.heads ∧ t.dram = s.dram))

/-! ## Ticks, commits and device time (02) -/

/-- TICK_BOUNDARY and PHASE_START (R47, R68): the next tick begins at its boundary and its index is the current one; a phase of the
current tick begins at its offset, for the heads that send it. A TPHASE that waits, and a validated structure whose target has come (R50),
are in force from the boundary on. A clock that has died, or a device held in reset, reaches no boundary (R63, R466), which is the
model's reading (log entry 6). -/
def Obligations.TicksAndPhasesAdvance : Prop :=
  ∀ s : State,
    (s.still = true → exec .tickBoundary s = .next s) ∧
    (s.still = false → Gives (exec .tickBoundary s) fun t =>
      t.time.ticknum = BitVec.ofNat 64 s.time.nextTick ∧
      (s.time.armed = none → s.time.tphasePend = none → s.flag F.tickTctlStep = false →
        t.time.nextTick = s.time.nextTick + 1 ∧
        t.time.devtime = (s.advanceTo (s.tickT s.time.nextTick).toNat).time.devtime ∧ t.time.ts = s.time.ts) ∧
      (∀ p, s.time.armed = none → s.time.tphasePend = some p → s.flag F.tickTctlStep = false →
        t.time.tphase = p.toInt ∧ t.time.tphasePend = none) ∧
      (∀ a, s.time.armed = some a → a.valid = true → a.target ≤ s.time.nextTick → s.flag F.tickTctlStep = false →
        t.time.ts = a.ts ∧ t.time.armed = none ∧ t.get F.tickTctlStructArm = 0 ∧ t.get F.tickTstructStatPending = 0)) ∧
    (∀ i, s.time.ts.phases ≤ i → exec (.phaseStart i) s = .next s) ∧
    (∀ i, i < s.time.ts.phases → Gives (exec (.phaseStart i) s) fun t =>
      let p := (s.tickStart + (s.time.ts.phofs.getD i 0 : Int)).toNat
      t.time = (s.advanceTo p).time ∧ t.regs = s.regs ∧ t.dram = s.dram ∧
      ∀ h, h < s.part.heads → (s.headOf h).cfg.en = true → bit (s.headOf h).cfg.phmask i = true →
        (t.headOf h).subPhase = i ∧ (t.headOf h).subStart = p)

/-- STEP, TPHASE_WRITE and STRUCT_ARM (R40, R47, R49, R50), once the write passes the checks: STEP is kept while FAULT is set and ignored
while it is clear; TPHASE is ignored under genlock discipline and awaits the next boundary otherwise; STRUCT_ARM takes the staging copy,
for the first boundary whose deadline has not passed, with LATE where that is not the next one, or counts an overrun while a validation
runs. How far the model looks for that boundary is its choice (log entry 33). -/
def Obligations.TickControlWrites : Prop :=
  ∀ (s : State) (a : Nat) (v : Word),
    (s.writes a Reg.tickTctl →
      (v.getLsbD 0 = true → s.flag F.tickTstatFault = true → exec (.step a v) s = .next (s.put F.tickTctlStep 1)) ∧
      (v.getLsbD 0 = false ∨ s.flag F.tickTstatFault = false → exec (.step a v) s = .next s) ∧
      (v.getLsbD 1 = false → exec (.structArm a v) s = .next s) ∧
      (v.getLsbD 1 = true → s.busy.isSome = true ∨ s.flag F.tickTstructStatBusy = true →
        exec (.structArm a v) s = .next ((s.put F.tickTstructStatOverrun 1).signal 944)) ∧
      (v.getLsbD 1 = true → s.busy = none → s.flag F.tickTstructStatBusy = false →
        Gives (exec (.structArm a v) s) fun t =>
          let m := s.structTarget s.stagedTick s.now 256 s.time.nextTick
          t.time.armed = some ⟨s.stagedTick, s.now, m, m != s.time.nextTick, false⟩ ∧
          t.get F.tickTctlStructArm = 1 ∧ t.get F.tickTstructStatPending = 1 ∧ t.get F.tickTstructStatBusy = 1 ∧
          t.get F.tickTstructStatOverrun = 0 ∧ t.get F.tickTstructStatLate = ofBool (m != s.time.nextTick) ∧ t.heads = s.heads ∧ t.dram = s.dram)) ∧
    (s.writes a Reg.tickTphase →
      (s.get F.tickTstatActive = 2 → exec (.tphaseWrite a v) s = .next s) ∧
      (s.get F.tickTstatActive ≠ 2 → exec (.tphaseWrite a v) s = .next
        { s.wr Reg.tickTphase v with time := { s.time with tphasePend := some v } }))

/-- COMMIT, COMMIT_VALIDATION_DONE and STRUCT_VALIDATION_DONE (R49, R78, R79, R81, R84): a commit word snapshots the staging sets its
CMASK names, accepts one that names no present head at once (a paired primary forwards the word and its result, R424), or notes an overrun while a validation runs; a validated commit is accepted or leaves the accepted ones as they were, its code in the agent's
CSTAT; a validated structure stays armed, or is dropped. -/
def Obligations.CommitsAreTakenAndValidated : Prop :=
  ∀ (s : State) (a : Nat) (v : Word),
    (s.writes a Reg.tickCommit →
      let mask := (s.cmask a).filter (· < s.part.heads)
      let told (u : State) : State := (u.forward 1 [a, v.toNat, s.now]).forward 3 [a, v.toNat % 65536, 0, 0]
      (mask = [] → s.busy.isSome = true ∨ s.flag F.tickTstructStatBusy = true →
        exec (.commit a v) s = .next (s.put (bankFld a F.tickCstatOverrun) 1)) ∧
      (∀ h l, mask = h :: l → s.busy.isSome = true ∨ s.flag F.tickTstructStatBusy = true →
        exec (.commit a v) s = .next ((s.put (bankFld a F.tickCstatOverrun) 1).raise (F.headEventCommitOverrun h) (4 * h + 1))) ∧
      (s.cmask a = [] → s.busy = none → s.flag F.tickTstructStatBusy = false →
        exec (.commit a v) s = .next (told ((s.put (bankFld a F.tickCstatOverrun) 0).recordCommit a (v.toNat % 65536) 0 false none none))) ∧
      (mask = [] → s.cmask a ≠ [] → s.busy = none → s.flag F.tickTstructStatBusy = false →
        exec (.commit a v) s = .next (told (((s.put (bankFld a F.tickCstatOverrun) 0).signal 950).recordCommit a (v.toNat % 65536) 0
          false none none))) ∧
      (mask ≠ [] → s.busy = none → s.flag F.tickTstructStatBusy = false →
        Gives (exec (.commit a v) s) fun t => t.commits = s.commits + 1 ∧ t.accepted = s.accepted ∧ t.heads = s.heads ∧
          t.busy = some ((s.put (bankFld a F.tickCstatOverrun) 0).snapshot a (v.toNat % 65536) s.now mask))) ∧
    (s.busy = none → exec .commitValidationDone s = .next s) ∧
    (∀ c, s.busy = some c → (∀ h ∈ c.mask, h < 128) → Gives (exec .commitValidationDone s) fun t =>
      let code := (s.validate s.accepted c).2.code
      t.busy = none ∧ t.heads = s.heads ∧ t.accepted = (if code = 0 then s.accepted ++ [c] else s.accepted) ∧
      t.get (bankFld c.agent F.tickCstatCode) = code % 16 ∧ t.get (bankFld c.agent F.tickCstatSeq) = c.seq % 65536) ∧
    (s.flag F.tickTstructStatBusy = false → exec .structValidationDone s = .next s) ∧
    (∀ x, s.flag F.tickTstructStatBusy = true → s.time.armed = some x → Gives (exec .structValidationDone s) fun t =>
      t.get F.tickTstructStatBusy = 0 ∧
      t.time.armed = (if (s.validateStruct x).2.code = 0 then some { x with valid := true } else none))

/-- GENLOCK_FRAME_REFERENCE, SOURCE_LOST and HOLDOVER_END (R37, R41 to R43): a reference is noted with its distance to the nearest tick,
an ill-formed one counts as missed; a lost source is forgotten and steers no more; a source that was locked leaves the device in HOLDOVER and one being acquired in FREE; holdover ends in FREE. How an ill-formed reference
counts is the model's reading (log entry 31). -/
def Obligations.TimeSourcesComeAndGo : Prop :=
  ∀ s : State,
    (∀ ok, s.get F.tickGlcfgType = 0 → exec (.genlockFrameReference ok) s = .next s) ∧
    (s.get F.tickGlcfgType ≠ 0 → exec (.genlockFrameReference false) s = .next
      { s with time := { s.time with gl := { s.time.gl with missed := s.time.gl.missed + 1, gap := true } } }) ∧
    (s.get F.tickGlcfgType ≠ 0 → Gives (exec (.genlockFrameReference true) s) fun t =>
      t.time.gl.last = some s.now ∧ t.time.gl.missed = 0 ∧ t.get F.tickGlstatPresent = 1 ∧
      t.get F.tickGldiffDiff = unsigned 32 (max (-2147483648) (min 2147483647 (s.nearestTick s.now)))) ∧
    (s.time.ptp.master = none → exec (.sourceLost 1) s = .next s) ∧
    (s.time.ptp.master ≠ none → Gives (exec (.sourceLost 1) s) fun t =>
      t.time.ptp = { PtpClock.init with reqSeq := s.time.ptp.reqSeq, foreign := s.time.ptp.foreign } ∧
      (s.get F.tickTstatActive = 1 → t.get F.tickTstatActive = 3 ∧
        (s.get F.tickTstatState = 2 → t.get F.tickTstatState = 3) ∧ (s.get F.tickTstatState = 1 → t.get F.tickTstatState = 0))) ∧
    (s.time.gl.last = none → exec (.sourceLost 2) s = .next s) ∧
    (s.time.gl.last ≠ none → Gives (exec (.sourceLost 2) s) fun t =>
      t.time.gl = Genlock.init ∧ t.get F.tickGlstatPresent = 0 ∧
      (s.get F.tickTstatActive = 2 → t.get F.tickTstatActive = 3 ∧
        (s.get F.tickTstatState = 2 → t.get F.tickTstatState = 3) ∧ (s.get F.tickTstatState = 1 → t.get F.tickTstatState = 0))) ∧
    (∀ e, s.time.holdEnd = some e → s.get F.tickTstatState = 3 → Gives (exec .holdoverEnd s) fun t =>
      t.get F.tickTstatState = 0 ∧ t.time.holdEnd = none ∧ t.time.devtime = (s.advanceTo e).time.devtime) ∧
    (s.time.holdEnd = none ∨ s.get F.tickTstatState ≠ 3 → exec .holdoverEnd s = .next s)

/-- PTP_MESSAGE and DELAY_REQ_SEND (R44, R312): an Announce of the domain selects a master where there is none once that master has been
heard before, and is noted the first time; a Delay_Req from another node has no effect but the free header values it uses up, a port that
does not carry PTP takes nothing; a Delay_Req that is due goes out and is numbered on. What qualifies a master is taken from the standard
that R44 names (log entry 94). PPS_OUT, PPS_OUT_FALL and PPS_IN (R45): the output rises at the next whole second and falls a millisecond after it; an input
edge is stamped. SHUTSYNC_PULSE_BEGIN and SHUTSYNC_PULSE_END (R54, R55): the output stands
at its active level until its width after the pulse's reference, and then at the inactive level of POL. No output has an edge while no time passes (R63). -/
def Obligations.PtpMessagesAndPulses : Prop :=
  (∀ (s : State) (p : Nat) (m : List Byte),
    let b := m.map BitVec.toNat
    let ours := ptpField b 1 1 % 16 = 2 ∧ ptpField b 4 1 = s.get F.tickPtpcfgDomain
    let id := ptpField b 20 10
    let ann := signed 8 (ptpField b 33 1)
    let heard := s.time.ptp.foreign.any fun f => f.1 == id && f.2.1 == p && s.now ≤ f.2.2 + 4 * pow2ns ann
    (s.ptpPort p = false ∨ s.domOn 78 = false → exec (.ptpMessage p m) s = .next s) ∧
    (s.ptpPort p = true → s.domOn 78 = true → b.getD 0 0 % 16 = 0xB → ours → 64 ≤ m.length → s.time.ptp.master = none →
      announceTakes b = true → Gives (exec (.ptpMessage p m) s) fun t => t.regs = s.regs ∧ t.dram = s.dram ∧
        (heard = true → t.time.ptp.master = some (ptpDataSet b p) ∧ t.time.ptp.port = p ∧ t.time.ptp.lastAnnounce = s.now) ∧
        (heard = false → t.time.ptp = { s.time.ptp with foreign := foreignAfter s.time.ptp.foreign id p s.now ann })) ∧
    (s.ptpPort p = true → s.domOn 78 = true → b.getD 0 0 % 16 = 1 →
      Gives (exec (.ptpMessage p m) s) fun t => t.time = s.time ∧ t.regs = s.regs ∧ t.out = s.out ∧ t.fresh = s.fresh + 42) ∧
    (s.time.ptp.reqDue = none → exec (.delayReqSend p) s = .next s) ∧
    (∀ e, s.time.ptp.reqDue = some e → s.time.ptp.master.isSome = true → s.time.ptp.port = p → s.ptpPort p = true →
      s.portUp p = true → s.sendingOf p = none → Gives (exec (.delayReqSend p) s) fun t =>
        t.time.ptp.reqDue = none ∧ t.time.ptp.reqSeq = (s.time.ptp.reqSeq + 1) % 65536 ∧ t.time.ptp.t3.isSome = true ∧
        (t.sendingOf p).isSome = true)) ∧
  (∀ (s : State) (n : Nat),
    (s.still = true → exec .ppsOut s = .next s ∧ exec .ppsOutFall s = .next s ∧ exec (.shutsyncPulseBegin n) s = .next s ∧
      exec (.shutsyncPulseEnd n) s = .next s) ∧
    (s.still = false → exec .ppsOut s = .next
      (let k := ceilDiv s.now 1000000000 * 1000000000
       let u := s.advanceTo (if s.time.pps = true ∧ k = s.now then k + 1000000000 else k)
       { u with time := { u.time with pps := true } })) ∧
    (s.still = false → s.time.pps = true → exec .ppsOutFall s = .next
      (let u := s.advanceTo (s.now / 1000000000 * 1000000000 + 1000000)
       { u with time := { u.time with pps := false } })) ∧
    (s.time.pps = false → exec .ppsOutFall s = .next s) ∧
    (exec .ppsIn s = .next ((s.wr Reg.tickPpsinLo (BitVec.ofNat 32 s.now)).wr (Reg.tickPpsinLo + 4) (BitVec.ofNat 32 (s.now / 2 ^ 32)))) ∧
    (∀ o x, s.still = false → s.time.shut[n]? = some o → o.ok (tickPeriod s.time.ts.rate) = true → s.nextPulse o = some x →
      Gives (exec (.shutsyncPulseBegin n) s) fun t => t.regs = s.regs ∧
        t.time.devtime = (s.advanceTo x.toNat).time.devtime ∧ ∃ o', t.time.shut[n]? = some o' ∧ o'.began = x ∧
        o'.cfg = o.cfg ∧ o'.level = (if o.activeUntil.isSome then o.level else !o.pol) ∧ o'.activeUntil = some (match o.activeUntil with
          | some u => if x.toNat ≤ u then max u (x + o.width.toNat).toNat else (x + o.width.toNat).toNat
          | none => (x + o.width.toNat).toNat)) ∧
    (∀ o e, s.still = false → s.time.shut[n]? = some o → o.activeUntil = some e → s.nextPulse o = none →
      Gives (exec (.shutsyncPulseEnd n) s) fun t => t.regs = s.regs ∧
        t.time.devtime = (s.advanceTo e).time.devtime ∧ t.time.shut[n]? = some { o with activeUntil := none, level := o.pol })) ∧
  (∀ (s : State) (n : Nat), s.time.shut[n]? = none →
    exec (.shutsyncPulseBegin n) s = .next s ∧ exec (.shutsyncPulseEnd n) s = .next s)

/-! ## Clocks (02) -/

/-- HTB_CFG_WRITE (R57, R61): an INT outside 24 to 40 is ignored, an unchanged value changes nothing, and a changed one is stored and re-times
every head that transmits from the synthesizer. SYNCIN_ARM and SYNCIN_EDGE (R60): an edge is counted, one armed action is used up by one
edge, and the edge resets the dividers that TARGET names, re-timing the heads of a synthesizer, but those of the MDLLs once ticks have begun
are ignored. MDLL_UNLOCK, REF_LOST and HTB_UNLOCK (R62, R65): the status bit falls, and the display goes to Dusk for a clock; all but a lost
synthesizer switch the clocks to the fallback path. MDLL_LOCK, CLOCK_LOCK_REGAINED and RESTORE (R63, R66, R437): the locks of Dawn start
management core 0 at its start address; a regained reference or lock shows in CLK.STATUS; RESTORE ends a clock Dusk once every clock is good,
and before that stores CLK.CTL and leaves the clock Dusk and the fallback path as they are. That Dawn's locks start core 0, and when, is the
model's reading (log entry 15). -/
def Obligations.ClocksAreLostAndRegained : Prop :=
  (∀ (s : State) (a m : Nat) (v : Word), m < 2 →
    (s.writes a (Reg.clkHtbCfg m) → v.toNat % 64 < 24 ∨ 40 < v.toNat % 64 → exec (.htbCfgWrite a m false v) s = .next s) ∧
    (∀ frac, let off := if frac then Reg.clkHtbFrac m else Reg.clkHtbCfg m
      s.writes a off → frac = true ∨ (24 ≤ v.toNat % 64 ∧ v.toNat % 64 ≤ 40) →
      ((s.store off v).rd off = s.rd off → exec (.htbCfgWrite a m frac v) s = .next s) ∧
      ((s.store off v).rd off ≠ s.rd off → Gives (exec (.htbCfgWrite a m frac v) s) fun t =>
        t.rd off = (s.store off v).rd off ∧ t.dram = s.dram ∧
        ∀ h, h < s.part.heads → (s.headOf h).cfg.en = true → (s.headOf h).cfg.synth = m →
          t.get (F.headStatusState h) = 2 ∧ (t.headOf h).retimeEnd = some (s.now + 2 * tickPeriod s.time.ts.rate))) ∧
    (s.writes a Reg.clkSyncin → exec (.syncinArm a v) s = .next
      (if v.getLsbD 0 then (s.store Reg.clkSyncin v).put F.clkSyncinArm 1 else s.store Reg.clkSyncin v)) ∧
    (s.flag F.clkStatusRef100 = false → exec .syncinEdge s = .next s) ∧
    (s.flag F.clkStatusRef100 = true → s.flag F.clkSyncinArm = false →
      exec .syncinEdge s = .next (s.bump F.clkSyncinCount)) ∧
    (s.flag F.clkStatusRef100 = true → s.flag F.clkSyncinArm = true → Gives (exec .syncinEdge s) fun t =>
      t.get F.clkSyncinArm = 0 ∧ t.get F.clkSyncinCount = (s.get F.clkSyncinCount + 1) % 2 ^ F.clkSyncinCount.width ∧
      (∀ n, n < 2 → bit (s.get F.clkSyncinTarget) n = true →
        (∀ h, h < s.part.heads → (s.headOf h).cfg.en = true → (s.headOf h).cfg.synth = n → t.get (F.headStatusState h) = 2) ∧
        (n < s.clk.divReset.length → t.clk.divReset.getD n none = some s.time.uptime)) ∧
      (bit (s.get F.clkSyncinTarget) 2 = true → if s.time.ticked then t.get F.clkSyncinIgnored = 1
        else 2 < s.clk.divReset.length → t.clk.divReset.getD 2 none = some s.time.uptime))) ∧
  (∀ s : State,
    (∀ sys, Gives (exec (.mdllUnlock sys) s) fun t =>
      t.get (if sys then F.clkStatusSmdllLock else F.clkStatusCmdllLock) = 0 ∧ t.get F.clkStatusFallback = 1 ∧
      t.get F.pwrStatusDusk = 1 ∧ t.get F.pwrStatusDuskClk = 1 ∧ t.dram = s.dram) ∧
    (Gives (exec .refLost s) fun t => t.get F.clkStatusRef100 = 0 ∧ t.get F.clkStatusFallback = 1 ∧
      t.get F.pwrStatusDusk = 1 ∧ t.get F.pwrStatusDuskClk = 1 ∧ t.dram = s.dram) ∧
    (∀ m, m < 2 → s.flag (htbLock m) = true → Gives (exec (.htbUnlock m) s) fun t =>
      t.get (htbLock m) = 0 ∧ t.get F.clkStatusFallback = s.get F.clkStatusFallback ∧
      t.get F.pwrStatusDusk = 1 ∧ t.get F.pwrStatusDuskClk = 1) ∧
    (∀ m, s.flag (htbLock m) = false → exec (.htbUnlock m) s = .next s)) ∧
  (∀ (s : State) (a : Nat) (v : Word),
    (s.boot.stage = 0 → s.dawnStill = false → Gives (exec .mdllLock s) fun t => t.get F.clkStatusCmdllLock = 1 ∧ t.get F.clkStatusSmdllLock = 1 ∧
      t.boot.stage = 1 ∧ (t.mgmtOf 0).on = true ∧ (t.mgmtOf 0).pc = s.startAddr 0) ∧
    (s.boot.stage ≠ 0 ∨ s.dawnStill = true → exec .mdllLock s = .next s) ∧
    (Gives (exec (.clockLockRegained 0) s) fun t => t.get F.clkStatusRef100 = 1) ∧
    (Gives (exec (.clockLockRegained 1) s) fun t => t.get F.clkStatusRef400 = 1) ∧
    (exec (.clockLockRegained 2) s = .next (s.put F.clkStatusCmdllLock 1)) ∧
    (exec (.clockLockRegained 3) s = .next (s.put F.clkStatusSmdllLock 1)) ∧
    (∀ m, m < 2 → exec (.clockLockRegained (4 + m)) s =
      .next (if s.flag (F.clkHtbCfgEn m) then s.put (htbLock m) 1 else s)) ∧
    (s.writes a Reg.clkCtl → v.getLsbD 2 = true → s.get F.pwrStatusDuskClk = 1 → s.clocksGood = true →
      Gives (exec (.restore a v) s) fun t => t.get F.clkStatusFallback = 0 ∧ t.get F.clkStatusFbEdge = 0 ∧
        t.get F.pwrStatusDuskClk = 0 ∧ t.clk.dead = false) ∧
    (s.writes a Reg.clkCtl → v.getLsbD 2 = false ∨ s.clocksGood = false → s.flag F.clkStatusFallback = false →
      exec (.restore a v) s = .next (s.store Reg.clkCtl v)) ∧
    (s.writes a Reg.clkCtl → v.getLsbD 2 = false ∨ s.clocksGood = false → s.flag F.clkStatusFallback = true →
      Gives (exec (.restore a v) s) fun t => t.get F.clkStatusFallback = 1 ∧ t.get F.pwrStatusDuskClk = s.get F.pwrStatusDuskClk ∧
        t.rd Reg.clkCtl = (s.store Reg.clkCtl v).rd Reg.clkCtl ∧ t.heads = s.heads))

/-! ## Networks (11) -/

/-- NET_MODE_WRITE, PORT_LINK_CHANGE, FLOW_ENABLE and FLOW_DISABLE (R298, R299, R305, R309): the mode is written only with every port
disabled. A port is up with its FEC locked and its training complete, or no training used (C2M); a change shows in its status and makes
its source pending, a repeated report signals nothing, and a port that is absent or off takes none. Enabling a flow latches its registers
and discards its frames, or sets CFGERR and stays disabled; disabling it discards the frame in progress and writes nothing to memory;
while a layer names it, an enable or a new KIND sets CFGERR alone (what names a flow: log entry 99). -/
def Obligations.PortsAndFlowsAreConfigured : Prop :=
  ∀ (s : State) (a p f : Nat) (v : Word),
    (s.writes a Reg.netCfg → exec (.netModeWrite a v) s =
      .next (if (List.range 8).any fun q => s.flag (F.netPortCfgEn q) then s else s.store Reg.netCfg v)) ∧
    (∀ up fec trained,
      (p < 8 ∧ portExists (s.get F.netCfgMode) p = true ∧ s.domOn (45 + p) = true →
        let done := trained || s.untrained p
        let came := up && fec && done
        Gives (exec (.portLinkChange p up fec trained) s) fun t =>
          t.get (F.netPortStatLink p) = ofBool came ∧ t.get (F.netPortStatFeclock p) = ofBool fec ∧
          t.get (F.netPortStatTrained p) = ofBool done ∧ t.net = s.net ∧ t.dram = s.dram ∧
          (s.flag (F.netPortStatLink p) = came → t.icu = s.icu ∧ t.out = s.out) ∧
          (s.flag (F.netPortStatLink p) = !came → t.get ⟨Reg.icuPending ((733 + p) / 32), (733 + p) % 32, 1⟩ = 1)) ∧
      (8 ≤ p ∨ portExists (s.get F.netCfgMode) p = false ∨ s.domOn (45 + p) = false →
        exec (.portLinkChange p up fec trained) s = .next s)) ∧
    (f < 256 → s.writes a (Reg.netFlowCtl f) →
      let x := s.flowOf f
      let was := s.flag (F.netFlowCtlEn f)
      let on := v.getLsbD 0
      let kind := field v.toNat 1 2
      let held := s.flowNamed f && ((on && !was) || kind != s.get (F.netFlowCtlKind f))
      let nslot := if wf (s.rd (Reg.netFlowFmt f)) 4 4 = 0 then 16 else wf (s.rd (Reg.netFlowFmt f)) 4 4
      let y : FlowSt := ⟨x.tc, x.tp, x.at0, x.rates, kind, s.rd (Reg.netFlowFmt f), s.rd (Reg.netFlowGeom f),
        s.get (F.netFlowPitchBytes f), s.get (F.netFlowStrideBytes f), s.rd64 (Reg.netFlowBaseLo f), nslot - 1, none, [], none, false⟩
      ∀ c ∈ [Instr.flowEnable a f v, Instr.flowDisable a f v], Gives (exec c s) fun t => t.dram = s.dram ∧ t.out = s.out ∧
        (held = true → t.net = s.net ∧ t.get (F.netFlowStatCfgerr f) = 1 ∧ t.rd (Reg.netFlowCtl f) = s.rd (Reg.netFlowCtl f)) ∧
        (held = false → on = true → was = false →
          (s.flowOk a f kind y = true → t.flowOf f = y ∧ t.get (F.netFlowStatOpen f) = 0 ∧ t.get (F.netFlowWofsOfs f) = 0 ∧
            t.rd (Reg.netFlowCtl f) = (s.store (Reg.netFlowCtl f) v).rd (Reg.netFlowCtl f) ∧
            (Tbl.get (fun _ => Producer.init) t.producers f).newest = none) ∧
          (s.flowOk a f kind y = false → t.get (F.netFlowStatCfgerr f) = 1 ∧ t.get (F.netFlowCtlEn f) = 0 ∧ t.net = s.net)) ∧
        (held = false → on = false → was = true → (t.flowOf f).frame = none ∧ (t.flowOf f).au = none ∧
          t.get (F.netFlowStatOpen f) = 0 ∧ t.rd (Reg.netFlowCtl f) = (s.store (Reg.netFlowCtl f) v).rd (Reg.netFlowCtl f)))

/-- EGRESS_FRAME_START, EGRESS_FRAME_END, SHAPER_RATE_WRITE, CLRDEBT and TXS_SEND (R312 to R318): an idle port that moves frames, with no
Delay_Req due, first takes the pixel packets whose samples are complete (R319), then starts the head frame of its lowest-numbered eligible class and sends it whole, its class's credit settled; in any other
case nothing starts. A rate write settles the credit first; CLRDEBT clears a debt. The access unit that TXS_SEND takes leaves its
queue, and its ring unless EN is 0 (R349); one that is sent joins its class and advances the context's sequence number by its packets, one that finds no room
sends nothing and raises TXS_DROP. -/
def Obligations.EgressSendsShapedFrames : Prop :=
  ∀ (s : State) (a p n : Nat) (v : Word),
    let u := s.pixTake
    let ready := u.portUp p && (u.sendingOf p).isNone && u.domOn 78 && u.queuesFit && !u.reqWaits p
    (s.net.pixDue = [] → u = s) ∧
    (ready = true → u.eligible p = some n → Gives (exec (.egressFrameStart p) s) fun t => ∃ f q, (u.classOf n).fifo = f :: q ∧
        t.sendingOf p = some ⟨n, f, s.now + s.get (F.netPortCfgTxlat p),
          s.time.uptime + ceilDiv ((f.len + 20) * 8000) (portRate (s.get F.netCfgMode) p)⟩ ∧
        t.classOf n = ⟨q, u.creditNow n, s.time.uptime⟩ ∧ (∀ m, m ≠ n → t.classOf m = u.classOf m) ∧
        t.out = s.out ∧ t.dram = s.dram) ∧
    (ready = false ∨ u.eligible p = none → exec (.egressFrameStart p) s = .next u) ∧
    (∀ x, s.sendingOf p = some x → Gives (exec (.egressFrameEnd p) s) fun t =>
      t.sendingOf p = none ∧ t.time.uptime = (if s.still then s.time.uptime else max s.time.uptime x.stop) ∧ ∃ l, t.out = s.out ++ .eth p x.frame.bytes :: l) ∧
    (s.sendingOf p = none → exec (.egressFrameEnd p) s = .next s) ∧
    (n < 32 → s.writes a (Reg.tspShaperRate n) → Gives (exec (.shaperRateWrite a n v) s) fun t =>
      t.rd (Reg.tspShaperRate n) = (s.store (Reg.tspShaperRate n) v).rd (Reg.tspShaperRate n) ∧
      t.classOf n = ⟨(s.classOf n).fifo, s.creditNow n, s.time.uptime⟩ ∧ t.dram = s.dram ∧ t.out = s.out) ∧
    (n < 32 → s.writes a (Reg.tspShaperClrdebt n) → Gives (exec (.clrdebt a n v) s) fun t =>
      t.classOf n = ⟨(s.classOf n).fifo, if v.getLsbD 0 && s.creditNow n < 0 then 0 else s.creditNow n, s.time.uptime⟩ ∧
      t.dram = s.dram ∧ t.out = s.out) ∧
    ((s.net.txq.find? fun e => e.1 == n) = none → exec (.txsSend n) s = .next s) ∧
    (∀ e, (s.net.txq.find? fun e => e.1 == n) = some e → Gives (exec (.txsSend n) s) fun t =>
      t.net.txq = s.net.txq.erase e ∧ t.dram = s.dram ∧ (n < 32 →
      (s.flag (F.tspTxsEn n) = true → let ring := wf ((Tbl.get (fun _ => CdcCtx.init) s.cdc.ctxs n).eff.getD 14 0) 0 32
       t.get (F.cdcCtxRdofsBytes n) = (s.get (F.cdcCtxRdofsBytes n) + ceilDiv (32 + e.2.2.length) 64 * 64) % max 1 ring % 2 ^ 32) ∧
      (s.flag (F.tspTxsEn n) = false → t.net.rtpSeq = s.net.rtpSeq ∧ t.net.classes = s.net.classes ∧ t.regs = s.regs) ∧
      (s.flag (F.tspTxsEn n) = true → s.templateOk (s.get (F.tspTxsTmpl n)) = true →
        let k := s.get (F.tspTxsClass n)
        let ps := (nalUnits e.2.2).flatMap (nalPackets (s.get (F.tspTxsMaxpay n)))
        let q := Tbl.get (fun _ => 0) s.net.rtpSeq n
        let fs := rtpFrames (s.template (s.get (F.tspTxsTmpl n))) (e.2.1 * 9 / 100000 % 2 ^ 32) q ps
        let need := (fs.map fun f => (⟨f.1 ++ f.2, none, false, false⟩ : TxFrame).len).sum
        (need ≤ s.classRoom k → Tbl.get (fun _ => 0) t.net.rtpSeq n = (q + ps.length) % 65536 ∧
          (t.classOf k).fifo.length = (s.classOf k).fifo.length + ps.length) ∧
        (s.classRoom k < need → t.net.rtpSeq = s.net.rtpSeq ∧ t.net.classes = s.net.classes ∧ t.get F.tspEvstatTxsDrop = 1))))

/-- ETH_FRAME_RECEIVE and VIDEO_FRAME_TIMEOUT (R300, R301, R307, R455): a port that moves no frames takes none; a frame that fails the
checks is dropped and counted, and a pause frame is counted. With no fault injected, a PTP or pose datagram, and a datagram that a flow's
match fields accept and that metering and the ingest buffer pass, goes to its engine; one that nothing claims goes to the firmware ring
or is dropped and counted. An injected drop removes the frame, an injected reorder holds it. A video frame in progress whose timeout
passes is closed with loss: discarded under LOSSPOL, else written as the flow's newest frame; with no frame in progress nothing happens.
What the frames' bytes mean is read as log entries 96 and 97 say, and of frames of one stamp the later in port order has the later stamp
(log entry 93). -/
def Obligations.FramesAreIngested : Prop :=
  ∀ (s : State) (p f : Nat) (fr : List Byte) (ok : Bool),
    let b := fr.map BitVec.toNat
    let x := parseFrame b ok
    let got := exec (.ethFrameReceive p fr ok) s
    let moves := s.portUp p = true ∧ s.domOn 78 = true ∧ s.takesWork = true
    let a := s.poseTurn p
    let plain := a.injecting (16 + p) = false ∧ (a.finj.held.find? fun h => h.1 == 16 + p) = none
    let unclaimed :=
      if a.flag F.netFwrxctlAll then
        let r := a.ingest (b.length + 4) 0
        if r.2 then r.1.fwrx p none a.now b else r.1
      else a.bump (F.netPortDropCount p)
    (¬ moves → got = .next s) ∧
    (moves → x = .bad → got = .next (s.bump (F.netPortFcserrCount p))) ∧
    (moves → x = .pause → got = .next (s.bump (F.netPortPauseCount p))) ∧
    (moves → plain → (x = .other → got = .next unclaimed) ∧
      ∀ u, x = .udp u →
        if (u.dport = 319 ∨ u.dport = 320) ∧ a.ptpPort p = true then
          got = .next (a.ptpTake p u.payload (a.now - a.get (F.netPortCfgRxlat p)) b)
        else if a.isPose p u.dport = true then
          let m := match a.flowFor p u true with | some g => a.meter g (b.length + 4) u.dscp | none => (a, 0)
          let r := m.1.ingest (b.length + 4) m.2
          got = .next (if r.2 then effPoseDatagram p u.src u.dport u.payload r.1 else r.1)
        else match a.flowFor p u false with
          | none => got = .next unclaimed
          | some g =>
            let m := a.meter g (b.length + 4) u.dscp
            let r := m.1.ingest (b.length + 4) m.2
            got = .next (if r.2 = false then r.1
              else if (a.flowOf g).kind = 0 then r.1.videoPacket g a.now u.payload
              else if (a.flowOf g).kind = 1 then r.1.hevcPacket g a.now u.payload
              else r.1.fwrx p (some g) a.now b)) ∧
    (∀ k w, moves → x ≠ .bad → x ≠ .pause → (a.inject (16 + p)).2 = some (k, w) →
      (k = 0 → got = .next (a.inject (16 + p)).1) ∧
      (k = 3 → Gives got fun t => ∃ at0, t.finj.held.getLast? = some (16 + p, at0, .ethFrameReceive p fr true))) ∧
    ((s.flowOf f).frame = none → exec (.videoFrameTimeout f) s = .next s) ∧
    (∀ o, (s.flowOf f).frame = some o → Gives (exec (.videoFrameTimeout f) s) fun t =>
      (t.flowOf f).frame = none ∧ (t.flowOf f).closed = laterThan o.ts (s.flowOf f).closed ∧
      t.time.uptime = (if s.still then s.time.uptime else max s.time.uptime (o.last + (s.flowOf f).tmo * 1000)) ∧
      (o.slot = none → t.dram = s.dram ∧ t.producers = s.producers) ∧
      (∀ k, o.slot = some k → f < 256 → t.get F.netEvstatFlowLoss = 1 ∧ t.get F.netEvstatFlow = f ∧
        (s.flag (F.netFlowCtlLosspol f) = true → t.dram = s.dram ∧ t.producers = s.producers) ∧
        (s.flag (F.netFlowCtlLosspol f) = false →
          t.get (F.netFlowStatLastslot f) = k % 2 ^ (F.netFlowStatLastslot f).width ∧
          (Tbl.get (fun _ => Producer.init) t.producers f).newest.map (·.slot) = some k)))

/-! ## Pose (07) -/

/-- POSE_DATAGRAM (R205, R207, R211): a datagram that is no pose datagram has no effect. A payload whose length is no record count from
1 to 16 counts its whole units as malformed against source 0. A record for no source, or from a wrong address, or malformed, is counted
and reported; one of a source that is not enabled has no effect. A record with a fresh sequence number, or with RESTART, or for a source without
one sets SEQ, VALID, COUNT, STAMP and LAST and, on a device that is no standby, heads the source's history; another is counted as out
of sequence, and the 17th such in a row is accepted. The stamp is the arrival's; of two arrivals in one nanosecond the later in R210's
order comes second (log entry 146). -/
def Obligations.PoseRecordsAreAccepted : Prop :=
  ∀ (s : State) (p ip dport : Nat) (m : List Byte),
    let r := m.map BitVec.toNat
    let src := r.getD 0 0
    let u := s.poseTurn p
    let got := exec (.poseDatagram p ip dport m) s
    let mine := dport = s.get F.poseNetcfgUdpport ∧ bit (s.get F.poseNetcfgPorts) p = true ∧
      portExists (s.get F.netCfgMode) p = true ∧ s.domOn 77 = true
    let malformed (k : Nat) (v : State) : State :=
      ((v.bump (F.poseSrcBadMalf k)).put F.poseStatSource k).raise F.poseStatPoseMalformed 841
    (¬ mine → got = .next s) ∧
    (mine → s.flag F.poseCtlEn = false → got = .next u) ∧
    (mine → s.flag F.poseCtlEn = true →
      (m.length % 64 ≠ 0 ∨ m.length = 0 ∨ 1024 < m.length →
        got = .next ((List.range (m.length / 64)).foldl (fun v _ => malformed 0 v) u)) ∧
      (m.length % 64 = 0 → 0 < m.length → m.length ≤ 1024 →
        got = .next ((units64 r).foldl (fun v q => v.poseNetRecord ip u.now q) u)) ∧
      (m.length = 64 →
        let d := (recSeq r + 65536 - s.get (F.poseSrcStatSeq src)) % 65536
        let accepted (t : State) : Prop :=
          t.get (F.poseSrcStatSeq src) = recSeq r ∧ t.get (F.poseSrcStatValid src) = 1 ∧
          t.get (F.poseSrcCountAccept src) = (s.get (F.poseSrcCountAccept src) + 1) % 2 ^ (F.poseSrcCountAccept src).width ∧
          t.rd64 (Reg.poseSrcStampLo src) = u.now ∧ (∀ k < 16, (t.rd (Reg.poseSrcLast src k)).toNat = recField r (4 * k) 4) ∧
          (s.standby = false → (t.poseSrc src).recs.head? = some ⟨r, u.now, s.pose.count + 1⟩) ∧ t.dram = s.dram
        if 63 < src then got = .next (malformed 0 u)
        else if s.flag (F.poseSrcCfgEn src) = false then got = .next u
        else if (s.flag (F.poseSrcCfgIpf src) = true ∧ s.get (F.poseSrcIpaddrAddr src) ≠ ip) ∨ recMalformed r = true then
          got = .next (malformed src u)
        else if s.flag (F.poseSrcStatValid src) = false ∨ bit (r.getD 1 0) 0 = true ∨ (1 ≤ d ∧ d ≤ 0x7FFF) then Gives got accepted
        else if (s.poseSrc src).oosRun = 16 then Gives got fun t => accepted t ∧ t.get F.poseStatPoseSeq = 1 ∧
          t.get (F.poseSrcBadResync src) = (s.get (F.poseSrcBadResync src) + 1) % 2 ^ (F.poseSrcBadResync src).width
        else Gives got fun t => t.get F.poseStatPoseSeq = 1 ∧ t.get (F.poseSrcStatSeq src) = s.get (F.poseSrcStatSeq src) ∧
          t.get (F.poseSrcCountOos src) = (s.get (F.poseSrcCountOos src) + 1) % 2 ^ (F.poseSrcCountOos src).width ∧
          (t.poseSrc src).recs = (s.poseSrc src).recs ∧ (t.poseSrc src).oosRun = (s.poseSrc src).oosRun + 1 ∧ t.dram = s.dram))

/-- SERIAL_POSE_FRAME, SERIAL_CHAR_TIMEOUT and SERIAL_POLL (R208, R209, R475): a port that is off receives nothing and polls nothing. Each
bit of a received character is what two of its three centre samples say, and characters are taken one by one: the hunt discards and counts bytes until 0xA5 0x5A, the frame's characters are kept, and its 64th
completes a record of source 64 + n. A low stop bit inside a frame, or a pause of 16 bit-times after its last character, discards what came
and counts an error, also when the characters that follow show the pause; a low stop bit while hunting discards its byte (log entry 72). A port with POLL sends 0xA5 0xC3 at its next poll instant (log
entry 147). POSE_SOURCE_ENABLE (R206): CFG is written, and a source whose EN goes from 0 to 1 begins anew. -/
def Obligations.SerialPortsAndSources : Prop :=
  (∀ (s : State) (n : Nat) (c : Byte) (m : List Byte),
    let rx (t : State) : List Nat := Tbl.get (fun _ => []) t.pose.partRx n
    let loss (k : Nat) (t : State) : Prop :=
      t.get (F.poseSerStatSyncloss n) = (s.get (F.poseSerStatSyncloss n) + k) % 2 ^ (F.poseSerStatSyncloss n).width
    let errs (t : State) : Prop :=
      t.get (F.poseSerStatFramerr n) = (s.get (F.poseSerStatFramerr n) + 1) % 2 ^ (F.poseSerStatFramerr n).width
    let same (t : State) : Prop := t.icu = s.icu ∧ t.time = s.time ∧ ∀ i, t.poseSrc i = s.poseSrc i
    let late (k : Nat) : Prop := rx s ≠ [] ∧ s.serDue n + 10 * s.serBit n * k < s.time.uptime
    let done (t : State) : State := { t with
      pose := { t.pose with serAt := Tbl.set (fun _ => 0) t.pose.serAt n t.time.uptime }, pending := s.pending, part := s.part }
    (s.serOn n = false → (∀ l b, exec (.serialPoseFrame n l m b) s = .next s) ∧ exec (.serialCharTimeout n) s = .next s ∧
      exec (.serialPoll n) s = .next s) ∧
    (s.serOn n = true →
      (∀ (x : LineChar) (i : Nat), (decidedBits x).getLsbD i =
        (x.first.getLsbD i && x.mid.getLsbD i || x.mid.getLsbD i && x.last.getLsbD i || x.first.getLsbD i && x.last.getLsbD i)) ∧
      (∀ x : LineChar, exec (.serialPoseFrame n [x] [] false) s =
        exec (.serialPoseFrame n [] [(decidedBits x).setWidth 8] (!(decidedBits x).getLsbD 8)) s) ∧
      (∀ x l b t, ¬ late 1 → exec (.serialPoseFrame n [x] [] false) s = .next t →
        exec (.serialPoseFrame n (x :: l) m b) s = exec (.serialPoseFrame n l m b) t) ∧
      (∀ b, exec (.serialPoseFrame n [] [] b) s = .next s) ∧
      (late m.length → m ≠ [] → ∀ b, exec (.serialPoseFrame n [] m b) s = exec (.serialPoseFrame n [] m b) (s.serialLost n)) ∧
      (∀ t b, ¬ late 1 → m ≠ [] ∨ b = false → exec (.serialPoseFrame n [] [c] false) s = .next t →
        exec (.serialPoseFrame n [] (c :: m) b) s = exec (.serialPoseFrame n [] m b) t) ∧
      (rx s = [] → Gives (exec (.serialPoseFrame n [] [c] false) s) fun t => same t ∧
        if c = 0xA5 then rx t = [0xA5] ∧ loss 0 t else rx t = [] ∧ loss 1 t) ∧
      (¬ late 1 → (rx s).length = 1 → Gives (exec (.serialPoseFrame n [] [c] false) s) fun t => same t ∧
        if c = 0x5A then rx t = [0xA5, 0x5A] ∧ loss 0 t else if c = 0xA5 then rx t = [0xA5] ∧ loss 1 t else rx t = [] ∧ loss 2 t) ∧
      (¬ late 1 → 2 ≤ (rx s).length → (rx s).length < 65 → Gives (exec (.serialPoseFrame n [] [c] false) s) fun t =>
        same t ∧ rx t = rx s ++ [c.toNat] ∧ loss 0 t) ∧
      (¬ late 1 → (rx s).length = 65 →
        let u := ((s.bump (F.poseSerStatSyncloss n) 0).setSerPart n []).poseTurn (8 + n)
        let r := (rx s).drop 2 ++ [c.toNat]
        Gives (exec (.serialPoseFrame n [] [c] false) s) fun t => rx t = [] ∧
          t = done (u.serialFrame n r) ∧
          (s.injecting (28 + n) = false → (s.finj.held.find? fun h => h.1 == 28 + n) = none →
            loss 0 t ∧ t = done (u.poseRecord (64 + n) r u.now))) ∧
      (rx s = [] → Gives (exec (.serialPoseFrame n [] [c] true) s) fun t => rx t = [] ∧ loss 1 t ∧ same t) ∧
      (rx s ≠ [] → Gives (exec (.serialPoseFrame n [] [c] true) s) fun t => rx t = [] ∧ errs t ∧ ∀ i, t.poseSrc i = s.poseSrc i) ∧
      (rx s = [] → exec (.serialCharTimeout n) s = .next s) ∧
      (rx s ≠ [] → Gives (exec (.serialCharTimeout n) s) fun t => rx t = [] ∧ errs t ∧
        t.time.devtime = (s.elapse (s.serDue n - s.time.uptime)).time.devtime ∧ ∀ i, t.poseSrc i = s.poseSrc i) ∧
      (s.flag (F.poseSerCfgPoll n) = true → Gives (exec (.serialPoll n) s) fun t =>
        t.out = s.out ++ [.serial n [0xA5, 0xC3]] ∧ t.dram = s.dram ∧
        t.time.uptime = (if s.still then s.time.uptime
          else max s.time.uptime ((s.serPoll n).1 + 1000 * max 1 (s.get (F.poseSerCfgPolliv n)))) ∧ (t.serPoll n).1 = t.time.uptime) ∧
      (s.flag (F.poseSerCfgPoll n) = false → exec (.serialPoll n) s = .next s))) ∧
  (∀ (s : State) (a i : Nat) (v : Word), i < 72 → s.writes a (Reg.poseSrcCfg i) →
    let u := s.store (Reg.poseSrcCfg i) v
    (s.flag (F.poseSrcCfgEn i) = false → u.flag (F.poseSrcCfgEn i) = true →
      Gives (exec (.poseSourceEnable a i v) s) fun t => t.poseSrc i = PoseSrc.init ∧ t.get (F.poseSrcStatValid i) = 0 ∧
        t.get (F.poseSrcStatSeq i) = 0 ∧ t.rd (Reg.poseSrcCfg i) = u.rd (Reg.poseSrcCfg i) ∧
        (∀ j, j ≠ i → t.poseSrc j = s.poseSrc j)) ∧
    (s.flag (F.poseSrcCfgEn i) = true ∨ u.flag (F.poseSrcCfgEn i) = false → exec (.poseSourceEnable a i v) s = .next u))

/-! ## The blitter (08) -/

/-- BLT_DESCRIPTOR_START (R222, R231, R234): nothing while the blitter is not ready; the descriptor at HEADIDX is read from local memory
and taken when its checks pass, and otherwise halts the blitter with the error's code; one in host memory is asked for, and taken when it
comes (log entry 74). BLT_ROW_COMPLETE, BLT_DESCRIPTOR_COMPLETE, BLT_RESUME, BLT_SKIP and BLT_RESET
(R222, R232, R233, R235, R236): a written row whose writes are visible counts; a descriptor whose rows are all complete leaves the ring
with its event, or halts the blitter where its fence is refused; RESUME and SKIP end a halt, SKIP past the descriptor, and RESET empties
the ring. -/
def Obligations.BlitterDescriptorsStartAndEnd : Prop :=
  (∀ s : State,
    let space := s.get F.bltCtlRingmem
    let a := s.rd64 Reg.bltRingLo + 64 * s.get F.bltHeadidxIndex
    let d := s.dramRead a 64
    let refused := s.bltAccess false space a 64
    (s.bltReady = false → exec .bltDescriptorStart s = .next s) ∧
    (s.bltReady = true → Gives (exec .bltDescriptorStart s) fun t => t.dram = s.dram ∧
      (∀ e, refused = some e → t.blt.desc = none ∧ t.get F.bltStatusHalted = 1 ∧ t.get F.bltStatusErrcode = e ∧
        t.rd64 Reg.bltErraddrLo = a % 2 ^ 64 ∧ t.get F.bltEventBltError = 1) ∧
      (refused = none → space = 0 →
        (bltCheck d = 0 → t.blt.desc = some d ∧ t.blt.running = false ∧ t.blt.fired = false ∧ t.get F.bltStatusBusy = 1 ∧
          t.get F.bltStatusDir = ofBool (bltDown d) ∧ t.get F.bltRowsRows = 0 ∧ t.get F.bltWatermarkRows = bltF d 8 16 16 ∧
          t.get F.bltHeadidxIndex = s.get F.bltHeadidxIndex) ∧
        (bltCheck d ≠ 0 → t.blt.desc = none ∧ t.get F.bltStatusBusy = 0 ∧ t.get F.bltStatusHalted = 1 ∧
          t.get F.bltStatusErrcode = bltCheck d ∧ t.get F.bltEventBltError = 1)) ∧
      (refused = none → space ≠ 0 → t.blt = s.blt ∧ t.regs = s.regs ∧
        t = { s.bltAsk [a / 64] with pending := s.pending, part := s.part }))) ∧
  (∀ (s : State) (a : Nat) (v : Word) (d : List Nat),
    (s.blt.desc = none → exec .bltRowComplete s = .next s ∧ exec .bltDescriptorComplete s = .next s) ∧
    (s.blt.written = true → s.writing .blitter = true → exec .bltRowComplete s = .next s) ∧
    (s.blt.desc = some d → s.blt.written = false → s.blt.running = false ∨ bltHeight d ≤ s.get F.bltRowsRows ∨ s.domOn 71 = false ∨
      bltDstMem d = 1 → exec .bltRowComplete s = .next s) ∧
    (s.blt.desc = some d → s.blt.written = true → s.writing .blitter = false → Gives (exec .bltRowComplete s) fun t =>
      let rows := (s.get F.bltRowsRows + 1) % 2 ^ F.bltRowsRows.width
      let w := s.get F.bltWatermarkRows
      t.get F.bltRowsRows = rows ∧
      (s.blt.fired = true ∨ w = 0 ∨ rows < w → t = { (({ s with blt := { s.blt with written := false } }).bump F.bltRowsRows).bltHand d with
        pending := s.pending, part := s.part }) ∧
      (s.blt.fired = false → w ≠ 0 → w ≤ rows → bltF d 0 5 1 = 0 ∨ s.mayAccess s.blt.agent true (Reg.layerFence (bltF d 0x2C 0 10)) = true →
        t.get F.bltEventBltWatermark = 1)) ∧
    (s.blt.desc = some d → s.get F.bltRowsRows < bltHeight d → exec .bltDescriptorComplete s = .next s) ∧
    (s.blt.desc = some d → bltHeight d ≤ s.get F.bltRowsRows →
      let fence := Reg.layerFence (bltF d 0x30 0 10)
      (bltF d 0 6 1 = 0 ∨ s.mayAccess s.blt.agent true fence = true →
        Gives (exec .bltDescriptorComplete s) fun t => t.blt.desc = none ∧ t.get F.bltStatusBusy = 0 ∧
          t.get F.bltHeadidxIndex = (s.get F.bltHeadidxIndex + 1) % s.bltRing ∧
          (bltF d 0 7 1 = 1 → t.get F.bltEventBltDone = 1) ∧
          (t.get F.bltHeadidxIndex = s.get F.bltTailidxIndex → t.get F.bltEventBltIdle = 1) ∧
          (bltF d 0 6 1 = 0 → t.dram = s.dram)) ∧
      (bltF d 0 6 1 = 1 → s.mayAccess s.blt.agent true fence = false →
        Gives (exec .bltDescriptorComplete s) fun t => t.blt.desc = none ∧ t.get F.bltStatusHalted = 1 ∧
          t.get F.bltStatusErrcode = 5 ∧ t.rd64 Reg.bltErraddrLo = fence ∧
          t.get F.bltHeadidxIndex = s.get F.bltHeadidxIndex ∧ t.dram = s.dram)) ∧
    (s.writes a Reg.bltCtl → ∀ c ∈ [Instr.bltResume a v, .bltSkip a v, .bltReset a v], Gives (exec c s) fun t =>
      t.dram = s.dram ∧ t.get F.bltCtlEn = (s.store Reg.bltCtl v).get F.bltCtlEn ∧
      t.get F.bltCtlRingmem = (s.store Reg.bltCtl v).get F.bltCtlRingmem ∧
      t.get F.bltCtlRingsz = (if s.get F.bltHeadidxIndex = s.get F.bltTailidxIndex then (s.store Reg.bltCtl v).get F.bltCtlRingsz
        else s.get F.bltCtlRingsz) ∧
      (v.getLsbD 3 = true → t.blt.desc = none ∧ t.get F.bltStatusHalted = 0 ∧ t.get F.bltStatusErrcode = 0 ∧
        t.get F.bltStatusBusy = 0 ∧ t.get F.bltRowsRows = 0 ∧ t.get F.bltHeadidxIndex = s.get F.bltTailidxIndex) ∧
      (v.getLsbD 3 = false → s.flag F.bltStatusHalted = true → t.blt = s.blt ∧
        (v.getLsbD 2 = true ∨ v.getLsbD 1 = true → t.get F.bltStatusHalted = 0 ∧ t.get F.bltStatusErrcode = 0) ∧
        t.get F.bltHeadidxIndex = (if v.getLsbD 2 then (s.get F.bltHeadidxIndex + 1) % t.bltRing else s.get F.bltHeadidxIndex)) ∧
      (v.getLsbD 3 = false → s.flag F.bltStatusHalted = false → t.blt = s.blt ∧ t.icu = s.icu ∧
        t.get F.bltHeadidxIndex = s.get F.bltHeadidxIndex)))

/-- BLT_COPY, BLT_FILL, BLT_CONVERT and BLT_BLEND (R225 to R228, R230, R234, R235): the operation of the descriptor in progress takes its
first row in hand, the last one where it runs descending: host data that has not come is asked for, a refused read halts the blitter. A
row whose data is there is read from local memory, written, and its clamped channels counted: one with a host destination by the
operation, one of local memory by ROW_COMPLETE, which makes it visible and counts it (R232); a refused or failing access halts the
blitter. A row inside one granule of local memory is stated whole. Another operation, or one that has begun, changes nothing. -/
def Obligations.BlitterOperationsWriteTheirRows : Prop :=
  (∀ s : State, s.blt.desc = none → ∀ c ∈ [Instr.bltCopy, .bltFill, .bltConvert, .bltBlend], exec c s = .next s) ∧
  ∀ (s : State) (d : List Nat), s.blt.desc = some d →
    let k := s.get F.bltRowsRows
    let r := if bltDown d then bltHeight d - 1 - k else k
    let a := bltDaddr d + r * bltDpitch d
    let gs := s.bltMissing d r
    let halted (e : Nat × Nat) (t : State) : Prop := t.blt.desc = none ∧ t.get F.bltStatusHalted = 1 ∧
      t.get F.bltStatusErrcode = min e.1 6 ∧ t.rd64 Reg.bltErraddrLo = e.2 % 2 ^ 64
    let doneRow (u t : State) (n : Nat) : Prop :=
      let row := (u.bltView d).bltRow d r
      let read := ((bltReads d r).filter fun x => x.1 == 0).foldl (fun v x => v.useLocal 31 x.2.1 x.2.2) u
      let w := read.bltWriteRow d r row.1
      (∀ e, u.bltReadError 0 (fun _ => false) d r = some e → halted e t ∧ t.dram = s.dram ∧ t.get F.bltRowsRows = k) ∧
      (u.bltReadError 0 (fun _ => false) d r = none →
        t.get F.bltClampcntCount = satAt (2 ^ F.bltClampcntCount.width - 1) (s.get F.bltClampcntCount + row.2) ∧
        t.dram = w.1.dram ∧
        (w.2 = none → t.get F.bltRowsRows = (k + n) % 2 ^ F.bltRowsRows.width) ∧
        (∀ e, w.2 = some e → halted e t ∧ t.get F.bltRowsRows = k) ∧
        (bltDstMem d = 0 → row.1 ≠ [] → a % 64 + row.1.length ≤ 64 → read.bltAccess true 0 a row.1.length = none →
          t.dram = (read.localStore 31 a row.1).dram ∧ t.get F.bltRowsRows = (k + n) % 2 ^ F.bltRowsRows.width))
    let op (n : Nat) (c : Instr) : Prop :=
      (s.blt.running = true ∨ s.domOn 71 = false ∨ bltOp d ≠ n → exec c s = .next s) ∧
      (bltOp d = n → s.blt.running = false → s.domOn 71 = true → s.blt.written = false → k < bltHeight d →
        let u := { s with blt := { s.blt with running := true } }
        let made (g : Nat) : Bool :=
          !gs.contains g || s.cxlAsked ⟨0, 0, .blitter, false, 0, 0, 0, (s.blt.gen, 0, 0, 0), false, 0, 0⟩ g
        (gs ≠ [] → Gives (exec c s) fun t => t.dram = s.dram ∧ t.get F.bltRowsRows = k ∧
          (∀ e, s.bltReadError 1 made d r = some e → halted e t) ∧ (s.bltReadError 1 made d r = none → t.blt = u.blt)) ∧
        (gs = [] → bltDstMem d = 0 → exec c s = .next u) ∧
        (gs = [] → bltDstMem d = 1 → Gives (exec c s) fun t => doneRow u t 0 ∧
          (t.blt.desc ≠ none → t.blt.desc = some d ∧ t.blt.written = true)))
    op 0 .bltCopy ∧ op 1 .bltFill ∧ op 2 .bltConvert ∧ op 3 .bltBlend ∧
    (s.blt.running = true → s.blt.written = false → s.domOn 71 = true → k < bltHeight d → gs = [] → bltDstMem d = 0 →
      s.writing .blitter = false → Gives (exec .bltRowComplete s) fun t => doneRow s t 1)

/-! ## Local memory (09) -/

/-- DRAM_READ_REQUEST and DRAM_WRITE_REQUEST (R17, R242, R244, R247, R248, R265): a read of a dead granule is answered with poison, or not
at all for a real-time port of a frozen controller; reads that wait at the region's crossbar and whose slots have ended come first; a
read from the region's own sector then enters its bank's queue with memory's bytes, or is answered by a queued write of the whole granule,
or stalls while the bank's queue is full; any other waits at the region's crossbar. A write changes the bytes it names and no other
byte, one that finds its channel's queue full waits; a dead granule and a real-time port write nothing. DRAM_SCHEDULE (R245, R246, R253):
a channel that is off, frozen, in self-refresh or stopped by a change of set point serves nothing; one with one waiting read, or one
waiting write, serves it; one in a forced burst issues a refresh. An access comes to its queue in the step that makes it (log entry 79). -/
def Obligations.MemoryRequestsAreServed : Prop :=
  (∀ (s : State) (req addr : Nat) (data : List Byte),
    let a := addr / 64 * 64
    let n := s.channelOf a
    let v := s.xbarSettle (s.regionOf a)
    let c := v.chanOf n
    let got := exec (.dramReadRequest req addr 1) s
    let own := s.part.sectors = 1 ∨ portSector req = some (s.regionOf a)
    (s.frozen = true → realTime req = true → ∀ k, exec (.dramReadRequest req addr k) s = .next s) ∧
    (s.localDead a 64 = true → (s.frozen && realTime req) = false →
      got = .next (s.reply req a (List.replicate 64 0) true)) ∧
    ((s.xbarOf (s.regionOf a)).waiting = [] → v = s) ∧
    (s.localDead a 64 = false → own →
      let covered := c.queue.any fun w => w.addr == a && w.mask == 2 ^ 64 - 1
      let bank := (s.bankRow a).1
      let room := c.hasRoom bank && c.reads.all fun x => !x.data.isEmpty || x.bank != bank
      let joins (t : State) (data : List Nat) : Prop := t.dmc.reply = v.dmc.reply ∧ t.dmc.seq = v.dmc.seq + 1 ∧
        (t.chanOf n).reads = c.reads ++ [⟨req, a, bank, (s.bankRow a).2, v.dmc.seq, 0, data⟩] ∧
        (realTime req = true → t.portOf req = ((v.portOf req).1 + 1, (v.portOf req).2))
      Gives got fun t => t.dram = s.dram ∧ t.out = s.out ∧ (t.chanOf n).writes = c.writes ∧
        (room = true → covered = true → t.dmc.reply = some (req, a, s.dramRead a 64, false) ∧ (t.chanOf n).reads = c.reads) ∧
        (room = true → covered = false → joins t (s.dramRead a 64)) ∧ (room = false → joins t [])) ∧
    (s.localDead a 64 = false → ¬ own → Gives got fun t => t.dmc.chans = v.dmc.chans ∧ t.dmc.reply = v.dmc.reply ∧
      t.dram = s.dram ∧ (t.xbarOf (s.regionOf a)).waiting = (v.xbarOf (s.regionOf a)).waiting ++ [⟨portSector req, req, a⟩]) ∧
    (realTime req = true ∨ (∀ p ∈ pieces addr data.length, s.localDead p.1 p.2 = true) →
      exec (.dramWriteRequest req addr data) s = .next s) ∧
    (realTime req = false → (∀ p ∈ pieces addr data.length, s.localDead p.1 p.2 = false) →
      (∀ m, (s.chanOf m).writes.length + (pieces addr data.length).length ≤ 32) →
      Gives (exec (.dramWriteRequest req addr data) s) fun t =>
        t.dramRead addr data.length = data.map BitVec.toNat ∧
        (∀ b, b < addr ∨ addr + data.length ≤ b → t.dramRead b 1 = s.dramRead b 1) ∧
        ((∀ r, (s.xbarOf r).waiting = []) → t.dmc.reply = s.dmc.reply) ∧
        ∀ p ∈ pieces addr data.length, (t.chanOf (s.channelOf (p.1 / 64 * 64))).writes.any (fun w => w.addr == p.1 / 64 * 64) = true) ∧
    (realTime req = false → s.localDead addr data.length = false → data ≠ [] → addr % 64 + data.length ≤ 64 →
      32 ≤ c.writes.length → (c.queue.any fun w => w.addr == a) = false →
      Gives (exec (.dramWriteRequest req addr data) s) fun t => t.dram = s.dram ∧ c.writes.length ≤ (t.chanOf n).writes.length ∧
        (t.chanOf n).writes.any (fun w => w.addr == a) = true)) ∧
  (∀ (s : State) (n p k : Nat) (ce : List Nat),
    let c := s.chanOf n
    let got := exec (.dramSchedule n ce p k) s
    let stopped := match s.dmc.change with | some x => x.2.2 | none => false
    let idle := s.chanRuns n = true ∧ s.flag (F.dmcChStatusSelfref n) = false ∧ stopped = false ∧ c.wakeAt = none ∧
      (s.xbarOf (n / 4)).waiting = []
    (s.chanRuns n = false ∨ s.flag (F.dmcChStatusSelfref n) = true ∨ stopped = true → got = .next s) ∧
    (idle → realTime p = false → c.burst = false → c.reads = [] → c.writes = [] → got = .next s) ∧
    (idle → c.burst = true → c.reads = [] → c.writes = [] → 0 < s.get (F.dmcChStatusOwed n) → Gives got fun t =>
      t.get (F.dmcChStatusOwed n) = s.get (F.dmcChStatusOwed n) - 1 ∧ (t.chanOf n).pair = (c.pair + 1) % 8 ∧
      ((t.chanOf n).burst = true ↔ 4 < s.get (F.dmcChStatusOwed n) - 1) ∧ t.dram = s.dram) ∧
    (idle → c.burst = false → c.busy = [] → c.throttle = [] →
      (∀ r, c.reads = [r] → c.writes = [] → r.bank < 16 → r.mask = 0 → r.data ≠ [] → Gives got fun t =>
        t.dmc.reply = some (r.req, r.addr, r.data, false) ∧ (t.chanOf n).reads = [] ∧ t.dram = s.dram ∧
        (realTime r.req = true → r.req ≠ p → t.portOf r.req = ((s.portOf r.req).1 - 1, min 512 ((s.portOf r.req).2 + 1))) ∧
        (realTime p = true → r.req ≠ p → t.portOf p = ((s.portOf p).1, (s.portOf p).2 - k))) ∧
      (∀ w, c.reads = [] → c.writes = [w] → w.bank < 16 → w.mask ≠ 0 → Gives got fun t =>
        (t.chanOf n).writes = [] ∧ (t.chanOf n).reads = [] ∧ t.dmc.reply = s.dmc.reply ∧ t.dram = s.dram)))

/-- DMC_FREEZE (R265): the first error that freezes the controller is recorded, with REQ and ADDR only where a read or a write of a channel
failed; every queue empties, a capture and a change of set point end, and Dusk begins; a frozen controller takes no second one. Memory
keeps its bytes, and a write that was queued leaves its granule as it was before it. -/
def Obligations.FreezeStopsTheController : Prop :=
  ∀ (s : State) (cause req cmd addr : Nat) (ch : Option Nat),
    (s.frozen = true → exec (.dmcFreeze cause ch req cmd addr) s = .next s) ∧
    (s.frozen = false → ch.getD 0 < 16 → Gives (exec (.dmcFreeze cause ch req cmd addr) s) fun t =>
      let plain := cmd = 1 ∨ cmd = 2
      t.frozen = true ∧ t.get F.dmcFreezeCause = cause % 2 ^ F.dmcFreezeCause.width ∧ t.flag F.dmcFreezeFrozen = true ∧
      t.flag F.dmcFreezeChvalid = ch.isSome ∧ t.get F.dmcFreezeCh = ch.getD 0 ∧
      t.get F.dmcFreezeReq = (if ch.isSome ∧ plain then req % 64 else 0x3F) ∧
      t.rd64 Reg.dmcFreezeAddrLo = (if plain then addr % 2 ^ 64 else 0) ∧ t.rd64 Reg.dmcFreezeStampLo = s.now ∧
      t.get (F.dmcChEventDmcFreeze (ch.getD 0)) = 1 ∧
      (∀ n < s.part.channels, (t.chanOf n).reads = [] ∧ (t.chanOf n).writes = []) ∧
      (∀ r < s.part.sectors, (t.xbarOf r).waiting = []) ∧
      t.dmc.capture = none ∧ t.dmc.change = none ∧ t.flag F.pwrStatusDuskFrz = true ∧ t.inDusk = true ∧
      ((∀ n < s.part.channels, (s.chanOf n).writes = []) → t.dram = s.dram) ∧
      (∀ n w, n < s.part.channels → (∀ m, m ≠ n → (s.chanOf m).writes = []) → (s.chanOf n).writes = [w] →
        t.dram = (s.dramPut w.addr w.mask w.data).dram))

/-- REFRESH_DUE, RH_WINDOW_END, MR4_READ and SELF_REFRESH_ENTRY (R250 to R256): a refresh comes due when its interval ends (its instants:
log entry 150); one whose bank pair is busy is owed, at the limit or in panic it is issued, in a forced burst it is owed; with no request
queued every owed refresh is issued. A row-disturbance window of RHWIN µs ends with its counts cleared. A temperature report moves HOT
and raises its event; a channel that becomes hot with more than 4 owed refreshes starts the forced burst. An idle channel enters
self-refresh SRIDLE ns after its last request where the latency condition allows it, and otherwise shows SRDENY. A channel to which none of
this applies is unchanged. -/
def Obligations.RefreshAndSelfRefresh : Prop :=
  ∀ (s : State) (n : Nat) (hot : Bool),
    let c := s.chanOf n
    let owed := s.get (F.dmcChStatusOwed n)
    let at' (u : Nat) (t : State) : Prop := t.time.uptime = (if s.still then s.time.uptime else max s.time.uptime u)
    (s.chanRuns n = false ∨ s.flag (F.dmcChStatusSelfref n) = true → exec (.refreshDue n) s = .next s) ∧
    (s.chanRuns n = true → s.flag (F.dmcChStatusSelfref n) = false →
      Gives (exec (.refreshDue n) s) fun t => t.dram = s.dram ∧ (t.chanOf n).reads = c.reads ∧ (t.chanOf n).writes = c.writes ∧
        at' (c.refAt + s.refreshEvery n) t ∧ (t.chanOf n).refAt = t.time.uptime ∧
        (c.burst = true → t.get (F.dmcChStatusOwed n) = (owed + 1) % 16 ∧ (t.chanOf n).pair = c.pair) ∧
        (c.burst = false → s.chanPanic c = true ∨ s.refreshLimit n ≤ owed →
          t.get (F.dmcChStatusOwed n) = owed ∧ (t.chanOf n).pair = (c.pair + 1) % 8) ∧
        (c.burst = false → s.chanPanic c = false → owed < s.refreshLimit n → c.pairFree = false →
          t.get (F.dmcChStatusOwed n) = owed + 1 ∧ (t.chanOf n).pair = c.pair) ∧
        (c.burst = false → owed < s.refreshLimit n → c.reads = [] → c.writes = [] →
          t.get (F.dmcChStatusOwed n) = 0 ∧ (t.chanOf n).pair = (c.pair + owed + 1) % 8)) ∧
    (s.part.channels ≤ n → exec (.rhWindowEnd n) s = .next s) ∧
    (n < s.part.channels → Gives (exec (.rhWindowEnd n) s) fun t =>
      t.chanOf n = { c with acts := [], throttle := [], winAt := t.time.uptime } ∧ t.regs = s.regs ∧ t.dram = s.dram ∧
      at' (c.winAt + 1000 * max 1 (s.get (F.dmcChRhwinUs n))) t) ∧
    (s.chanRuns n = false → exec (.mr4Read n hot) s = .next s) ∧
    (s.chanRuns n = true → Gives (exec (.mr4Read n hot) s) fun t => at' (c.mr4At + 1000 * max 1 (s.get F.dmcMr4ivUs)) t ∧
      (t.chanOf n).mr4At = t.time.uptime ∧ t.flag (F.dmcChStatusHot n) = hot ∧
      (s.flag (F.dmcChStatusHot n) = hot → t.regs = s.regs) ∧
      (s.flag (F.dmcChStatusHot n) = !hot → t.get (F.dmcChEventTempHigh n) = 1 ∧
        t.flag F.dmcStatusHot = (List.range s.part.channels).any (fun k => t.flag (F.dmcChStatusHot k)) ∧
        (hot = true → 4 < owed → t.get (F.dmcChStatusOwed n) = owed - 1 ∧ t.get (F.dmcChEventRefForced n) = 1 ∧
          (t.chanOf n).pair = (c.pair + 1) % 8 ∧ ((t.chanOf n).burst = true ↔ 4 < owed - 1)) ∧
        (hot = false ∨ owed ≤ 4 → t.get (F.dmcChStatusOwed n) = owed ∧ (t.chanOf n).burst = c.burst))) ∧
    (s.srMay n = false → exec (.selfRefreshEntry n) s = .next s) ∧
    (s.srMay n = true → Gives (exec (.selfRefreshEntry n) s) fun t => t.dram = s.dram ∧
      at' (c.idleAt + s.get (F.dmcChSridleNs n)) t ∧ t.flag (F.dmcChStatusSelfref n) = s.srLatency ∧
      (s.srLatency = true → t.get (F.dmcChStatusOwed n) = 0 ∧ t.srDenied n = false) ∧
      (s.srLatency = false → t.regs = s.regs ∧ (s.still = false → t.srDenied n = true)))

/-- TRAINCAP_START and TRAINCAP_DONE (R259): a write with START and no capture running begins one on the named channel, and is aborted
at once during a change of set point (a frozen controller begins none, R265); the end gives its points and DONE. FREQ_REQUEST, FREQ_CANCEL, FREQ_CAPTURE_HOLD_EXPIRY, FREQ_CHANGE and FREQ_DONE (R260):
the request is refused by its test or waits; a capture that holds it too long is aborted; the change stops every channel with its
refreshes issued; its end puts the new set point in force with the delays of its registers; a request may be withdrawn until the change
begins. -/
def Obligations.CapturesAndSetPoints : Prop :=
  (∀ (s : State) (a : Nat) (v : Word),
    let u := s.store Reg.dmcTraincap v
    (s.writes a Reg.dmcTraincap → v.getLsbD 0 = false ∨ u.flag F.dmcTraincapBusy = true ∨ s.frozen = true → exec (.traincapStart a v) s = .next u) ∧
    (s.writes a Reg.dmcTraincap → v.getLsbD 0 = true → u.flag F.dmcTraincapBusy = false → s.frozen = false →
      Gives (exec (.traincapStart a v) s) fun t =>
        (s.dmc.change = none → t.dmc.capture = some (u.get F.dmcTraincapCh, u.capturePoints) ∧
          t.flag F.dmcTraincapBusy = true ∧ t.flag F.dmcTraincapDone = false) ∧
        (s.dmc.change.isSome = true → t.dmc.capture = s.dmc.capture ∧ t.flag F.dmcTraincapAborted = true ∧
          t.flag F.dmcTraincapBusy = false)) ∧
    (s.dmc.capture = none ∨ s.frozen = true → exec .traincapDone s = .next s) ∧
    (∀ n k, s.dmc.capture = some (n, k) → s.frozen = false → n < 16 → k ≤ 64 → Gives (exec .traincapDone s) fun t =>
      t.dmc.capture = none ∧ t.flag F.dmcTraincapBusy = false ∧ t.flag F.dmcTraincapDone = true ∧ t.get F.dmcTraincapPts = k ∧
      t.get (F.dmcChEventTraincapDone n) = 1 ∧ t.dram = s.dram)) ∧
  (∀ (s : State) (a tg at0 : Nat) (v : Word),
    let u := s.put F.dmcFreqTarget (wf v 0 1)
    let began := match s.dmc.change with | some x => x.2.2 | none => true
    let w := if v.getLsbD 2 = true ∧ began = false then
      ({ u with dmc := { u.dmc with change := none } }.put F.dmcStatusFreqbusy 0).put F.dmcFreqReq 0 else u
    (s.writes a Reg.dmcFreq → ∀ c ∈ [Instr.freqRequest a v, .freqCancel a v],
      (v.getLsbD 1 = false ∨ w.flag F.dmcStatusFreqbusy = true → exec c s = .next w) ∧
      (v.getLsbD 1 = true → w.flag F.dmcStatusFreqbusy = false → Gives (exec c s) fun t => t.get F.dmcFreqTarget = wf v 0 1 ∧
        if w.freqRefused (wf v 0 1) then t.get F.dmcFreqReq = 0 ∧ t.get (F.dmcChEventFreqReject 0) = 1 ∧ t.dmc = w.dmc
        else t.get F.dmcFreqReq = 1 ∧ t.flag F.dmcStatusFreqbusy = true ∧ t.dmc.change = some (wf v 0 1, s.time.uptime, false))) ∧
    (began = true ∨ s.dmc.capture = none → exec .freqCaptureHoldExpiry s = .next s) ∧
    (∀ n k, s.dmc.change = some (tg, at0, false) → s.dmc.capture = some (n, k) → k ≤ 64 →
      Gives (exec .freqCaptureHoldExpiry s) fun t =>
        t.dmc.capture = none ∧ t.dmc.change = s.dmc.change ∧ t.flag F.dmcTraincapAborted = true ∧ t.flag F.dmcTraincapBusy = false ∧
        t.get F.dmcTraincapPts < max 1 k ∧ (s.still = false → t.time.uptime = max s.time.uptime (at0 + 50000))) ∧
    (s.dmc.change = some (tg, at0, false) → s.frozen = false → s.dmc.capture = none → s.freqReady = true →
      Gives (exec .freqChange s) fun t => t.dmc.change = some (tg, at0, true) ∧ t.dram = s.dram ∧
        ∀ n < s.part.channels, s.chanRuns n = true → t.get (F.dmcChStatusOwed n) = 0) ∧
    (began = true ∨ s.frozen = true ∨ s.dmc.capture.isSome = true ∨ s.freqReady = false → exec .freqChange s = .next s) ∧
    (s.dmc.change = none ∨ began = false ∨ s.frozen = true → exec .freqDone s = .next s) ∧
    (s.dmc.change = some (tg, at0, true) → s.frozen = false → Gives (exec .freqDone s) fun t =>
      t.get F.dmcStatusFsp = tg % 2 ∧ t.get (F.dmcChEventFreqDone 0) = 1 ∧ t.dram = s.dram ∧ t.get F.dmcFreqReq = 0 ∧
      t.flag F.dmcStatusFreqbusy = false ∧ t.dmc.change = none ∧
      ∀ n < s.part.channels, (t.chanOf n).delays = t.delayRegs n))

/-! ## CXL and DMA (10) -/

/-- LINK_STATE, CXL_READ_COMPLETION and CXL_COMPLETION_TIMEOUT (R269, R272, R277, R278, R281): a change of the link to what it can train to
shows in LINK and raises its event, and what waited for the link leaves; anything else changes nothing. A layer's or a record's read shows
the device its data at its address; one that ends with an error, or by timeout, is noted in CXL.RDERR and raised; a failed write of a
writeback port or of the blitter is noted too. A read of the DMA engine that runs out of time, or the loss of the link, halts the engine.
A completion for no request, or while the link is down, changes nothing. HOST_SNOOP, HOST_MEM_READ, HOST_MEM_WRITE and MSIX_UNMASK (R128,
R273, R282, R284, R450): a snoop misses; a host access outside the window is unsupported; a granted read returns memory's bytes, from a dead
place poison, a refused one free bytes or poison (log entry 87); a granted write changes the bytes it names, a refused one none; the pending
messages that an unmasking lets go leave. -/
def Obligations.TheHostLinkCarriesAccesses : Prop :=
  (∀ (s : State) (l0 : Bool) (width rate : Nat),
    let w := if l0 then width else 0
    let q := if l0 then rate else 0
    let same := s.flag F.cxlLinkL0 = l0 ∧ s.get F.cxlLinkWidth = w ∧ s.get F.cxlLinkRate = q
    (same ∨ (l0 = true ∧ cxlTrains width rate = false) → exec (.linkState l0 width rate) s = .next s) ∧
    (¬ same → l0 = true → cxlTrains width rate = true → Gives (exec (.linkState l0 width rate) s) fun t =>
      t.flag F.cxlLinkL0 = true ∧ t.get F.cxlLinkWidth = width ∧ t.get F.cxlLinkRate = rate ∧
      t.flag F.cxlLinkFlit256 = decide (rate = 3) ∧ t.get F.cxlEventLinkState = 1 ∧
      (width < 16 ∨ rate < 3 → t.get F.cxlEventCxlDegraded = 1) ∧ t.icu.msixHeld = [] ∧ t.cxl = { s.cxl with hold := [], up := true } ∧
      t.dram = s.dram) ∧
    (¬ same → l0 = false → Gives (exec (.linkState l0 width rate) s) fun t =>
      t.flag F.cxlLinkL0 = false ∧ t.get F.cxlLinkWidth = 0 ∧ t.get F.cxlLinkRate = 0 ∧ t.get F.cxlEventLinkState = 1 ∧
      t.get F.cxlBudgetRdshare = 0 ∧ t.get F.cxlBudgetWrshare = 0 ∧ t.cxl = s.cxl ∧ t.dram = s.dram)) ∧
  (∀ (s : State) (tag kind : Nat) (data : List Byte),
    let up := s.flag F.cxlLinkL0 = true
    let rd := s.cxl.reads.find? fun r => r.tag == tag
    let wr := s.cxl.writes.find? fun x => x.tag == tag
    let dm := s.dma.reads.find? fun r => r.2.2.1 == tag
    let ended (r : CxlRead) (t : State) : Prop := t.hostBad.contains (r.addr / 64) = true ∧ t.get F.cxlEventCxlRderr = 1 ∧
      t.get F.cxlRderrKind = 0 ∧ t.get F.cxlRderrLvalid = 1 ∧ t.get F.cxlRderrLayer = r.layer % 1024 ∧
      t.rd64 Reg.cxlRderrAddrLo = r.addr % 2 ^ 64
    (¬ up ∨ (rd = none ∧ wr = none) → exec (.cxlReadCompletion tag kind data) s = .next s) ∧
    (up → rd = none → wr = none → dm = none → exec (.cxlCompletionTimeout tag) s = .next s) ∧
    (∀ r, rd = some r → up → r.use = .fetch ∨ r.use = .record →
      Gives (exec (.cxlReadCompletion tag kind data) s) (fun t => t.dram = s.dram ∧
        (kind = 0 → (∀ i < 64, t.hostByte (r.addr + i) = (data.getD i 0).toNat) ∧ t.hostBad.contains (r.addr / 64) = false) ∧
        (kind ≠ 0 → ended r t) ∧
        (r.use = .record → (s.layerRt r.layer).refFrom = some r.addr → (t.layerRt r.layer).refFrom = none ∧
          (kind = 0 → (t.layerRt r.layer).ref = some ((List.range 64).map fun i => (data.getD i 0).toNat)))) ∧
      Gives (exec (.cxlCompletionTimeout tag) s) (ended r)) ∧
    (∀ x, rd = none → wr = some x → up → ∀ c ∈ [Instr.cxlReadCompletion tag kind data, .cxlCompletionTimeout tag], Gives (exec c s) fun t =>
      t.cxl.writes.any (fun y => y.tag == tag) = false ∧ (c = .cxlCompletionTimeout tag ∨ kind ≠ 0 →
        (∀ n < 8, x.use = .writeback n → t.get F.cxlEventCxlRderr = 1 ∧ t.get F.cxlRderrKind = 1 ∧ t.rd64 Reg.cxlRderrAddrLo = x.addr % 2 ^ 64) ∧
        (x.use = .blitter → t.get F.cxlEventCxlRderr = 1 ∧ t.get F.cxlRderrKind = 2 ∧ t.rd64 Reg.cxlRderrAddrLo = x.addr % 2 ^ 64 ∧
          (s.blt.desc.isSome = true → t.flag F.bltStatusHalted = true ∧ t.get F.bltStatusErrcode = 6)))) ∧
    (∀ r, rd = none → wr = none → dm = some r → up → s.dmaStopped = false → r.1 < 16 → r.2.2.2 % 4 ≠ 0 →
      Gives (exec (.cxlCompletionTimeout tag) s) fun t => t.flag F.dmaStatusHalted = true ∧ t.get F.dmaErrCause = 2 ∧
        t.get F.dmaErrCh = r.1 ∧ t.rd64 Reg.dmaErraddrLo = r.2.1 % 2 ^ 64) ∧
    (¬ up → s.cxl.reads = [] → s.cxl.queue = [] → s.cxl.writes = [] → Gives (exec (.cxlCompletionTimeout tag) s) fun t =>
      t.cxl.hold = [] ∧ t.cxl.up = false ∧ (∀ r ∈ t.dma.reads, r.2.2.2 % 4 = 0) ∧ (s.dmaStopped = false → s.dma.turn < 16 → (∀ r ∈ s.dma.reads, r.1 < 16) → t.flag F.dmaStatusHalted = true ∧ t.get F.dmaErrCause = 5 ∧
        ∀ r, (s.dma.reads.find? fun r => r.2.2.2 % 4 != 0) = some r →
          t.get F.dmaErrCh = r.1 ∧ t.rd64 Reg.dmaErraddrLo = r.2.1 % 2 ^ 64))) ∧
  (∀ (s : State) (hpa len f e : Nat) (data : List Byte),
    let answers (t : State) (bs : List Nat) (poison : Bool) : Prop := t.dram = s.dram ∧ ∃ l, t.out = s.out ++ l ++ [.completion hpa bs poison]
    exec (.hostSnoop hpa) s = .next (s.emit (.snoopMiss hpa)) ∧
    (s.hdmLocal hpa len = none → exec (.hostMemRead hpa len) s = .next (s.emit (.unsupported hpa))) ∧
    (∀ a, s.hdmLocal hpa len = some a → Gives (exec (.hostMemRead hpa len) s) fun t =>
      if s.meetsFlatten a len = true then answers t (List.replicate len 0) true ∧ t.get F.cxlEventHdmPoison = 1 ∧
        t.flag F.protViolValid = true
      else if s.granted 4 false 0 a len = false then t.flag F.protViolValid = true ∧ t.get F.protViolAgent = 4 ∧
        ∃ bs poison, bs.length = len ∧ answers t bs poison
      else if s.localDead a len = true then answers t (List.replicate len 0) true ∧ t.get F.cxlEventHdmPoison = 1
      else answers t (s.dramRead a len) false) ∧
    (s.hdmLocal hpa data.length = none → exec (.hostMemWrite hpa data) s = .next (s.emit (.unsupported hpa))) ∧
    (∀ a, s.hdmLocal hpa data.length = some a → Gives (exec (.hostMemWrite hpa data) s) fun t =>
      (∃ l, t.out = s.out ++ l ++ [.completion hpa [] false]) ∧
      (∀ b, b < a ∨ a + data.length ≤ b → t.dramRead b 1 = s.dramRead b 1) ∧
      (s.granted 4 true 0 a data.length = false → t.dram = s.dram ∧ t.flag F.protViolValid = true ∧ t.get F.protViolAgent = 4) ∧
      (s.granted 4 true 0 a data.length = true → s.localDead a data.length = false →
        t.dramRead a data.length = data.map BitVec.toNat)) ∧
    (8 ≤ f ∨ 4 ≤ e ∨ s.icu.unmasked.contains (f, e) = true → exec (.msixUnmask f e) s = .next s) ∧
    (f < 8 → e < 4 → s.icu.unmasked.contains (f, e) = false → Gives (exec (.msixUnmask f e) s) fun t =>
      let due := s.icu.msixPend.filter t.msixOpen
      t.icu.unmasked = s.icu.unmasked ++ [(f, e)] ∧ t.regs = s.regs ∧ t.dram = s.dram ∧
      t.icu.msixPend = s.icu.msixPend.filter (fun x => !due.contains x) ∧
      (s.flag F.cxlLinkL0 = true → t.out = s.out ++ due.map fun x => .msix x.1 x.2) ∧
      (s.flag F.cxlLinkL0 = false → t.out = s.out ∧ t.icu.msixHeld = s.icu.msixHeld ++ due)))

/-- DMA_DESCRIPTOR_START, DMA_COPY, DMA_FILL and DMA_NOP (R285 to R290, R292): a channel that is not ready starts nothing; a descriptor in
local memory is read and begins, or halts its channel with its code, a refused read with code 4; dead memory halts the engine; one in host
memory is asked for. An operation that the descriptor does not name, or that has begun, changes nothing; else the channels go on in turn:
with no other channel wanting a turn, a COPY asks for its granules in order, 64 outstanding at most; a FILL writes its pattern over its
range and nothing else, to host memory with the zero-length read behind it; a NOP is done at once. -/
def Obligations.DmaRunsDescriptors : Prop :=
  ∀ (s : State) (c : Nat) (d : List Nat),
    let a := s.dmaSlot c
    let x := s.dmaCh c
    let r := s.dma.reads
    let start := exec (.dmaDescriptorStart c) s
    (s.dmaReady c = false → start = .next s) ∧
    (s.dmaReady c = true → s.flag (F.dmaChCfgRingmem c) = true →
      if 64 ≤ r.length ∨ (r.any fun y => y.1 == c && y.2.2.2 == 1) = true then start = .next s
      else Gives start fun t => t.dma = { s.dma with reads := r ++ [(c, a, s.cxl.tag, 1)] } ∧ t.regs = s.regs ∧ t.dram = s.dram ∧
        (s.flag F.cxlLinkL0 = true → t.out = s.out ++ [.ioRead s.cxl.tag (s.get (F.dmaChCfgFunc c)) a 64])) ∧
    (s.dmaReady c = true → s.flag (F.dmaChCfgRingmem c) = false → Gives start fun t =>
      let read := s.dramRead a 64
      let halted (e : Nat) : Prop := (t.dmaCh c).desc = none ∧ t.flag (F.dmaChStatusHalted c) = true ∧
        t.get (F.dmaChStatusErrcode c) = e ∧ t.get (F.dmaChEventDmaError c) = 1 ∧ t.dram = s.dram
      t.get (F.dmaChHeadidxIndex c) = s.get (F.dmaChHeadidxIndex c) ∧
      if s.dmaGranted c false 0 a 64 = false then halted 4
      else if s.localDead a 64 = true then t.flag F.dmaStatusHalted = true ∧ t.get F.dmaErrCh = c ∧
        t.get F.dmaErrCause = (if s.frozen then 4 else 3) ∧ t.rd64 Reg.dmaErraddrLo = a % 2 ^ 64
      else if dmaCheck read = 0 then t.flag (F.dmaChStatusBusy c) = true ∧ t.dram = s.dram ∧
        t.dmaCh c = { x with desc := some read, begun := false, issued := 0, written := 0, flushed := none }
      else halted (dmaCheck read)) ∧
    (let op (n : Nat) (i : Instr) (does : State → Prop) : Prop :=
      let u := s.setDmaCh c { x with begun := true, written := if n = 2 then 1 else 0 }
      (x.desc = none ∨ s.dmaStopped = true ∨ x.begun = true ∨ (x.desc = some d ∧ dmaOp d ≠ n) → exec i s = .next s) ∧
      (x.desc = some d → s.dmaStopped = false → x.begun = false → dmaOp d = n →
        exec i s = .next { u.dmaGo with pending := s.pending, part := s.part } ∧
        (c < 16 → (∀ k, k ≠ c → s.dmaWants k = false) → Gives (exec i s) does))
     op 0 (.dmaCopy c) (fun t =>
        let m := min (dmaGranules d - x.issued) (64 - r.length)
        (∀ i < m, s.dmaGranted c false (dmaSrcMem d) (dmaGranule d (x.issued + i)) 64 = true) →
          t.dma.reads = r ++ (List.range m).map (fun i =>
            (c, dmaGranule d (x.issued + i), s.cxl.tag + i, if dmaSrcMem d = 1 then 3 else 0)) ∧
          t.dmaCh c = { x with begun := true, issued := x.issued + m, written := 0 } ∧ t.dram = s.dram) ∧
      op 1 (.dmaFill c) (fun t =>
        let ps := pieces (dmaDaddr d) (dmaLen d)
        let pat (i : Nat) : Nat := d.getD (0x18 + i % 8) 0
        let func := s.get (F.dmaChCfgFunc c)
        (dmaDstMem d = 0 → (∀ p ∈ ps, s.dmaGranted c true 0 p.1 p.2 = true ∧ s.localDead p.1 p.2 = false) →
          t.dramRead (dmaDaddr d) (dmaLen d) = (List.range (dmaLen d)).map (fun i => pat i % 256) ∧
          (∀ b, b < dmaDaddr d ∨ dmaDaddr d + dmaLen d ≤ b → t.dramRead b 1 = s.dramRead b 1) ∧
          t.dmaCh c = { x with begun := true, written := dmaParts d }) ∧
        (dmaDstMem d = 1 → 0 < dmaLen d → x.flushed = none → r.length < 64 → s.flag F.cxlLinkL0 = true →
          t.dram = s.dram ∧ t.dmaCh c = { x with begun := true, written := dmaParts d, flushed := some false } ∧
          t.out = s.out ++ ps.map (fun p => .ioWrite func p.1 ((List.range p.2).map fun i => pat (p.1 - dmaDaddr d + i))) ++
            [.ioRead s.cxl.tag func (dmaDaddr d + dmaLen d - 1) 0])) ∧
      op 2 (.dmaNop c) (fun t => t.dmaCh c = { x with begun := true, written := 1 } ∧ t.regs = s.regs ∧ t.dram = s.dram ∧ t.out = s.out))

/-- DMA_READ_COMPLETION (R286, R289, R293): the channel's oldest read returns: a COPY's bytes are written on, a descriptor in host memory
starts or halts its channel, the zero-length read makes the descriptor's writes visible; a host read that ends with a bus error halts the
engine; a stopped engine drops it; nothing returns for no read, or from the host while the link is down. DMA_DESCRIPTOR_COMPLETE (R291,
R292): a finished descriptor is counted, its ring moves on with its events, or a refused fence halts the channel. DMA_HALTED (R293): a bus
error halts every channel and leaves only the destinations of descriptors in progress undefined. DMA_RESUME, DMA_SKIP, DMA_RESET and
DMA_RESET_DONE (R292, R294): a halted channel resumes at its descriptor or after it; a reset drops every descriptor and ends when its
requests have. -/
def Obligations.DmaCompletesAndHalts : Prop :=
  ∀ (s : State) (ag c : Nat) (v : Word),
    let x := s.dmaCh c
    let oldest := s.dma.reads.find? fun r => r.1 == c
    let alone : Prop := ∀ k, k ≠ c → (s.dmaCh k).desc = none
    (∀ st data,
      let got := exec (.dmaReadCompletion c st data) s
      let bs := (List.range 64).map fun i => (data.getD i 0).toNat
      (oldest = none → got = .next s) ∧
      (∀ g tag kind, oldest = some (c, g, tag, kind) →
        let u := { s with dma := { s.dma with reads := s.dma.reads.filter fun y => y.2.2.1 != tag } }
        let host := kind % 4 ≠ 0
        (5 < st ∨ (host ∧ s.flag F.cxlLinkL0 = false) → got = .next s) ∧
        (st ≤ 5 → host → s.flag F.cxlLinkL0 = true → c < 16 →
          (s.dmaStopped = true → got = .next u) ∧
          (s.dmaStopped = false → st ≠ 0 → Gives got fun t => t.flag F.dmaStatusHalted = true ∧ t.get F.dmaErrCh = c ∧
            t.get F.dmaErrCause = st ∧ t.flag F.dmaErrDir = false ∧ t.rd64 Reg.dmaErraddrLo = g % 2 ^ 64) ∧
          (s.dmaReady c = true → alone → st = 0 → kind = 1 → s.dmaSlot c = g → Gives got fun t =>
            if dmaCheck bs = 0 then t.flag (F.dmaChStatusBusy c) = true ∧
              t.dmaCh c = { x with desc := some bs, begun := false, issued := 0, written := 0, flushed := none }
            else (t.dmaCh c).desc = none ∧ t.flag (F.dmaChStatusHalted c) = true ∧ t.get (F.dmaChStatusErrcode c) = dmaCheck bs) ∧
          (∀ d, x.desc = some d → s.dmaStopped = false → alone → st = 0 → kind = 2 → x.begun = true → x.written = dmaParts d →
            (dmaOp d = 0 → dmaGranules d ≤ x.issued) → Gives got fun t => t.dmaDone c d = true ∧ t.dram = s.dram)) ∧
        (∀ d, x.desc = some d → dmaOp d = 0 → dmaDstMem d = 0 → s.dmaStopped = false → alone → c < 16 → st ≤ 5 →
          (kind = 0 ∧ s.localDead g 64 = false) ∨ (kind = 3 ∧ s.flag F.cxlLinkL0 = true ∧ st = 0) →
          let lo := max g (dmaSaddr d)
          let hi := min (g + 64) (dmaSaddr d + dmaLen d)
          (∀ p ∈ pieces (dmaDaddr d + (lo - dmaSaddr d)) (hi - lo), s.dmaGranted c true 0 p.1 p.2 = true ∧ s.localDead p.1 p.2 = false) →
          Gives got fun t =>
            (∀ i, i < dmaLen d → g ≤ dmaSaddr d + i → dmaSaddr d + i < g + 64 → t.dramRead (dmaDaddr d + i) 1 =
              if kind = 0 then s.dramRead (dmaSaddr d + i) 1 else [bs.getD (dmaSaddr d + i - g) 0]) ∧
            ∀ k, k < dmaDaddr d ∨ dmaDaddr d + dmaLen d ≤ k → t.dramRead k 1 = s.dramRead k 1))) ∧
    (∀ d, x.desc = none ∨ s.dmaStopped = true ∨ (x.desc = some d ∧ s.dmaDone c d = false) → exec (.dmaDescriptorComplete c) s = .next s) ∧
    (∀ d, c < 16 → x.desc = some d → s.dmaStopped = false → s.dmaDone c d = true →
      let fence := Reg.layerFence (bltF d 0x20 0 10)
      let refused := bltF d 0 5 1 = 1 ∧ s.mayAccess x.agent true fence = false
      (¬ refused → Gives (exec (.dmaDescriptorComplete c) s) fun t =>
        (t.dmaCh c).desc = none ∧ t.get (F.dmaChHeadidxIndex c) = (s.get (F.dmaChHeadidxIndex c) + 1) % s.dmaRing c ∧
        t.get (F.dmaChDonecntCount c) = (s.get (F.dmaChDonecntCount c) + 1) % 2 ^ 32 ∧ t.flag (F.dmaChStatusBusy c) = false ∧
        (bltF d 0 4 1 = 1 → t.get (F.dmaChEventDmaDone c) = 1) ∧
        (t.get (F.dmaChHeadidxIndex c) = s.get (F.dmaChTailidxIndex c) → t.get (F.dmaChEventDmaIdle c) = 1) ∧
        (bltF d 0 5 1 = 0 → t.dram = s.dram)) ∧
      (refused → Gives (exec (.dmaDescriptorComplete c) s) fun t => (t.dmaCh c).desc = none ∧
        t.flag (F.dmaChStatusHalted c) = true ∧ t.get (F.dmaChStatusErrcode c) = 4 ∧ t.flag F.protViolValid = true ∧
        t.get (F.dmaChHeadidxIndex c) = s.get (F.dmaChHeadidxIndex c) ∧ t.dram = s.dram)) ∧
    (∀ cause w b,
      let none' := s.dmaStopped = true ∨ cause = 0 ∨ 5 < cause ∨ (x.desc = none ∧ oldest = none)
      (none' → exec (.dmaHalted c cause w b) s = .next s) ∧
      (¬ none' → c < 16 → Gives (exec (.dmaHalted c cause w b) s) fun t =>
        t.flag F.dmaStatusHalted = true ∧ t.get F.dmaErrCh = c ∧ t.get F.dmaErrCause = cause ∧ t.flag F.dmaErrDir = w ∧
        t.rd64 Reg.dmaErraddrLo = b % 2 ^ 64 ∧ t.get (F.dmaChEventDmaHalted c) = 1 ∧ t.dma = s.dma ∧
        ∀ k, (∀ j < 16, ∀ e, (s.dmaCh j).desc = some e → (s.dmaCh j).begun = true → dmaOp e ≠ 2 → dmaDstMem e = 0 →
          k < dmaDaddr e ∨ dmaDaddr e + dmaLen e ≤ k) → t.dramRead k 1 = s.dramRead k 1)) ∧
    (c < 16 → s.writes ag (Reg.dmaChCfg c) → ∀ i ∈ [Instr.dmaResume ag c v, .dmaSkip ag c v], Gives (exec i s) fun t =>
      t.dma = s.dma ∧ t.dram = s.dram ∧ t.get (F.dmaChCfgEn c) = (s.store (Reg.dmaChCfg c) v).get (F.dmaChCfgEn c) ∧
      (let acts := s.flag (F.dmaChStatusHalted c) && (v.getLsbD 2 || v.getLsbD 3)
       (acts = true → t.flag (F.dmaChStatusHalted c) = false ∧ t.get (F.dmaChStatusErrcode c) = 0) ∧
       (acts = false → t.get (F.dmaChStatusHalted c) = s.get (F.dmaChStatusHalted c) ∧ t.icu = s.icu) ∧
       t.get (F.dmaChHeadidxIndex c) = (if acts && v.getLsbD 3 then (s.get (F.dmaChHeadidxIndex c) + 1) % t.dmaRing c
         else s.get (F.dmaChHeadidxIndex c)))) ∧
    (s.writes ag Reg.dmaCtl → (v.getLsbD 0 = false → exec (.dmaReset ag v) s = .next s) ∧
      (v.getLsbD 0 = true → Gives (exec (.dmaReset ag v) s) fun t => t.flag F.dmaCtlReset = true ∧ t.dram = s.dram ∧
        ∀ k < 16, t.flag (F.dmaChCfgEn k) = false ∧ (t.dmaCh k).desc = none)) ∧
    (s.flag F.dmaCtlReset = true → s.dma.reads = [] → Gives (exec .dmaResetDone s) fun t => t.flag F.dmaCtlReset = false ∧
      t.flag F.dmaStatusHalted = false ∧ t.dma.reads = [] ∧ t.dram = s.dram ∧
      ∀ k < 16, t.flag (F.dmaChStatusHalted k) = false ∧ t.get (F.dmaChStatusErrcode k) = 0) ∧
    (s.flag F.dmaCtlReset = false ∨ s.dma.reads ≠ [] → exec .dmaResetDone s = .next s)

/-! ## Codec (12) -/

/-- CDC_CONTEXT_ENABLE, CDC_CONTEXT_DISABLE and CDC_PIPE_PICK (R327 to R330, R332, R333, R353): an enable latches the configuration and
drops the context's pictures, or is refused with CFGERR; an enabled context's CFG changes in its live fields alone. Pipes pick in ascending
order (log entry 101): a free pipe takes a ready context's command, 16 µs later where it coded another context, and halts the context at
a bad one; a pipe with nothing to take changes nothing. CDC_COMMAND_COMPLETE, CDC_RESUME and CDC_SKIP (R331, R353): a coded command is
counted, the events that its picture left due are raised, its ring moves on and its pipe is free; a halted context resumes at its command or after it. -/
def Obligations.CodecContextsRunCommands : Prop :=
  (∀ (s : State) (a c : Nat) (v : Word), c < 32 → s.writes a (Reg.cdcCtxCfg c) →
    let u := s.store (Reg.cdcCtxCfg c) v
    let y0 : CdcCtx := { s.ctxOf c with
      eff := u.rdList (Reg.cdcCtxCfg c) 23, order := 0, surfs := List.replicate 16 (Pic.coded 0, false), ref := none }
    let y := { y0 with prev := y0.nout - 1, full := y0.cpb * y0.ifill * 3906250 }
    ∀ i ∈ [Instr.cdcContextEnable a c v, .cdcContextDisable a c v],
      (s.flag (F.cdcCtxCfgEn c) = true → exec i s =
        .next (s.store (Reg.cdcCtxCfg c) ((s.rd (Reg.cdcCtxCfg c) &&& ~~~0xF5#32) ||| (v &&& 0xF5)))) ∧
      (s.flag (F.cdcCtxCfgEn c) = false → v.getLsbD 0 = false → exec i s = .next u) ∧
      (s.flag (F.cdcCtxCfgEn c) = false → v.getLsbD 0 = true → Gives (exec i s) fun t =>
        if u.ctxOk y then t.ctxOf c = y ∧ t.regs = u.regs ∧ (Tbl.get (fun _ => Producer.init) t.producers (256 + c)).newest = none
        else t.cdc = s.cdc ∧ t.flag (F.cdcCtxCfgEn c) = false ∧ t.flag (F.cdcCtxStatusCfgerr c) = true)) ∧
  (∀ (s : State) (p : Nat),
    let none' (q : Nat) : Prop := s.pipeIsFree q = false ∨ s.pickCtx q = none
    ((∀ q ≤ p, none' q) → exec (.cdcPipePick p) s = .next s) ∧
    (∀ t, exec (.cdcPipePick p) s = .next t → exec (.cdcPipePick (p + 1)) s =
      .next { t.pickPipe (p + 1) with pending := s.pending, part := s.part }) ∧
    (∀ c live, (∀ q < p, none' q) → s.pipeIsFree p = true → s.pickCtx p = some (c, live) → s.cdc.pipes.length = 4 →
      s.cdc.ready.length = 4 → Gives (exec (.cdcPipePick p) s) fun t =>
        let x := s.ctxOf c
        let a := x.cmdBase + 64 * s.get (F.cdcCtxCmdheadIndex c)
        let d := s.dramRead a 64
        let e := match s.cdcAccess c false 0 a 64 with | some e => e | none => cmdCheck x d
        t.dram = s.dram ∧
        (e ≠ 0 → t.cdc.pipes.getD p none = none ∧ (t.ctxOf c).cmd = none ∧ t.flag (F.cdcCtxStatusHalted c) = true ∧
          t.get (F.cdcCtxStatusErrcode c) = e ∧ t.get (F.cdcCtxEventCdcError c) = 1) ∧
        (e = 0 → x.encoder = false ∨ (x.input d).host = false ∨
            ((x.input d).rows.findSome? fun r => s.cdcSpan c false 1 r.1 r.2) = none →
          t.cdc.pipes.getD p none = some c ∧ (t.ctxOf c).cmd = some d ∧ (t.ctxOf c).coded = false ∧
          (t.ctxOf c).rc = s.rd (Reg.cdcCtxRccfg c) ∧ t.flag (F.cdcCtxStatusRunning c) = true ∧ t.get (F.cdcCtxStatusPipe c) = p ∧
          t.cdc.ready.getD p 0 = s.time.uptime + if s.cdc.last.getD p none = some c then 0 else 16000))) ∧
  (∀ (s : State) (a p c : Nat) (v : Word),
    let x := s.ctxOf c
    let next := (s.get (F.cdcCtxCmdheadIndex c) + 1) % x.cmdRing
    (s.cdc.pipes.getD p none = none ∨ (s.cdc.pipes.getD p none = some c ∧ (x.cmd = none ∨ x.coded = false)) →
      exec (.cdcCommandComplete p) s = .next s) ∧
    (∀ d, s.cdc.pipes.getD p none = some c → p < 4 → c < 32 → x.cmd = some d → x.coded = true →
      Gives (exec (.cdcCommandComplete p) s) fun t =>
        let au := recField d 0x14 4
        t.get (F.cdcCtxCmdheadIndex c) = next ∧ t.get (F.cdcCtxStatusPics c) = (s.get (F.cdcCtxStatusPics c) + 1) % 2 ^ 16 ∧
        t.cdc.pipes.getD p none = none ∧ (t.ctxOf c).cmd = none ∧ t.flag (F.cdcCtxStatusRunning c) = false ∧ t.dram = s.dram ∧
        (cmdF d 0 2 1 = 1 → t.get (F.cdcCtxEventPicDone c) = 1) ∧ (bit x.due 0 = true → t.get (F.cdcCtxEventConcealed c) = 1) ∧
        (bit x.due 1 = true → t.get (F.cdcCtxEventOutDrop c) = 1) ∧ (bit x.due 2 = true → t.get (F.cdcCtxEventRcFloor c) = 1) ∧
        t.get (F.cdcCtxRdofsBytes c) = (if x.encoder ∨ cmdF d 0 3 1 = 0 then s.get (F.cdcCtxRdofsBytes c)
          else (au + ceilDiv (32 + ofBytesLE (s.ringRead x.inBase x.inSize au 4)) 64 * 64) % max 1 x.inSize)) ∧
    (c < 32 → s.writes a (Reg.cdcCtxStatus c) → ∀ i ∈ [Instr.cdcResume a c v, .cdcSkip a c v], Gives (exec i s) fun t =>
      let acts := s.flag (F.cdcCtxStatusHalted c) && (v.getLsbD 9 || v.getLsbD 10)
      t.cdc = s.cdc ∧ t.dram = s.dram ∧ t.icu = s.icu ∧
      (acts = true → t.flag (F.cdcCtxStatusHalted c) = false ∧ t.get (F.cdcCtxStatusErrcode c) = 0) ∧
      (acts = false → t.get (F.cdcCtxStatusHalted c) = s.get (F.cdcCtxStatusHalted c)) ∧
      t.get (F.cdcCtxCmdheadIndex c) = (if acts && v.getLsbD 10 then next else s.get (F.cdcCtxCmdheadIndex c))))

/-- CDC_DECODE and CDC_ENCODE (R328, R331, R333, R336 to R341, R346, R349 to R353): a pipe without a command of that direction, or whose
picture is coded, changes nothing; a parameter block or access unit that cannot be read, a picture that cannot be decoded, or a refused or
failing access halts the context with its code. A decoded picture ends at its time (log entry 155), takes its surface, becomes the
concealment reference when it is untainted, and leaves its events due; it changes no memory outside its surface where it has no output
action; an output action writes the next free slot and makes it the newest picture, or drops it. An encoded picture keeps its converted
input, takes its surface, leaves its record's length at WOFS, which moves past it, and the receiver's buffer follows, with filler in CBR;
its floor rows are counted and it joins the queue of its stream. What H.265 makes of a stream is a free function of its words, its data
and its references, and coded bits are free (log entries 100, 184). -/
def Obligations.PicturesAreCoded : Prop :=
  ∀ (s : State) (p c : Nat) (d : List Nat),
    let x := s.ctxOf c
    let k := cmdF d 0 4 4
    let mine := s.cdc.pipes.getD p none = some c ∧ c < 32 ∧ p < 4 ∧ x.cmd = some d ∧ x.coded = false
    let halted (e : Nat) (t : State) : Prop := t.flag (F.cdcCtxStatusHalted c) = true ∧ t.get (F.cdcCtxStatusErrcode c) = e ∧
      (t.ctxOf c).cmd = none ∧ t.cdc.pipes.getD p none = none ∧ t.get (F.cdcCtxEventCdcError c) = 1
    let ends (n : Nat) (t : State) : Prop := t.time.uptime = if s.still then s.time.uptime else max s.time.uptime (s.cdc.ready.getD p 0 + n)
    let idle (dir : Bool) : Prop := s.cdc.pipes.getD p none = none ∨
      (s.cdc.pipes.getD p none = some c ∧ (x.cmd = none ∨ x.coded = true ∨ x.encoder = !dir))
    let writes (a n : Nat) : Prop := s.cdcSpan c true 0 a n = none
    (∀ err copied f z used, idle false → exec (.cdcDecode p err copied f z used) s = .next s) ∧
    (∀ ctbs rows, idle true ∨ (mine ∧ (x.input d).granules.any (fun g => (x.got.lookup g).isNone) = true) →
      exec (.cdcEncode p ctbs rows) s = .next s) ∧
    (∀ err copied f z used, mine → x.encoder = false →
      let i := s.decoded x d err copied f z used
      let pic := (s.decodedPic c d i).1
      let surf (n : Nat) : Bool := (x.surfs.getD n (Pic.coded 0, false)).2
      let entry (n : Nat) : Nat := if n < 8 then nib d 0x18 n else nib d 0x1C (n % 8)
      let missing := used.any fun n => entry n == 15
      let concealed := missing || !copied.isEmpty
      let tainted := concealed || used.any fun n => entry n != 15 && surf (entry n)
      let read := s.streamError c d
      let out := pictureOutside i x
      let refs := s.surfError c (x.readSurfs d i)
      let good := read = none ∧ out = false ∧ err ≠ 5 ∧ refs = none ∧ x.ref ≠ some k
      let due (n : Nat) (t : State) : Prop := (t.ctxOf c).due = (x.due ||| if concealed then 1 else 0) ||| n
      Gives (exec (.cdcDecode p err copied f z used) s) fun t =>
        (∀ e a, read = some (e, a) → halted e t ∧ ends 0 t ∧ t.dram = s.dram) ∧
        (read = none → out = true → halted 3 t ∧ ends 0 t ∧ t.dram = s.dram) ∧
        (read = none → out = false → ends (max (ceilDiv (i.w * i.h * 1000000000) (s.unitRate 534773760))
          (ceilDiv (8 * (i.data.map List.length).sum * 1000000000) (s.unitRate 160000000))) t) ∧
        (read = none → out = false → err = 5 → halted 5 t ∧ t.dram = s.dram) ∧
        (∀ e a, read = none → out = false → err ≠ 5 → refs = some (e, a) → halted e t ∧ t.dram = s.dram) ∧
        (∀ e a, good → s.cdcSpan c true 0 (x.surfAddr k) x.surfSize = some (e, a) → halted e t) ∧
        (good → writes (x.surfAddr k) x.surfSize → cmdF d 0 8 3 = 0 →
          (t.ctxOf c).coded = true ∧ (t.ctxOf c).order = x.order + 1 ∧ (t.ctxOf c).cmd = some d ∧ due 0 t ∧
          (missing = true → t.get (F.cdcCtxMisspocPoc c) = recField d 0x24 4 % 2 ^ 32) ∧
          (t.ctxOf c).ref = (if tainted then x.ref else some k) ∧ (t.ctxOf c).surfs = x.surfs.set k (pic, tainted) ∧
          (s.localDead (x.surfAddr k) x.surfSize = false → t.dramRead (x.surfAddr k) x.surfSize = x.surfBytes pic) ∧
          ∀ b, b < x.surfAddr k ∨ x.surfAddr k + x.surfSize ≤ b → t.dramRead b 1 = s.dramRead b 1) ∧
        (good → writes (x.surfAddr k) x.surfSize → cmdF d 0 8 3 = 1 →
          match ((List.range x.nout).map fun n => (x.prev + 1 + n) % x.nout).find? fun n => !s.outTaken c n with
          | none => due 2 t ∧ t.get (F.cdcCtxStatusOutdrop c) = (s.get (F.cdcCtxStatusOutdrop c) + 1) % 2 ^ (F.cdcCtxStatusOutdrop c).width ∧
            t.producers = s.producers ∧ (t.ctxOf c).coded = true
          | some n =>
            let base := x.outBase + n * x.outStride
            let hdr := x.outBase + x.nout * x.outStride + 64 * n
            nib d 4 0 = k → k < x.surfs.length → s.localDead (x.surfAddr k) x.surfSize = false →
            s.cdcSpan c false 0 (x.surfAddr k) x.surfSize = none →
            (∀ y < i.height, writes (base + y * x.outPitch) (ceilDiv i.width 2 * 5)) → writes hdr 64 → s.localDead hdr 64 = false →
            due 0 t ∧ (t.ctxOf c).prev = n ∧ (t.ctxOf c).coded = true ∧ t.dramRead hdr 4 = bytesLE 4 (recField d 0x20 4) ∧
            (Tbl.get (fun _ => Producer.init) t.producers (256 + c)).newest.map (·.slot) = some n)) ∧
    (∀ ctbs rows, mine → x.encoder = true → (x.input d).granules.any (fun g => (x.got.lookup g).isNone) = false →
      let hdr := cmdF d 0x20 0 16
      let run := (x.rcRule d).run ctbs rows (8 * hdr)
      let len := min (hdr + (min (ceilDiv run.spent 8) (x.cap / 8) - hdr)) (x.cap / 8)
      let gain := x.rate * x.period
      let excess := x.full + gain - 8 * len * 1000000000 - x.cpb * 1000000000
      let all := len + if x.vbr = true ∨ excess = 0 then 0 else max 7 (ceilDiv excess 8000000000)
      let size := ceilDiv (32 + all) 64 * 64
      let o := s.get (F.cdcCtxWofsBytes c)
      let m := min size (x.outStride - o)
      let good := s.encodeError c d = none ∧ writes (x.surfAddr k) x.surfSize
      Gives (exec (.cdcEncode p ctbs rows) s) fun t =>
        ends (ceilDiv (x.width * x.height * 1000000000) (s.unitRate 500000000)) t ∧
        (∀ e a, s.encodeError c d = some (e, a) → halted e t ∧ t.dram = s.dram) ∧
        (∀ e a, s.encodeError c d = none → s.cdcSpan c true 0 (x.surfAddr k) x.surfSize = some (e, a) → halted e t) ∧
        (∀ e a, good → s.cdcSpan c true 0 (x.outBase + o) m = some (e, a) ∨
          (writes (x.outBase + o) m ∧ s.cdcSpan c true 0 x.outBase (size - m) = some (e, a)) → halted e t) ∧
        (good → writes (x.outBase + o) m → writes x.outBase (size - m) →
          t.get (F.cdcCtxWofsBytes c) = (o + size) % max 1 x.outStride % 2 ^ 32 ∧
          (t.ctxOf c).coded = true ∧ (t.ctxOf c).order = x.order + 1 ∧
          (t.ctxOf c).full = min (x.cpb * 1000000000) (x.full + gain - 8 * all * 1000000000) ∧
          (t.ctxOf c).src = (x.got.foldl (fun v e => v.hostSee (64 * e.1) e.2) s).encPlanes (x.input d) ∧
          (∃ id, (t.ctxOf c).surfs = x.surfs.set k (Pic.coded id, false)) ∧
          t.get (F.cdcCtxRcstatRows c) = run.rows % 2 ^ (F.cdcCtxRcstatRows c).width ∧
          (t.ctxOf c).due = (if run.rows = 0 then x.due else x.due ||| 4) ∧
          (s.flag (F.tspTxsEn c) = false → t.net = s.net) ∧
          (s.flag (F.tspTxsEn c) = true → ∃ data, data.length = all ∧ t.net.txq = s.net.txq ++ [(c, recField d 0x10 8, data)]) ∧
          (o + size ≤ x.outStride → s.localDead (x.outBase + o) size = false → t.dramRead (x.outBase + o) 4 = bytesLE 4 all)))

/-! ## The Wall Link (13), read-back and writeback -/

/-- STATUS_POLL, CREDIT, STATUS, POLL_ANSWER and LANE_RX_LOCK_CHANGE (R364 to R369): a return that is not received has no effect, a broken one
or one of no known type is counted; a message acts by its type, whichever command brings it: a poll waits for its answer on a lane that
sends, a credit sets the copies, a status shows in HUBSTAT and raises HUB_STATUS on a change; the answer carries the poll's tag and
DEVTIME; a change of lock shows and is raised. LANE_ENABLE, LANE_DISABLE, LANE_TRAINING_DONE and STANDBY_WRITE (R369, R370, R373): an
enabled lane takes MEDIA and PRECODE and starts with credit not tracked, an optical one at once and a copper one when it has trained; a
disabled lane sends no more and forgets its poll; a standby change is put down for the first tick it can reach. When a poll is held and
answered: log entry 103. -/
def Obligations.LanesCarryLinkMessages : Prop :=
  (∀ (s : State) (n : Nat) (msg : List Byte) (locked : Bool),
    let m := msg.map BitVec.toNat
    let hears := n < s.part.lanes ∧ s.domOn (29 + n) = true ∧ s.flag (F.wlkLaneStatRxlock n) = true
    let good := m.length = 17 ∧ crc16 (m.take 15) = ofBytesLE (m.drop 15)
    let type := m.getD 0 0
    let bad (t : State) : Prop := t.get (F.wlkLaneCtrlerrBad n) = (s.get (F.wlkLaneCtrlerrBad n) + 1) % 2 ^ 16 ∧ t.wlk = s.wlk
    let ident (t : State) : Nat × Nat × Nat :=
      (t.get (F.wlkLaneStatHubstate n), t.get (F.wlkLaneHubstatData n 0) / 256, t.get (F.wlkLaneHubstatData n 1) % 256)
    (∀ c ∈ [Instr.statusPoll n msg, .credit n msg, .status n msg],
      (¬ hears ∨ (good ∧ (type = 0 ∨ (type = 1 ∧ s.laneSends n = false))) → exec c s = .next s) ∧
      (hears → ¬ good → Gives (exec c s) fun t => bad t ∧ t.get (F.wlkLaneEventRxCrc n) = 1) ∧
      (hears → good → 3 < type → Gives (exec c s) fun t => bad t ∧ t.icu = s.icu) ∧
      (hears → good → type = 1 → s.laneSends n = true → exec c s =
        .next (s.setLane n { s.laneOf n with poll := some (ofBytesLE ((m.drop 1).take 2), s.time.uptime) })) ∧
      (hears → good → type = 2 →
        let kib (k : Nat) : Nat := field (ofBytesLE ((m.drop 1).take 14)) (14 * k) 14
        Gives (exec c s) fun t => t.laneOf n = { s.laneOf n with tracking := true, copies := (List.range 8).map fun k => 1024 * kib k } ∧
          (∀ k < 4, t.get (F.wlkLaneCreditSlota n k) = kib (2 * k) ∧ t.get (F.wlkLaneCreditSlotb n k) = kib (2 * k + 1))) ∧
      (hears → good → type = 3 → Gives (exec c s) fun t => t.wlk = s.wlk ∧
        t.get (F.wlkLaneStatHubstate n) = m.getD 1 0 % 4 ∧
        (∀ k < 3, t.get (F.wlkLaneHubstatData n k) = ofBytesLE ((List.range 4).map fun b => m.getD (4 * k + b + 1) 0)) ∧
        (ident t ≠ ident s → t.get (F.wlkLaneEventHubStatus n) = 1) ∧ (ident t = ident s → t.icu = s.icu))) ∧
    ((s.laneOf n).poll = none ∨ s.laneSends n = false → exec (.pollAnswer n) s = .next s) ∧
    (∀ tag at0, (s.laneOf n).poll = some (tag, at0) → s.laneSends n = true → Gives (exec (.pollAnswer n) s) fun t =>
      let frame := (s.laneOf n).frameFrom s.time.uptime
      (t.laneOf n).poll = none ∧ t.get (F.wlkLaneCtrlerrPolls n) = (s.get (F.wlkLaneCtrlerrPolls n) + 1) % 2 ^ 16 ∧
      t.get (F.wlkLanePollTag n) = tag % 2 ^ 16 ∧
      t.time.uptime = (if s.still then s.time.uptime else max s.time.uptime ((s.laneOf n).cellAt (80 * frame))) ∧
      ∃ b, t.out = s.out ++ [.laneMsg n frame (b ++ bytesLE 2 (crc16 b))] ∧ b.length = 15 ∧ b.take 3 = 1 :: bytesLE 2 tag ∧
        (b.drop 6).take 8 = bytesLE 8 t.now) ∧
    (s.part.lanes ≤ n ∨ s.domOn (29 + n) = false ∨ s.flag (F.wlkLaneStatRxlock n) = locked →
      exec (.laneRxLockChange n locked) s = .next s) ∧
    (n < s.part.lanes → s.domOn (29 + n) = true → s.flag (F.wlkLaneStatRxlock n) = !locked →
      Gives (exec (.laneRxLockChange n locked) s) fun t => t.flag (F.wlkLaneStatRxlock n) = locked ∧
        t.get ⟨Reg.wlkStatus, n, 1⟩ = ofBool locked ∧ t.get (F.wlkLaneEventLaneState n) = 1 ∧ t.wlk = s.wlk)) ∧
  (∀ (s : State) (a n : Nat) (v : Word),
    let u := s.store (Reg.wlkLaneCfg n) v
    let was := s.flag (F.wlkLaneCfgEn n)
    (n < 16 → s.writes a (Reg.wlkLaneCfg n) → ∀ c ∈ [Instr.laneEnable a n v, .laneDisable a n v],
      (was = false → v.getLsbD 0 = false → exec c s =
        .next (u.setLane n { s.laneOf n with media := v.getLsbD 1, precode := v.getLsbD 2 })) ∧
      (was = true → v.getLsbD 0 = true → exec c s = .next u) ∧
      (was = false → v.getLsbD 0 = true → Gives (exec c s) fun t =>
        (t.laneOf n).tracking = false ∧ (t.laneOf n).poll = none ∧ t.rd (Reg.wlkLaneCfg n) = u.rd (Reg.wlkLaneCfg n) ∧
        (t.laneOf n).media = v.getLsbD 1 ∧ (t.laneOf n).precode = v.getLsbD 2 ∧
        (v.getLsbD 1 = false → t.flag (F.wlkLaneStatTrained n) = true ∧ (t.laneOf n).since = s.now ∧ (t.laneOf n).outFrom = s.out.length) ∧
        (v.getLsbD 1 = true → t.flag (F.wlkLaneStatTrained n) = s.flag (F.wlkLaneStatTrained n))) ∧
      (was = true → v.getLsbD 0 = false → Gives (exec c s) fun t => t.flag (F.wlkLaneCfgEn n) = false ∧
        t.rd (Reg.wlkLaneCfg n) = u.rd (Reg.wlkLaneCfg n) ∧ (t.laneOf n).media = v.getLsbD 1 ∧ (t.laneOf n).precode = v.getLsbD 2 ∧
        t.flag (F.wlkLaneStatTrained n) = false ∧ (t.laneOf n).poll = none ∧ t.laneSends n = false ∧ t.out.length = s.out.length)) ∧
    (let trains := n < s.part.lanes ∧ s.domOn (29 + n) = true ∧ s.flag (F.wlkLaneCfgEn n) = true ∧
       (s.laneOf n).media = true ∧ s.flag (F.wlkLaneStatTrained n) = false
     (trains → Gives (exec (.laneTrainingDone n) s) fun t => t.flag (F.wlkLaneStatTrained n) = true ∧ (t.laneOf n).since = s.now ∧
       (t.laneOf n).tracking = (s.laneOf n).tracking ∧ t.out = s.out) ∧
     (¬ trains → exec (.laneTrainingDone n) s = .next s)) ∧
    (s.writes a Reg.wlkCtl → Gives (exec (.standbyWrite a v) s) fun t =>
      t.wlk.changes = s.wlk.changes ++ [((s.store Reg.wlkCtl v).standTick s.now 256 s.time.ticknum.toNat, v.getLsbD 0)] ∧
      (∀ o, t.rd o = (s.store Reg.wlkCtl v).rd o) ∧ t.wlk.base = s.wlk.base))

/-- BAND_PACKET_START, READBACK_ARM, READBACK_DONE, READBACK_CANCEL and WRITEBACK_BAND (R23, R99, R134, R135, R281, R361 to R363, R373, R455):
the oldest sent band whose packet has not begun goes out on a lane that sends, from the first cell of its slots that comes and that no
packet of the head holds, with its header and packed payload but for an injected fault, an armed read-back of it captures it, and it is
discarded on a lane that does not send; a captured packet leaves its signature; a
write with CANCEL disarms, one with ARM alone arms. A band is written back once its last line is fixed (log entry 64): the granules of its
padded lines that are granted and reach live memory stand in their buffer, and the end of a sub-frame moves to the next buffer and is
signalled when its writes are visible; a missed band makes it incomplete. -/
def Obligations.SentBandsLeaveTheDevice : Prop :=
  ∀ (s : State) (a h n : Nat) (v : Word),
    let next := (s.headOf h).sent.find? fun x => !x.started
    let started (l : List Sent) (z : Sent) := l.map fun y => if y == z then { y with started := true } else y
    (next = none → exec (.bandPacketStart h) s = .next s) ∧
    (∀ x, next = some x →
      let lane := laneOfHead h x.cfg
      let sends := s.laneSends lane && (s.laneOf lane).since ≤ x.deadline
      let payload := packBand x.cfg x.image
      let cells := packetCells (packetHeader h (s.standAt x.tick) x.cfg x payload.length) payload
      let injected := (s.inject lane).2
      let first := slotCell x.cfg.slots (max ((s.laneOf lane).cellFrom s.time.uptime) (s.cellFree h lane))
      (sends = false → exec (.bandPacketStart h) s = .next (s.setHead h { s.headOf h with sent := started (s.headOf h).sent x })) ∧
      (sends = true → Gives (exec (.bandPacketStart h) s) fun t => t.dram = s.dram ∧
        t.time.uptime = (if s.still then s.time.uptime else max s.time.uptime ((s.laneOf lane).cellAt first)) ∧
        (t.headOf h).sent.map (fun y => { y with pkt := none }) =
          (started (s.headOf h).sent x).map (fun y => { y with pkt := none }) ∧
        (∃ l cs l', t.out = s.out ++ l ++ [.packet lane x.cfg.slots first cs] ++ l' ∧ cs.length = cells.length ∧
          (injected = none → cs = cells) ∧ (∀ w, injected = some (0, w) → cs = idleCells cells)) ∧
        (h < 128 → injected = none → s.flag (F.headRbctlArm h) = true → (s.headOf h).capture = none → s.get (F.headRbctlPhase h) = x.phase →
          s.get (F.headRbctlBand h) = x.j → (t.headOf h).capture = some (x.tick, unpackBand x.cfg x.image.length payload)))) ∧
    (h < 128 → s.writes a (Reg.headRbctl h) → ∀ c ∈ [Instr.readbackArm a h v, .readbackCancel a h v], Gives (exec c s) fun t =>
      t.get (F.headRbctlPhase h) = (s.store (Reg.headRbctl h) v).get (F.headRbctlPhase h) ∧
      t.get (F.headRbctlBand h) = (s.store (Reg.headRbctl h) v).get (F.headRbctlBand h) ∧
      (v.getLsbD 1 = true → t.flag (F.headRbctlArm h) = false ∧ (t.headOf h).capture = none) ∧
      (v.getLsbD 0 = true → v.getLsbD 1 = false → t.flag (F.headRbctlArm h) = true ∧ t.flag (F.headRbctlDone h) = false ∧
        (t.headOf h).capture = none) ∧
      (v.getLsbD 0 = false → v.getLsbD 1 = false → t = s.store (Reg.headRbctl h) v)) ∧
    ((s.headOf h).capture = none → exec (.readbackDone h) s = .next s) ∧
    (∀ k image, (s.headOf h).capture = some (k, image) → h < 128 → Gives (exec (.readbackDone h) s) fun t =>
      t.rd64 (Reg.headRbsigLo h) = crc64 image % 2 ^ 64 ∧ t.flag (F.headRbctlArm h) = false ∧ t.flag (F.headRbctlDone h) = true ∧
      t.get (F.headRbctlTicklo h) = k % 2 ^ 12 ∧ t.get (F.headEventReadbackDone h) = 1 ∧ (t.headOf h).capture = none) ∧
    (∀ ok, let p := s.wbOf n
      let w := p.cfg
      let band := (s.headOf w.head).sent.find? fun x =>
        w.takes x.phase && (match p.past with | some k => keyLt k x.key | none => true)
      (w.en = false ∨ 16 ≤ n ∨ (s.headOf w.head).cfg.clone = true ∨ (band.bind (·.fixedAt)) = none →
        exec (.writebackBand n ok) s = .next s) ∧
      (∀ x tm, n < 16 → w.en = true → (s.headOf w.head).cfg.clone = false → band = some x → x.fixedAt = some tm → p.due = none →
        p.ends = [] → (s.cxl.writes.any fun y => y.use == .writeback n) = false →
        let agent := (s.headOf w.head).agent
        let at' (i : Nat) := w.addr + p.k * w.stride.toNat + x.j * x.cfg.bandLines * w.pitchB + i * w.pitchB
        let line (i : Nat) := lineImage x.cfg (x.image.getD i [])
        let size (i : Nat) := (line i).length
        let takes (q : Nat × Nat) := s.granted agent true w.dest q.1 q.2 = true ∧ (w.dest ≠ 1 → s.localDead q.1 q.2 = false)
        let written := ok = true ∧ ∀ i < x.image.length, ∀ q ∈ pieces (at' i) (size i), takes q
        let missed := p.missed = true ∨ x.j ≠ 0 ∨ ¬ written
        Gives (exec (.writebackBand n ok) s) fun t =>
          t.time.uptime = (if s.still then s.time.uptime else max s.time.uptime tm) ∧ (ok = false → t.dram = s.dram) ∧
          (x.last = false → (t.wbOf n).due = some x.key ∧ (t.wbOf n).k = p.k ∧ ((t.wbOf n).missed = true ↔ missed)) ∧
          (x.last = true → (t.wbOf n).k = (p.k + 1) % max 1 w.nbuf ∧ (t.wbOf n).due = none ∧ (t.wbOf n).past = some x.key) ∧
          (x.last = true → w.dest = 0 ∨ ok = false → t.get (F.fltWbStatusWbDone n) = 1 ∧
            (t.flag (F.fltWbStatusIncomplete n) = true ↔ missed) ∧ (missed → t.get (F.fltWbStatusWbIncomplete n) = 1)) ∧
          (ok = true → w.dest = 0 → (∀ i < x.image.length, size i ≤ w.pitchB) → ∀ i < x.image.length, ∀ q ∈ pieces (at' i) (size i),
            takes q → t.dramRead q.1 q.2 = (((line i).drop (q.1 - at' i)).take q.2).map (· % 256)) ∧
          (x.last = true → written → w.dest = 1 → x.image ≠ [] → 0 < size 0 →
            (t.wbOf n).ends.map (fun e => (e.tick, e.phase, e.buf)) = [(x.tick, x.phase, p.k)] ∧
            (t.cxl.writes.any fun y => y.use == .writeback n) = true)))

/-! ## Interrupts (14) -/

/-- DOORBELL, CLAIM, COMPLETE and PENDING_WRITE (R378 to R380, R384 to R386, R391): a doorbell sets the bit of the source it names or is
counted; a claim takes the best source, clears its bit and holds it at its level, or is counted, and a refused one reads 0; a complete
frees the level that holds its source, or is counted; a write of a PENDING word replaces its bits; every request line follows its
qualifying sources but while Midnight retains the controller; and a target or a word that does not exist is left alone (model's choice,
log entry 20). -/
def Obligations.InterruptsAreSignalledAndClaimed : Prop :=
  ∀ (s : State) (a t w : Nat) (v : Word),
    let n := v.toNat % 1024
    let lines (x : State) := ∀ k < 8, x.flag (F.icuTgtStatLine k) = (x.best k).isSome
    (s.writes a Reg.icuDoorbell → 0 < n → n ≤ 1020 → Gives (exec (.doorbell a v) s) fun x =>
      x.get ⟨Reg.icuPending (n / 32), n % 32, 1⟩ = 1 ∧ x.get F.icuStatusLastdb = n ∧ (s.icuRetained = false → lines x)) ∧
    (s.writes a Reg.icuDoorbell → n = 0 ∨ 1020 < n → exec (.doorbell a v) s = .next (s.bump F.icuStatusDbign)) ∧
    (t < 8 → s.access a false (Reg.icuTgtClaim t) 15 = .ok → Gives (exec (.claim a t) s) fun x =>
      match s.best t with
      | some (m, p) => x.lastRead = claimWord m p ∧ x.get ⟨Reg.icuPending (m / 32), m % 32, 1⟩ = 0 ∧
          Tbl.get (fun _ => 0) x.icu.serv (16 * t + p) = m ∧ (s.icuRetained = false → lines x)
      | none => x.lastRead = 0 ∧ x.get (F.icuTgtStatSpur t) = (s.get (F.icuTgtStatSpur t) + 1) % 256 ∧ x.icu = s.icu) ∧
    (t < 8 → s.access a false (Reg.icuTgtClaim t) 15 ≠ .ok → Gives (exec (.claim a t) s) fun x => x.lastRead = 0 ∧
      x.icu.serv = s.icu.serv) ∧
    (t < 8 → s.writes a (Reg.icuTgtComplete t) → Gives (exec (.complete a t v) s) fun x =>
      match s.levelOf t n with
      | some k => Tbl.get (fun _ => 0) x.icu.serv (16 * t + k) = 0 ∧ (s.icuRetained = false → lines x)
      | none => x.get (F.icuTgtStatBadcomp t) = (s.get (F.icuTgtStatBadcomp t) + 1) % 2 ^ 16 ∧ x.icu = s.icu) ∧
    (8 ≤ t → exec (.claim a t) s = .next s ∧ exec (.complete a t v) s = .next s) ∧ (32 ≤ w → exec (.pendingWrite a w v) s = .next s) ∧
    (w < 32 → s.writes a (Reg.icuPending w) → Gives (exec (.pendingWrite a w v) s) fun x =>
      x.rd (Reg.icuPending w) = v &&& sourceBits w ∧ (s.icuRetained = false → lines x))

/-! ## Power and thermal limits (15) -/

/-- DOMAIN_REQUEST and DOMAIN_CHANGE (R6, R396 to R398): a request is stored, but for the bits of absent units, which raise ABSENT_UNIT, and
DOMBUSY says that changes remain; the lowest change that can be made switches its domain on, is refused with its reason, or switches the
domain off, whereupon its registers are at their reset values; with none left PWR_DOMAIN is raised. ABSENT_UNIT is no source that can
signal in Midnight. The bits of absent units and a change
after a trip are the model's readings (log entry 119). -/
def Obligations.PowerDomainsChange : Prop :=
  ∀ (s : State) (a w d : Nat) (v : Word),
    let ok (d : Nat) : Bool := s.domWanted d || s.offReason d != 0 || !s.offDeferred d
    (w < 3 → s.writes a (Reg.pwrDomctl w) → Gives (exec (.domainRequest a w v) s) fun t =>
      t.rd (Reg.pwrDomctl w) = v &&& BitVec.ofNat 32 (domReset s.part w) ∧ (∀ k < 84, t.domOn k = s.domOn k) ∧
      t.flag F.pwrStatusDombusy = !t.domChanges.isEmpty ∧
      (s.flag F.pwrStatusDombusy = true → t.domChanges = [] → t.get F.pwrEventPwrDomain = 1) ∧
      ((∃ i < 32, v.getLsbD i = true ∧ 32 * w + i < 84 ∧ s.part.domainPresent (32 * w + i) = false) → s.get F.pwrStatusState ≠ 3 →
        t.get ⟨Reg.icuPending 29, 22, 1⟩ = 1)) ∧
    (3 ≤ w → exec (.domainRequest a w v) s = .next s) ∧
    (s.takesWork = false ∨ s.pwr.tripped = true → exec .domainChange s = .next s) ∧
    (s.takesWork = true → s.pwr.tripped = false → s.domChanges.find? ok = none → Gives (exec .domainChange s) fun t =>
      t.flag F.pwrStatusDombusy = !s.domChanges.isEmpty ∧ (∀ k < 84, t.domOn k = s.domOn k ∧ t.domWanted k = s.domWanted k) ∧
      (s.flag F.pwrStatusDombusy = true → s.domChanges = [] → t.get F.pwrEventPwrDomain = 1)) ∧
    (s.takesWork = true → s.pwr.tripped = false → s.domChanges.find? ok = some d → Gives (exec .domainChange s) fun t =>
      t.flag F.pwrStatusDombusy = !t.domChanges.isEmpty ∧
      (s.flag F.pwrStatusDombusy = true → t.domChanges = [] → t.get F.pwrEventPwrDomain = 1) ∧ t.dram = s.dram ∧
      (s.domWanted d = true → t.domOn d = true) ∧
      (s.domWanted d = false → s.offReason d ≠ 0 → t.domOn d = true ∧ t.domWanted d = true ∧
        t.get F.pwrRefuseReason = s.offReason d ∧ t.get F.pwrRefuseDomain = d ∧ t.get F.pwrEventPwrRefused = 1) ∧
      (s.domWanted d = false → s.offReason d = 0 → t.domOn d = false ∧
        ∀ off < 0x4000000, domainAt off = d → t.rd off = resetWord s.part off))

/-- MIDNIGHT_ENTER, MIDNIGHT_ENTRY_DONE, MIDNIGHT_WAKE, WAKE_TIME, GPIO_WAKE, WAKE_RESTORE and WAKE_COMPLETE (R401 to R406): Midnight is
entered unless a reason forbids it; once in force DRAM refreshes itself and only the always-on and CXL domains are on; a wake cause
starts wake, or waits for the entry to complete; wake restores the clocks, DRAM that no freeze holds and the management cores, and ends
with the requested domains on; after a trip none of it happens. What Midnight keeps beside R403's registers, ENTER while Midnight is being entered, and a wake time that is past are the
model's readings (log entries 124 to 126). -/
def Obligations.MidnightIsEnteredAndLeft : Prop :=
  ∀ (s : State) (a pin : Nat) (v : Word),
    let st := s.get F.pwrStatusState
    let tm := s.rd64 Reg.pwrWaketimeLo
    let wakes (o : Host.Outcome State Fault Refusal) := Gives o fun t =>
      (st = 3 → s.pwr.tripped = false → t.get F.pwrStatusState = 4) ∧
      (st = 2 → s.pwr.tripped = false → t.get F.pwrStatusState = 2 ∧ t.pwr.wakePend = true) ∧
      (s.pwr.tripped = true → t.regs = s.regs ∧ t.pwr = s.pwr) ∧
      (st ≠ 2 → st ≠ 3 → t = s)
    (∀ c ∈ [Instr.midnightEnter a v, .midnightWake a v], s.writes a Reg.pwrMidnight →
      (v.getLsbD 0 = true → s.takesWork = true → Gives (exec c s) fun t =>
        (s.midnightReason = 0 → t.get F.pwrStatusState = 2 ∧ t.pwr.wakePend = (v.getLsbD 1 && !s.pwr.tripped)) ∧
        (s.midnightReason ≠ 0 → t.get F.pwrStatusState = st ∧ t.get F.pwrMidnightRefuse = s.midnightReason ∧
          t.get F.pwrEventMidnightRefused = 1)) ∧
      (v.getLsbD 0 = false ∨ s.takesWork = false → v.getLsbD 1 = true → wakes (exec c s)) ∧
      (v.getLsbD 0 = false ∨ s.takesWork = false → v.getLsbD 1 = false → exec c s = .next s)) ∧
    (st ≠ 2 ∨ s.pwr.tripped = true → exec .midnightEntryDone s = .next s) ∧
    (st = 2 → s.pwr.tripped = false → Gives (exec .midnightEntryDone s) fun t => t.dram = s.dram ∧ t.get F.pwrStatusState = (if s.pwr.wakePend then 4 else 3) ∧
      (∀ n < s.part.channels, t.flag (F.dmcChStatusSelfref n) = true) ∧ (∀ k < 8, t.flag (F.icuTgtStatLine k) = false) ∧
      (∀ d < 84, t.domOn d = ((d == 0 || d == 69 || d == 70) && s.domOn d)) ∧
      (∀ off < 0x4000000, midnightKeeps off = false → t.rd off = resetWord s.part off) ∧ t.groups = [] ∧ t.accepted = []) ∧
    (s.flag F.pwrWakecfgTime = true → st = 2 ∨ st = 3 → s.now ≤ tm → wakes (exec .wakeTime s) ∧
      Gives (exec .wakeTime s) fun t => s.still = false → t.now = tm) ∧
    (s.flag F.pwrWakecfgTime = false ∨ (st ≠ 2 ∧ st ≠ 3) ∨ tm < s.now → exec .wakeTime s = .next s) ∧
    (pin < 16 → bit (s.get F.pwrWakecfgGpio) pin = true → wakes (exec (.gpioWake pin) s)) ∧
    (16 ≤ pin ∨ bit (s.get F.pwrWakecfgGpio) pin = false → exec (.gpioWake pin) s = .next s) ∧
    (st ≠ 4 ∨ s.pwr.restored = true ∨ s.pwr.tripped = true → exec .wakeRestore s = .next s) ∧
    (st = 4 → s.pwr.restored = false → s.pwr.tripped = false → Gives (exec .wakeRestore s) fun t => t.pwr.restored = true ∧
      t.flag F.clkStatusCmdllLock = true ∧ t.flag F.clkStatusSmdllLock = true ∧
      (s.frozen = false → ∀ n < s.part.channels, t.flag (F.dmcChStatusSelfref n) = false) ∧
      ∀ k < 4, s.domWanted (73 + k) = true → (t.mgmtOf k).on = true ∧
        (t.mgmtOf k).pc = (if s.get F.pwrWakevecAddr / 8 * 8 = 0 then s.startAddr k else s.get F.pwrWakevecAddr / 8 * 8)) ∧
    (st ≠ 4 ∨ s.pwr.restored = false ∨ s.pwr.tripped = true → exec .wakeComplete s = .next s) ∧
    (st = 4 → s.pwr.restored = true → s.pwr.tripped = false → Gives (exec .wakeComplete s) fun t => t.get F.pwrStatusState = 0 ∧
      t.get F.pwrEventMidnightWake = 1 ∧ t.pwr.restored = false ∧ t.flag F.pwrStatusDombusy = !t.domChanges.isEmpty ∧
      ∀ w < 3, t.rd (Reg.pwrDomstat w) = s.rd (Reg.pwrDomstat w) ||| s.rd (Reg.pwrDomctl w))

/-- ENERGY_BUCKET_UPDATE, SENSOR_SAMPLE, SHED_STEP, DUSKEXIT and THERMAL_TRIP (R407, R409, R411, R412, R414 to R416): the bucket drains
above 65 W in Noon and fills otherwise, Noon's entry and end become due by its conditions, and a due end is made; each sensor's reading
shows, one outside its range is a fault, the junction temperature is the highest of the others, and with four faulted the stage is 3; the
shed level moves with the stage; thermal Dusk ends by command below stage 3; a trip switches everything off but the always-on domain.
That a trip starts from the commanded sensor and the times of these commands are the model's readings (log entries 121 to 124). -/
def Obligations.EnergyAndHeatAreWatched : Prop :=
  ∀ (s : State) (a w k : Nat) (v : Word) (vals : List Int) (x : Int),
    let stage := s.get F.thmStatusStage
    let at' (due : Nat) : Nat := if s.still then s.time.uptime else max s.time.uptime due
    let due := s.pwr.shedAt + max 1 (s.get F.thmShedStep) * 1000000
    (Gives (exec (.energyBucketUpdate w) s) fun t =>
      t.pwr.energy = (if s.get F.pwrStatusState = 1 then s.pwr.energy - 10 * (min w 0xFFF - 1040)
        else min 5440000000 (s.pwr.energy + 272)) ∧
      t.get F.pwrPestW16 = min w 0xFFF ∧ t.get F.pwrPestPeak = max (s.get F.pwrPestPeak) (min w 0xFFF) ∧
      t.pwr.bucketAt = s.pwr.bucketAt + 1000 ∧ t.time.uptime = at' (s.pwr.bucketAt + 1000) ∧
      (t.pwr.energy ≤ 5440000000 → t.get F.pwrEbucketMj = t.pwr.energy / 160000) ∧
      (s.get F.pwrStatusState = 1 → s.pwr.noonPend = none → s.noonFails ≠ 0 ∨ t.pwr.energy = 0 →
        t.get F.pwrNoonExitcause = (if s.noonFails = 0 then 1 else s.noonFails) ∧
        (t.pwr.noonPend = some false ∨ t.get F.pwrStatusState = 0)) ∧
      (s.get F.pwrStatusState = 0 → s.pwr.noonPend = none → t.noonFails = 0 → s.noonMin * 160000000 ≤ t.pwr.energy →
        t.pwr.noonPend = some true ∨ t.get F.pwrStatusState = 1) ∧
      (s.get F.pwrStatusState = 1 → s.pwr.noonPend = some false → s.pwr.noonAt + 2000 ≤ t.time.uptime →
        t.get F.pwrStatusState = 0 ∧ t.get F.pwrEventNoonChange = 1)) ∧
    (Gives (exec (.sensorSample vals) s) fun t => t.pwr.sampleAt = s.pwr.sampleAt + 10000 ∧ t.dram = s.dram ∧
      t.time.uptime = at' (s.pwr.sampleAt + 10000) ∧
      (∀ k < 16, -2048 ≤ vals.getD k 0 → vals.getD k 0 < 2048 → signed 12 (t.get (F.thmSensValue k)) = vals.getD k 0) ∧
      (∀ k < 16, vals.getD k 0 < -320 ∨ 1200 < vals.getD k 0 → bit (t.get F.thmSensfaultFault) k = true) ∧
      let good := (List.range 16).filter fun k => !bit (t.get F.thmSensfaultFault) k
      let tj := signed 12 (t.get F.thmTjCur)
      ((∀ k < 16, -2048 ≤ vals.getD k 0 ∧ vals.getD k 0 < 2048) → good ≠ [] →
        (∀ k ∈ good, vals.getD k 0 ≤ tj) ∧ ∃ k ∈ good, vals.getD k 0 = tj) ∧
      (good.length ≤ 12 → t.get F.thmStatusStage = 3) ∧
      (12 < good.length → t.get F.thmStatusStage =
        (List.range 3).foldl (fun a i => if t.pwr.reached.getD i false then i + 1 else a) 0)) ∧
    (2 ≤ stage → s.pwr.shedL < 8 → Gives (exec .shedStep s) fun t => t.pwr.shedL = s.pwr.shedL + 1 ∧
      t.get F.thmShedLevel = t.shedLevel % 16 ∧ t.pwr.shedAt = due ∧ t.time.uptime = at' due) ∧
    (stage < 2 → s.pwr.shedL ≠ 0 → Gives (exec .shedStep s) fun t => t.pwr.shedL = s.pwr.shedL - 1 ∧
      t.get F.thmShedLevel = t.shedLevel % 16 ∧ t.pwr.shedAt = due ∧ t.time.uptime = at' due) ∧
    (2 ≤ stage ∧ 8 ≤ s.pwr.shedL ∨ stage < 2 ∧ s.pwr.shedL = 0 → exec .shedStep s = .next s) ∧
    (s.writes a Reg.thmCtl → v.getLsbD 0 = true → stage ≠ 3 → s.flag F.pwrStatusDuskThm = true → Gives (exec (.duskexit a v) s) fun t =>
        t.flag F.pwrStatusDuskThm = false ∧
        t.inDusk = (s.inDusk && (s.flag F.pwrStatusDuskClk || s.flag F.pwrStatusDuskFrz))) ∧
    (s.writes a Reg.thmCtl → v.getLsbD 0 = false ∨ stage = 3 ∨ s.flag F.pwrStatusDuskThm = false →
      exec (.duskexit a v) s = .next s) ∧
    (k < 16 → 1000 ≤ x → x < 2048 → Gives (exec (.thermalTrip k x) s) fun t => t.pwr.tripped = true ∧
      t.flag F.thmTriprecTripped = true ∧ signed 12 (t.get F.thmTriprecTj) = x ∧ (∀ d, 0 < d → d < 84 → t.domOn d = false) ∧
      (∀ off, 0x80000 ≤ off → off < 0x4000000 → t.rd off = resetWord s.part off) ∧ t.dmc = DmcSt.init ∧
      t.cxl = CxlSt.init ∧ t.groups = []) ∧
    (16 ≤ k ∨ x < 1000 → exec (.thermalTrip k x) s = .next s)

/-! ## The redundant pair (16) -/

/-- MIRROR_WRITE, MIRROR_COMMIT, MIRROR_RESULT, MIRROR_FENCE, MIRROR_POSE_RECORD, MIRROR_TIME, MIRROR_FLATTEN and MIRROR_HEARTBEAT (R422 to
R431, R434): a device of no pair, or with no lane locked, takes no message, nor one that the injector drops, nor one whose number has
passed; the first message since EN was set starts the sequence; a primary takes heartbeats only, but for what its predecessor took before
a swap; a gap in the numbers ends SYNC; and a standby that receives the next one applies it: a forwarded write is stored, but in a domain
that is off, a commit word waits for its result and goes with it, a difference of results is recorded, a fence value and a pose record are
taken, the first time message locks its time and later ones show what remains, flatten state is noted, and a heartbeat shows the peer
present. The numbers passed, the commit's validation and the words that stay as they are follow the model's readings (log entries 106 and
109). -/
def Obligations.StandbysFollowTheirPrimary : Prop :=
  ∀ (s u : State) (a n k off code offend p : Nat) (v : Word) (r : List Byte) (b : Bool) (c : Option (Nat × Nat)),
    let q := s.mir.inSeq
    let d := (k + 2 ^ 32 - q) % 2 ^ 32
    let t' : State := { s with mir := { s.mir with inSeq := (q + 1) % 2 ^ 32, heard := true, lost := false } }
    let next (o : Host.Outcome State Fault Refusal) (P : State → Prop) := Gives o fun t => t.mir.inSeq = (q + 1) % 2 ^ 32 ∧ P t
    let items (k : Nat) : List Instr := [.mirrorWrite k a off v, .mirrorCommit k a b v n, .mirrorResult k c code offend,
      .mirrorFence k n code offend, .mirrorPoseRecord k n r offend, .mirrorTime k n, .mirrorFlatten k n b]
    let beat (k : Nat) : Instr := .mirrorHeartbeat k n off
    let cmask := 0x40210 ≤ off ∧ off < 0x40220
    let takes := mirrored off = true ∧ absentAt s.part off = false ∧ s.domOn (domainAt off) = true
    (s.paired = false ∨ s.mirrorLanes = [] → ∀ m ∈ beat k :: items k, exec m s = .next s) ∧
    (s.paired = true → s.mirrorLanes ≠ [] → s.mirrorInject 0 = (u, some (p, 0, code)) → u.finj.held = [] →
      ∀ m ∈ beat k :: items k, exec m s = .next u) ∧
    (s.paired = true → s.mirrorLanes ≠ [] → s.mirrorInject 0 = (s, none) → s.finj.held = [] → q < 2 ^ 32 →
      (2 ^ 31 ≤ d → s.mir.heard = true → s.mir.lost = false → ∀ m ∈ beat k :: items k, exec m s = .next s) ∧
      (∀ m ∈ [Instr.mirrorFence k n code offend, .mirrorPoseRecord k n r offend, .mirrorFlatten k n b, beat k], k < 2 ^ 32 →
        (0 < d → d < 2 ^ 31 ∨ s.mir.lost = true → s.mir.heard = true → s.standby = true → Gives (exec m s) fun t =>
          t.mir.inSeq = (k + 1) % 2 ^ 32 ∧ t.flag F.mirStatSync = false ∧ t.get F.mirEventMirDesync = 1) ∧
        (s.mir.heard = false → Gives (exec m s) fun t =>
          t.mir.inSeq = (k + 1) % 2 ^ 32 ∧ t.mir.heard = true ∧ t.flag F.mirStatSync = s.flag F.mirStatSync)) ∧
      (s.standby = false → s.mir.tail = false → ∀ m ∈ items q, exec m s = .next t') ∧
      (next (exec (beat q) s) fun t => t.mir.hbSeen = s.now ∧ t.mir.hbGot = some (n, off) ∧ t.get F.mirStatMissed = 0 ∧
        t.flag F.mirStatPeer = true ∧ t.mir.peerOn = true) ∧
      (s.standby = true →
        (mirrored off = false ∨ absentAt s.part off = true → exec (.mirrorWrite q a off v) s = .next t') ∧
        (mirrored off = true → absentAt s.part off = false → s.domOn (domainAt off) = false →
          exec (.mirrorWrite q a off v) s = .next (t'.deny .off 12 true off)) ∧
        (takes → ¬ cmask → rwPairLo off = false → rwPairLo (off - 4) = false →
          exec (.mirrorWrite q a off v) s = .next (t'.store off v)) ∧
        (takes → ¬ cmask → rwPairLo off = true → next (exec (.mirrorWrite q a off v) s) fun t =>
          t.regs = s.regs ∧ halfAt t.heldLo (halfKey a off) = some v) ∧
        (∀ lo, takes → ¬ cmask → 4 ≤ off → rwPairLo off = false → rwPairLo (off - 4) = true →
          halfAt s.heldLo (halfKey a (off - 4)) = some lo → next (exec (.mirrorWrite q a off v) s) fun t =>
            t.regs = ((s.store (off - 4) (lowHalf (off - 4) lo)).store off v).regs) ∧
        (cmask → takes → exec (.mirrorWrite q a off v) s = .next (t'.storeAt (bank a off) off v)) ∧
        ((s.cmask a).filter (· < s.part.heads) = [] → exec (.mirrorCommit q a false v n) s =
          .next ((if s.cmask a = [] then t' else t'.signal 950).recordCommit a (v.toNat % 65536) 0 false none none)) ∧
        ((s.cmask a).filter (· < s.part.heads) ≠ [] → next (exec (.mirrorCommit q a false v n) s) fun t =>
          t.commits = s.commits + 1 ∧ ∃ x own, t.mir.waiting = s.mir.waiting ++ [⟨some x, own, a⟩] ∧ x.seq = v.toNat % 65536) ∧
        (next (exec (.mirrorCommit q a true v n) s) fun t =>
          t.time.armed.isSome = true ∧ ∃ own, t.mir.waiting = s.mir.waiting ++ [⟨none, own, a⟩]) ∧
        (∀ m x, s.mir.waiting = [m] → m.commit = some x → m.agent = a → code < 16 →
          next (exec (.mirrorResult q (some (a, x.seq)) code offend) s) fun t => t.mir.waiting = [] ∧
            (code ≠ m.own → t.get F.mirDivergePcode = code ∧ t.get F.mirDivergeScode = m.own % 16 ∧ t.get F.mirEventMirDiverge = 1) ∧
            (t.get (bankFld a F.tickCstatSeq) = x.seq % 2 ^ 16 ∧ t.get (bankFld a F.tickCstatCode) = code) ∧
            (code = 0 → (∀ h ∈ x.mask, (s.headOf h).latchTick ≤ x.target) → x ∈ t.accepted) ∧
            (code ≠ 0 → t.accepted = s.accepted)) ∧
        (s.mir.waiting = [] → exec (.mirrorResult q c code offend) s = .next t') ∧
        (n < 1024 → next (exec (.mirrorFence q n k offend) s) fun t => t.get (F.layerFenceValue n) = k % 2 ^ 16 ∧
          (t.fenceOf n).stamp = offend) ∧
        (1024 ≤ n → exec (.mirrorFence q n k offend) s = .next t') ∧
        (s.now ≤ offend + s.get F.mirCfgPdly → exec (.mirrorPoseRecord q n r offend) s =
          .next (t'.poseHistory n (r.map BitVec.toNat) offend)) ∧
        (offend + s.get F.mirCfgPdly < s.now → next (exec (.mirrorPoseRecord q n r offend) s) fun t =>
          t.get F.mirEventMirPlate = 1 ∧ t.get F.mirCountPlate = (s.bump F.mirCountPlate).get F.mirCountPlate ∧
          (t.poseSrc n).recs = ((s.poseHistory n (r.map BitVec.toNat) offend).poseSrc n).recs) ∧
        (let rest : Int := (s.now : Int) - (n + s.get F.mirStatOwd : Nat)
         next (exec (.mirrorTime q n) s) fun t => t.mir.locked = (s.mir.locked || !s.anyTransmitting) ∧
          (s.mir.locked = false → s.anyTransmitting = false → t.get F.mirTerrNs = 0 ∧ t.now = (n + s.get F.mirStatOwd) % 2 ^ 64) ∧
          (s.mir.locked = true ∨ s.anyTransmitting = true → t.now = s.now ∧
            signed 16 (t.get F.mirTerrNs) = max (-32768) (min 32767 rest))) ∧
        (next (exec (.mirrorFlatten q n b) s) fun t => t.mir.flat.contains n = b ∧ (b = false → t.regs = s.regs) ∧
          (b = true → n < s.part.heads → ∀ f ∈ t.surfaces, f.head = n → f.valid = true → f.inUse = true))))

/-- HEARTBEAT_SEND, HEARTBEAT_MISS, SWAP, MIRROR_TIME_SEND and MIRROR_LANE_LOCK_CHANGE (R422 to R424, R429, R431 to R433, R436): heartbeats
and times take the next sequence number at their instants; the third miss loses the peer, and a synchronised standby then takes over; a
write of MIR.CTL stores EN and, while EN is 0, ROLE, enabling starts the link anew and disabling drops what is pending; a swap sets the
tick at which the roles change, or is ignored with its event, and a peer's own replaces one pending on a standby; a change of lock shows and is raised, and a lock gained measures the one-way delay, a free value. The instant of
a miss, what enabling starts, the peer's request and the measured delay are the model's choices or readings (log entries 107, 108, 110 and
157). -/
def Obligations.PairsBeatSwapAndTakeOver : Prop :=
  ∀ (s : State) (a n : Nat) (w : Word64) (locked : Bool),
    let v : Word := w.setWidth 32
    let m := s.get F.mirStatMissed
    let q := (s.mir.outSeq + 1) % 2 ^ 32
    let u := effMirCtl (v &&& 0xFFFFFFFB) s
    let at' (x : Nat) : Nat := (s.advanceTo x).now
    let swapped (s t : State) (w : Nat) := t.mir.swapTick = some (s.standTick w 256 s.time.ticknum.toNat) ∧ t.flag F.mirCtlSwap = true ∧
      (s.standTick w 256 s.time.ticknum.toNat, s.get F.mirCtlRole == 0) ∈ t.wlk.changes
    (s.paired = false → exec .heartbeatSend s = .next s ∧ exec .heartbeatMiss s = .next s ∧ exec .mirrorTimeSend s = .next s ∧
      exec (.swap 12 w) s = .next s ∧ exec (.mirrorLaneLockChange n locked) s = .next s) ∧
    (s.transmitting (s.get F.mirCfgHbhead) = true → exec .heartbeatSend s = .next s) ∧
    (s.paired = true → s.transmitting (s.get F.mirCfgHbhead) = false → Gives (exec .heartbeatSend s) fun t =>
      t.mir.outSeq = q ∧ t.mir.hbSent = t.now ∧ t.now = at' (s.mir.hbSent + 100000)) ∧
    (s.beatSettled = true → exec .heartbeatMiss s = .next s) ∧
    (s.paired = true → s.beatSettled = false → Gives (exec .heartbeatMiss s) fun t => t.now = at' s.beatDue ∧
      t.get F.mirStatMissed = (if m = 3 then 3 else m + 1) ∧
      (m = 2 → t.flag F.mirStatPeer = false ∧ t.get F.mirEventMirPeerlost = 1 ∧
        (s.standby = true → s.flag F.mirStatSync = true → t.mir.takeTick.isSome = true ∧
          ∃ k, t.mir.takeTick = some k ∧ (k, false) ∈ t.wlk.changes)) ∧
      (m ≠ 2 ∨ s.standby = false ∨ s.flag F.mirStatSync = false → t.mir.takeTick = s.mir.takeTick)) ∧
    (a ≠ 12 → s.writes a Reg.mirCtl → Gives (exec (.swap a w) s) fun t =>
      t.flag F.mirCtlEn = v.getLsbD 0 ∧ t.flag F.mirCtlRole = (if s.flag F.mirCtlEn then s.flag F.mirCtlRole else v.getLsbD 1) ∧
      (s.flag F.mirCtlEn = false → v.getLsbD 0 = true → v.getLsbD 2 = false → t.flag F.mirStatSync = !v.getLsbD 1 ∧
        t.mir.inSeq = 0 ∧ t.mir.outSeq = 0 ∧ t.mir.waiting = []) ∧
      (s.flag F.mirCtlEn = false → v.getLsbD 0 = true → v.getLsbD 1 = true → s.part.hasMirror = true → v.getLsbD 2 = false →
        t.flag F.wlkCtlStandby = true) ∧
      (s.flag F.mirCtlEn = true → v.getLsbD 0 = true → v.getLsbD 2 = false → t.mir = s.mir) ∧
      (s.flag F.mirCtlEn = true → v.getLsbD 0 = false → t.mir.swapTick = none ∧ t.mir.takeTick = none ∧ t.mir.waiting = []) ∧
      (v.getLsbD 2 = true →
        if !u.paired || u.mir.swapTick.isSome || !u.flag F.mirStatSync || !u.flag F.mirStatPeer then
          t.get F.mirEventSwapIgn = 1 ∧ t.mir = u.mir
        else swapped u t u.now ∧ t.mir.outSeq = (u.mir.outSeq + 1) % 2 ^ 32)) ∧
    (s.mirrorLanes = [] → exec (.swap 12 w) s = .next s) ∧
    (s.paired = true → s.mirrorLanes ≠ [] → s.mirrorInject 0 = (s, none) → s.finj.held = [] →
      let keeps := s.mir.takeTick.isSome = true ∨ (s.mir.swapTick.isSome = true ∧ s.get F.mirCtlRole = 0)
      let passed (t : State) := t.mir.inSeq = if s.mir.heard then (s.mir.inSeq + 1) % 2 ^ 32 else s.mir.inSeq
      (¬ keeps → Gives (exec (.swap 12 w) s) fun t => swapped s t w.toNat ∧ passed t) ∧
      (keeps → Gives (exec (.swap 12 w) s) fun t => passed t ∧ t.mir.swapTick = s.mir.swapTick ∧ t.regs = s.regs ∧ t.wlk = s.wlk)) ∧
    (s.pairedPrimary = false → exec .mirrorTimeSend s = .next s) ∧
    (s.pairedPrimary = true → Gives (exec .mirrorTimeSend s) fun t => t.mir.outSeq = q ∧ t.dram = s.dram ∧
      t.now = at' (s.mir.timeAt + 10000) ∧ t.mir.timeAt = t.now) ∧
    (4 ≤ n ∨ bit (s.get F.mirCfgLanes) n = false ∨ s.domOn (53 + n) = false → exec (.mirrorLaneLockChange n locked) s = .next s) ∧
    (n < 4 → s.paired = true → bit (s.get F.mirCfgLanes) n = true → s.domOn (53 + n) = true →
      Gives (exec (.mirrorLaneLockChange n locked) s) fun t => bit (t.get F.mirStatLock) n = locked ∧
        (bit (s.get F.mirStatLock) n = locked → t = s) ∧
        (bit (s.get F.mirStatLock) n = !locked → t.get F.mirEventMirLink = 1 ∧
          t.get F.mirStatOwd = if locked then satAt 65535 (Config.freeNat s.fresh) else s.get F.mirStatOwd))

/-! ## Dawn, resets and fault injection (17) -/

/-- PORST, RESET_PIN, RESET_RELEASE, AON_UNDERVOLTAGE, SWRESET and PERST (R438, R439, R466, R469): each reset leaves every register and unit at
its reset value, THM.TRIPREC apart where that survives, and its cause in RSTCAUSE; PERST resets the CXL domains alone. That local memory
keeps its contents is the model's choice (log entry 60). -/
def Obligations.ResetsLeaveResetValues : Prop :=
  ∀ (s : State) (a : Nat) (v : Word),
    (Gives (exec .porst s) fun t => s.ResetTo t false 1 ∧ t.pins = { s.pins with porst := true }) ∧
    (s.pins.porst = false → s.pins.undervolt = false → Gives (exec .resetPin s) fun t => s.ResetTo t true 2 ∧ t.pins.reset = true) ∧
    (s.pins.porst = true ∨ s.pins.undervolt = true → exec .resetPin s = .next { s with pins := { s.pins with reset := true } }) ∧
    (s.pins.porst = true → Gives (exec .resetRelease s) fun t => s.ResetTo t false 1 ∧ t.pins.porst = false ∧ t.pins.reset = false) ∧
    (s.pins.porst = false → s.pins.reset = true → Gives (exec .resetRelease s) fun t => s.ResetTo t true 2 ∧ t.pins.reset = false) ∧
    (s.pins.porst = false → s.pins.reset = false → exec .resetRelease s = .next s) ∧
    (Gives (exec (.aonUndervoltage true) s) fun t => s.ResetTo t false 1 ∧ t.pins.undervolt = true) ∧
    (s.pins.undervolt = true → Gives (exec (.aonUndervoltage false) s) fun t => s.ResetTo t false 1 ∧ t.pins.undervolt = false) ∧
    (s.pins.undervolt = false → exec (.aonUndervoltage false) s = .next s) ∧
    (∀ c ∈ [Instr.swreset a v, .coreStart a v], s.writes a Reg.bootCtl → v.getLsbD 0 = true → s.privileged a = true →
      Gives (exec c s) fun t => s.ResetTo t true 4) ∧
    (s.held = true → exec .perst s = .next s) ∧
    (s.held = false → Gives (exec .perst s) fun t => t.flag F.cxlLinkL0 = false ∧
      t.cxl = { s.cxl with latSeen := none, hdmBase := 0, hdmSize := 0, up := false } ∧
      t.ltrEn = false ∧ t.boot.cfgReady = false ∧ t.pins.perst = true ∧ t.dram = s.dram ∧ t.heads = s.heads ∧
      (s.flag F.cxlLinkL0 = true → t.get F.cxlEventLinkState = 1))

/-- CXL_CONFIG_READY, BOOT_HEADER_READ, BOOT_IMAGE_CHECKED, XSPI_COMMAND, XSPI_DONE and CORE_START (R440 to R447): the header read records the
first cause it meets and changes no other register; a good image is loaded and core 0 continues at ENTRY, a bad one gives the factory
defaults with its cause and their event, and either shows the header's values; nothing of it happens in reset; a flash command is sent once and its end fills the buffer; a core that is off and powered starts at its address. The instants of
these commands, what PERST and the ready configuration end, a LEN above 64 and a core whose domain is off are the model's readings (log
entries 15, 120, 128, 130 and 131). -/
def Obligations.DawnLoadsTheImage : Prop :=
  ∀ (s u : State) (a : Nat) (v : Word) (bs : List Byte),
    let b := bs.map BitVec.toNat
    let h := b.take 64
    (s.held = true → exec .cxlConfigReady s = .next s) ∧
    (s.held = false → Gives (exec .cxlConfigReady s) fun t => t.boot.cfgReady = true ∧ t.pins.perst = false ∧ t.regs = s.regs) ∧
    (s.boot.stage ≠ 1 ∨ s.dawnStill = true → exec (.bootHeaderRead bs) s = .next s) ∧
    (s.boot.stage = 1 → s.dawnStill = false → Gives (exec (.bootHeaderRead bs) s) fun t => t.get F.bootStatusCause = headerCause h ∧
      t.boot.stage = 2 ∧ t.boot.header = h ∧ ∀ off, off ≠ Reg.bootStatus → t.rd off = s.rd off) ∧
    (s.boot.stage ≠ 2 ∨ s.dawnStill = true → exec (.bootImageChecked bs) s = .next s) ∧
    (let d := s.boot.header
     let len := hdrLength d
     let due := 40000 + (if s.boot.octal then ceilDiv ((len - 64) * 5) 2 else len * 160)
     let s' := (if s.time.uptime < due then s.elapse (due - s.time.uptime) else s).showHeader.wr Reg.bootCheck
       (BitVec.ofNat 32 (imageCheck d b len))
     let shows (t : State) := s.get F.bootStatusCause ≠ 1 → t.rd Reg.bootImglen = BitVec.ofNat 32 len ∧
       t.rd Reg.bootEntry = BitVec.ofNat 32 (wordAt d 0x14) ∧ t.get F.bootStatusMajor = wordAt d 4 / 65536 % 2 ^ F.bootStatusMajor.width ∧
       t.get F.bootStatusMinor = wordAt d 4 % 2 ^ F.bootStatusMinor.width
     let fails (cause : Nat) := Gives (exec (.bootImageChecked bs) s) fun t => t.get F.bootEventBootDefaulted = 1 ∧
       t.flag F.bootStatusDefaulted = true ∧ t.get F.bootStatusCause = cause ∧ t.get F.bootStatusState = 1 ∧ t.boot.stage = 3 ∧ shows t
     s.boot.stage = 2 → s.dawnStill = false →
      (s.get F.bootStatusCause ≠ 0 → fails (s.get F.bootStatusCause)) ∧
      (s.get F.bootStatusCause = 0 → imageCheck d b len ≠ wordAt d 0x3C → fails 5) ∧
      (s.get F.bootStatusCause = 0 → imageCheck d b len = wordAt d 0x3C → s'.loadImage d b = none → fails 6) ∧
      (s.get F.bootStatusCause = 0 → imageCheck d b len = wordAt d 0x3C → s'.loadImage d b = some u →
        Gives (exec (.bootImageChecked bs) s) fun t => t.get F.bootStatusState = 1 ∧ t.boot.stage = 3 ∧ shows t ∧ t.sram = u.sram ∧
          t.time = s'.time ∧ t.rd Reg.bootCheck = BitVec.ofNat 32 (imageCheck d b len) ∧
          t.flag F.bootStatusDefaulted = u.flag F.bootStatusDefaulted ∧
          (t.mgmtOf 0).pc = if wordAt d 0x14 = 0 then (u.mgmtOf 0).pc else wordAt d 0x14)) ∧
    (s.writes a Reg.bootXcmd → s.flag F.bootXcmdBusy = true → exec (.xspiCommand a v) s = .next s) ∧
    (let x := s.store Reg.bootXcmd v
     let len := min 64 (x.get F.bootXcmdLen)
     let buf := (x.rdList (Reg.bootXbuf 0) 16).flatMap fun w => bytesLE 4 w.toNat
     s.writes a Reg.bootXcmd → s.flag F.bootXcmdBusy = false →
      (v.getLsbD 31 = false → exec (.xspiCommand a v) s = .next x) ∧
      (v.getLsbD 31 = true → Gives (exec (.xspiCommand a v) s) fun t => t.flag F.bootXcmdBusy = true ∧
        t.out = s.out ++ [.xspi (x.get F.bootXcmdOp) (if x.flag F.bootXcmdAddr then some (x.rd Reg.bootXaddr).toNat else none)
          (x.flag F.bootXcmdWrite) (if x.flag F.bootXcmdWrite then buf.take len else []) len])) ∧
    (s.flag F.bootXcmdBusy = false → exec (.xspiDone bs) s = .next s) ∧
    (s.flag F.bootXcmdBusy = true → Gives (exec (.xspiDone bs) s) fun t => t.flag F.bootXcmdBusy = false ∧
      t.get F.bootEventXspiDone = 1 ∧
      (s.flag F.bootXcmdWrite = true → ∀ i < 16, t.rd (Reg.bootXbuf i) = s.rd (Reg.bootXbuf i)) ∧
      (s.flag F.bootXcmdWrite = false → ∀ i < 16,
        let got := (b.take (min 64 (s.get F.bootXcmdLen))).drop (4 * i)
        (4 ≤ got.length → t.rd (Reg.bootXbuf i) = BitVec.ofNat 32 (ofBytesLE (got.take 4))) ∧
        (got = [] → t.rd (Reg.bootXbuf i) = s.rd (Reg.bootXbuf i)))) ∧
    (∀ c ∈ [Instr.coreStart a v, .swreset a v], s.writes a Reg.bootCtl → v.getLsbD 0 = false ∨ s.privileged a = false →
      Gives (exec c s) fun t => ∀ k, 1 ≤ k → k < 4 →
        if v.getLsbD k = false ∨ (s.mgmtOf k).on = true ∨ s.domOn (73 + k) = false then t.mgmtOf k = s.mgmtOf k
        else (t.mgmtOf k).on = true ∧ (t.mgmtOf k).pc = s.startAddr k ∧ t.get ⟨Reg.bootCtl, k, 1⟩ = 1)

/-- FENCE_SIGNAL, FLUSH, FINJ_LINK_ENABLE and FINJ_HOLD_EXPIRY (R116, R130, R454, R455): a fence takes its value and every surface that refers
to it is no longer valid, and is forwarded; a flush invalidates all; enabling a fault-injection link loads its seed and clears its count; a
unit held too long goes on. A fence or a link that does not exist and the instant of the expiry are the model's readings (log entry 132). -/
def Obligations.FencesFlushesAndFaultLinks : Prop :=
  ∀ (s : State) (a n k : Nat) (v : Word),
    let u := s.store (Reg.finjLinkCfg k) v
    (n < 1024 → s.writes a (Reg.layerFence n) → Gives (exec (.fenceSignal a n v) s) fun t =>
      t.get (F.layerFenceValue n) = v.toNat % 2 ^ 16 ∧ (t.fenceOf n).stamp = s.now ∧
      (s.pairedPrimary = true → t.mir.outSeq = (s.mir.outSeq + 1) % 2 ^ 32) ∧
      ∀ x ∈ t.surfaces, (x.members.any fun e => e.2.usesFence n) = true → x.valid = false) ∧
    (1024 ≤ n → s.writes a (Reg.layerFence n) → exec (.fenceSignal a n v) s = .next s) ∧
    (s.writes a Reg.fltCtl → v.getLsbD 1 = true → Gives (exec (.flush a v) s) fun t => (∀ x ∈ t.surfaces, x.valid = false) ∧
      t.flag F.fltCtlEn = v.getLsbD 0) ∧
    (s.writes a Reg.fltCtl → v.getLsbD 1 = false → exec (.flush a v) s = .next (s.store Reg.fltCtl v)) ∧
    (k < 36 → s.writes a (Reg.finjLinkCfg k) → s.flag (F.finjLinkCfgEn k) = false → u.flag (F.finjLinkCfgEn k) = true →
      Gives (exec (.finjLinkEnable a k v) s) fun t => t.get (F.finjLinkCountCount k) = 0 ∧
        Tbl.get (fun _ => 0) t.finj.gen k = (if u.get (F.finjLinkSeedSeed k) = 0 then 1 else u.get (F.finjLinkSeedSeed k))) ∧
    (k < 36 → s.writes a (Reg.finjLinkCfg k) → s.flag (F.finjLinkCfgEn k) = true ∨ u.flag (F.finjLinkCfgEn k) = false →
      exec (.finjLinkEnable a k v) s = .next u) ∧
    (36 ≤ k → s.writes a (Reg.finjLinkCfg k) → exec (.finjLinkEnable a k v) s = .next s) ∧
    (∀ at', s.heldSince k = some at' → 16 ≤ k → k < 36 →
      (∀ e ∈ s.finj.held, e.1 = k → if k < 24 then ∃ p fr ok, e.2.2 = .ethFrameReceive p fr ok
        else isMirrorLink k = true ∨ ∃ p sk bs low, e.2.2 = .serialPoseFrame p sk bs low) →
      Gives (exec (.finjHoldExpiry k) s) fun t => t.heldSince k = none ∧
        t.time.uptime = (s.advanceTo (at' + 1000000)).time.uptime) ∧
    (s.heldSince k = none → isMirrorLink k = false → exec (.finjHoldExpiry k) s = .next s) ∧
    (s.heldSince k = none → isMirrorLink k = true → Gives (exec (.finjHoldExpiry k) s) fun t =>
      t.finj.heldMsg = [] ∧ t.out = s.out ++ s.finj.heldMsg.map (·.2) ∧ t.regs = s.regs)

/-! ## Steps, registers and reset -/

/-- A step runs the command at the front of the queue on the state with the rest of the queue; with none waiting one nanosecond passes,
which is the model's choice (log entry 2). -/
def Obligations.StepRunsTheFrontCommand : Prop :=
  (∀ (c : Instr) (cs : List Instr) (s : State), s.pending = c :: cs → step s = exec c { s with pending := cs }) ∧
  (∀ s : State, s.pending = [] → step s = .next s.idle)

/-- Every step of every state completes: no command faults or is refused. It takes the front command off the queue and leaves the others
in order, and the device stays the part it is (R2); exec of a command leaves the queue as it is. -/
def Obligations.EveryStepCompletesAndKeepsTheQueue : Prop :=
  (∀ s : State, Gives (step s) fun t => t.pending = s.pending.tail ∧ t.part = s.part) ∧
  (∀ (c : Instr) (s : State), Gives (exec c s) fun t => t.pending = s.pending ∧ t.part = s.part)

/-- Every step keeps the registers, local memory and the management SRAMs in canonical form. -/
def Obligations.StepsKeepTheCanonicalForm : Prop :=
  ∀ s t : State, s.Canon → step s = .next t → t.Canon

/-- After reset (R463): DEVTIME is 0 and the source selection AUTO, the synthesizers are disabled at INT 0x20 and FRAC 0 with SEED 1 and
dither on, every head has EN = 0, LATMIN reads 0xFFFF, every layer has EN = 0 and every fence is 0, the interrupt words are zero, the bucket
holds 34,000 mJ at thermal stage 0, FSP0 is in force with SREN = 1, agents 0 to 4 hold every block, DELEGATE is 0, and CXL.RTCFG.LAT is
800; no command waits, and the tables are canonical. -/
def Obligations.ResetReadsAsTheSpecStates : Prop :=
  let s := State.reset
  s.pending = [] ∧ s.Canon ∧ s.now = 0 ∧ s.get F.tickTsrcSelect = 0 ∧ s.get F.tickTrateRate = 9 ∧ s.get F.tickPhcfgPhases = 1 ∧
  (∀ m < 2, s.get (F.clkHtbCfgInt m) = 0x20 ∧ s.get (F.clkHtbCfgEn m) = 0 ∧ s.get (F.clkHtbFracFrac m) = 0) ∧
  s.get F.clkHditherSeed = 1 ∧ s.get F.clkHditherEn = 1 ∧
  (∀ h < 128, s.get (F.headCtlEn h) = 0 ∧ s.get (F.headHtimingHtotal h) = 2200 ∧ s.get (F.headHtimingHact h) = 1920 ∧
    s.get (F.headVtimingVtotal h) = 1125 ∧ s.get (F.headVtimingVact h) = 1080 ∧ s.get (F.headLinkDiv h) = 20) ∧
  s.get F.tickLatminUs = 0xFFFF ∧ (∀ i < 1024, s.get (F.layerCtlEn i) = 0 ∧ s.get (F.layerFenceValue i) = 0) ∧
  (∀ w < 32, s.rd (Reg.icuPending w) = 0 ∧ s.rd (Reg.icuEnable w) = 0) ∧
  s.get F.pwrStatusState = 0 ∧ s.get F.pwrEbucketMj = 34000 ∧ s.get F.thmStatusStage = 0 ∧
  s.get F.dmcStatusFsp = 0 ∧ s.get F.dmcCtlSren = 1 ∧ s.get F.protCtlDelegate = 0 ∧
  (∀ a < 5, s.get (F.protAgBlkrdBlocks a) = 0xFFFFFF ∧ s.get (F.protAgBlkwrBlocks a) = 0xFFFFFF) ∧ s.get F.cxlRtcfgLat = 800

/-- REGISTER_WRITE (R8, R9, R384, R424, R440, R462): an access that the checks turn away only leaves what they record, a read of it giving
zero; a read returns the register's known bits, and its open ones as free values (log entry 20); the halves of a read-only pair are
captured together; a read of CLAIM is the claim; a layer register takes a write at once, but a low half of a pair waits for its high half.
Past BAR0, where the model numbers the functions' own spaces (its choice, log entry 153), a request of another function is unsupported,
none is answered before the configuration is ready, and a read then gives the function's word. -/
def Obligations.RegisterAccesses : Prop :=
  ∀ (s : State) (a off be : Nat) (v l : Word), off % 4 = 0 →
    let own := pcieBase ≤ off ∧ off < pcieEnd ∧ a = 4 + pcieFunc off
    (pcieBase ≤ off → ¬ own → ∀ write, exec (.registerWrite a write off be v) s = .next (s.emit (.unsupported off))) ∧
    (own → s.boot.cfgReady = false → ∀ write, exec (.registerWrite a write off be v) s = .next s) ∧
    (own → s.boot.cfgReady = true → exec (.registerWrite a false off be v) s =
      .next { s with lastRead := BitVec.ofNat 32 (s.pcieRead off) }) ∧
    (off < pcieBase →
    let layer := 0x200000 ≤ off ∧ off < 0x240000 ∧ s.pairedPrimary = false ∧ s.writes a off
    (s.access a true off be ≠ .ok →
      exec (.registerWrite a true off be v) s = .next (s.deny (s.access a true off be) a true off)) ∧
    (s.access a false off 15 ≠ .ok → exec (.registerWrite a false off be v) s =
      .next { s.deny (s.access a false off 15) a false off with lastRead := 0 }) ∧
    (∀ k < 8, off = Reg.icuTgtClaim k → s.access a false off 15 = .ok →
      exec (.registerWrite a false off be v) s = exec (.claim a k) s) ∧
    (s.access a false off 15 = .ok → off = Reg.netIbuf → Gives (exec (.registerWrite a false off be v) s) fun t =>
      t.lastRead = readable off (s.drain.live a off) s.drain.fresh) ∧
    (∀ k < 16, s.access a false off 15 = .ok → off = Reg.wlkLaneFec k → Gives (exec (.registerWrite a false off be v) s) fun t =>
      t.lastRead = readable off ((s.countFec k 0).live a off) (s.countFec k 0).fresh) ∧
    (s.access a false off 15 = .ok → slot off (Reg.icuTgtClaim 0) 0x20 8 = none → off ≠ Reg.netIbuf →
        slot off (Reg.wlkLaneFec 0) 0x40 16 = none →
      Gives (exec (.registerWrite a false off be v) s) fun t => t.regs = s.regs ∧ t.out = s.out ∧
        (roPairLo off = false → roPairLo (off - 4) = false → t.lastRead = readable off (s.live a off) s.fresh) ∧
        (roPairLo off = true → t.lastRead = readable off (s.live a off) s.fresh ∧
          halfAt t.capHi (halfKey a (off + 4)) = some (s.live a (off + 4))) ∧
        (4 ≤ off → roPairLo off = false → roPairLo (off - 4) = true → halfAt s.capHi (halfKey a off) = some l →
          t.lastRead = readable off l s.fresh ∧ halfAt t.capHi (halfKey a off) = none)) ∧
    (layer → rwPairLo off = false → rwPairLo (off - 4) = false → exec (.registerWrite a true off 15 v) s = .next (s.store off v)) ∧
    (layer → rwPairLo off = true → exec (.registerWrite a true off 15 v) s =
      .next { s with heldLo := halfSet s.heldLo (halfKey a off) v }) ∧
    (layer → rwPairLo off = false → rwPairLo (off - 4) = true → halfAt s.heldLo (halfKey a (off - 4)) = some l →
      Gives (exec (.registerWrite a true off 15 v) s) fun t => t.rd off = (s.store off v).rd off ∧
        t.rd (off - 4) = (s.store (off - 4) l).rd (off - 4) ∧ halfAt t.heldLo (halfKey a (off - 4)) = none))

/-- R461: an access to an unassigned offset reads zero and writes nothing, and a write with partial byte enables writes nothing; both are
counted in TOP.BADACC with their offset in TOP.BADADDR, and raise no event. -/
def Obligations.UnassignedAccessesAreCounted : Prop :=
  ∀ (s : State) (a off be : Nat) (v : Word) (write : Bool), off % 4 = 0 → off < 2 ^ 26 →
    let counted (kind : Nat) (t : State) := t.get F.topBadaccCount = (s.get F.topBadaccCount + 1) % 2 ^ 16 ∧
      t.get F.topBadaccKind = kind ∧ t.get F.topBadaddrOffset = off ∧
      (∀ o, o ≠ Reg.topBadacc → o ≠ Reg.topBadaddr → t.rd o = s.rd o) ∧ t.icu = s.icu ∧ t.out = s.out ∧ t.dram = s.dram
    (s.held = false → (isHost a = true → s.boot.cfgReady = true) → blockOf off = none → absentAt s.part off = false → Gives (exec (.registerWrite a write off be v) s) fun t =>
      counted 1 t ∧ (write = false → t.lastRead = 0)) ∧
    (s.access a true off be = .partialWrite → Gives (exec (.registerWrite a true off be v) s) (counted 2))

/-- Every register write with a row of its own (R425, R449, R462): one that the checks turn away only leaves what they record, and on a paired
standby one to a register that follows the primary, COMMIT apart, is only counted and raised. -/
def Obligations.RefusedWritesHaveNoEffect : Prop :=
  ∀ (c : Instr) (s : State) (a off : Nat), writeTarget c = some (a, off) →
    (s.access a true off 15 ≠ .ok → exec c s = .next (s.deny (s.access a true off 15) a true off)) ∧
    (s.access a true off 15 = .ok → s.standby = true → standbyBlocks off = true → off ≠ Reg.tickCommit →
      exec c s = .next s.localWrite)

/-- R198: every exception saves the address in EPC, copies IE to PIE, clears IE, records its cause and continues at TVEC; a store that faults
writes nothing. -/
def Obligations.ExceptionsSaveAndContinueAtTvec : Prop :=
  ∀ (s : State) (k w : Nat), k < 4 →
    let m := s.mgmtOf k
    let i := Ins.ofNat w
    let a := (sreg m.s i.a + BitVec.ofInt 64 (signed 32 i.imm)).toNat
    let n := 2 ^ (i.c % 4)
    let taken (m : MgmtSt) (cause epc bad : Nat) : MgmtSt :=
      { m with epc := epc, pie := m.ie, ie := false, cause := cause, pc := m.tvec, wait := .none, badaddr := bad }
    let at' := s.mgmtAt k w
    let traps (op cause bad : Nat) (c : Instr) : Prop := MgmtIssues s k op w → i.holds m.p = true →
      exec c s = .next ((s.issued k w).setMgmt k (taken at' cause m.pc bad))
    (traps 0x10 1 m.badaddr (.lds (.mgmt k))) ∧
    (traps 0x79 5 m.badaddr (.ecall (.mgmt k))) ∧
    ((∀ off, s.place k a n ≠ .reg off) → a % n ≠ 0 → traps 0x72 2 a (.ld (.mgmt k)) ∧ traps 0x73 2 a (.st (.mgmt k))) ∧
    (∀ off, s.place k a n = .reg off → 2 < n → a % n ≠ 0 → traps 0x72 2 a (.ld (.mgmt k)) ∧ traps 0x73 2 a (.st (.mgmt k))) ∧
    (∀ d, s.place k a n = .dram d → a % n = 0 → i.holds m.p = true →
      (s.granted k true 0 d n = false → MgmtIssues s k 0x73 w →
        Gives (exec (.st (.mgmt k)) s) fun t => t.mgmtOf k = taken at' 3 m.pc a ∧ t.dram = s.dram ∧ t.sram = s.sram) ∧
      (s.granted k false 0 d n = false → MgmtIssues s k 0x72 w →
        Gives (exec (.ld (.mgmt k)) s) fun t => t.mgmtOf k = taken at' 3 m.pc a ∧ t.dram = s.dram ∧ t.sram = s.sram)) ∧
    (s.place k a n = .none → a % n = 0 → traps 0x72 4 a (.ld (.mgmt k)) ∧ traps 0x73 4 a (.st (.mgmt k))) ∧
    (∀ off, s.place k a n = .reg off → n ≤ 2 → traps 0x72 4 a (.ld (.mgmt k)) ∧ traps 0x73 4 a (.st (.mgmt k))) ∧
    (∀ x, m.on = true → m.wait = .load → m.ins = w → s.place k a n = .dram x →
      exec (.ldDataReturn (.mgmt k) true) s = .next (s.setMgmt k (taken m 4 m.pc a))) ∧
    (m.on = true → m.wait = .none → m.ie = true → s.flag (F.icuTgtStatLine k) = true →
      exec (.interruptException (.mgmt k)) s = .next (s.setMgmt k (taken m 8 m.pc m.badaddr))) ∧
    (m.on = true → m.wait = .none → m.ie = false → (s.mgmtFetch k m).toOption = some (some w) → controlOp i.op = false →
      exec (.interruptException (.mgmt k)) s = .next ((s.issued k w).setMgmt k (taken m 1 m.pc m.badaddr)))
end

