-- ==== Sys2Proof/Laws/Tbl.lean ====
section
/-! SUPPORT. Sparse tables and byte memories: a read after a write to the same key gives the value written, a write leaves every other
key alone, and every operation keeps the canonical form. -/

namespace Sys2Proof.Machine

variable {α : Type} (d : Nat → α)

theorem Tbl.get_erase_self (t : Tbl α) (k : Nat) : Tbl.get d (Tbl.erase t k) k = d k := by
  induction t with
  | nil => rfl
  | cons e t ih =>
    unfold Tbl.erase
    split
    · exact ih
    · rename_i h; simp [Tbl.get, h, ih]

theorem Tbl.get_erase_ne (t : Tbl α) {k j : Nat} (h : j ≠ k) : Tbl.get d (Tbl.erase t k) j = Tbl.get d t j := by
  induction t with
  | nil => rfl
  | cons e t ih =>
    unfold Tbl.erase
    split
    · rename_i hk; subst hk; simp [Tbl.get, h, ih]
    · simp [Tbl.get, ih]

theorem Tbl.get_insert_ne (t : Tbl α) {k j : Nat} (v : α) (h : j ≠ k) : Tbl.get d (Tbl.insert t k v) j = Tbl.get d t j := by
  induction t with
  | nil => simp [Tbl.insert, Tbl.get, h]
  | cons e t ih =>
    unfold Tbl.insert
    split
    · simp [Tbl.get, h]
    · simp [Tbl.get, ih]

theorem Tbl.get_insert_self (t : Tbl α) (k : Nat) (v : α) (h : ∀ e ∈ t, e.1 ≠ k) : Tbl.get d (Tbl.insert t k v) k = v := by
  induction t with
  | nil => simp [Tbl.insert, Tbl.get]
  | cons e t ih =>
    have he : e.1 ≠ k := h e (by simp)
    unfold Tbl.insert
    split
    · simp [Tbl.get]
    · simp [Tbl.get, Ne.symm he, ih fun x hx => h x (by simp [hx])]

theorem Tbl.mem_erase (t : Tbl α) (k : Nat) (e : Nat × α) : e ∈ Tbl.erase t k ↔ e ∈ t ∧ e.1 ≠ k := by
  induction t with
  | nil => simp [Tbl.erase]
  | cons x t ih =>
    unfold Tbl.erase
    split
    · rename_i hk
      simp only [ih, List.mem_cons]
      constructor
      · exact fun ⟨a, b⟩ => ⟨.inr a, b⟩
      · rintro ⟨rfl | a, b⟩
        · exact absurd hk.symm b
        · exact ⟨a, b⟩
    · rename_i hk
      simp only [List.mem_cons, ih]
      constructor
      · rintro (rfl | ⟨a, b⟩)
        · exact ⟨.inl rfl, Ne.symm hk⟩
        · exact ⟨.inr a, b⟩
      · rintro ⟨rfl | a, b⟩
        · exact .inl rfl
        · exact .inr ⟨a, b⟩

theorem Tbl.mem_insert (t : Tbl α) (k : Nat) (v : α) (e : Nat × α) : e ∈ Tbl.insert t k v ↔ e = (k, v) ∨ e ∈ t := by
  induction t with
  | nil => simp [Tbl.insert]
  | cons x t ih =>
    unfold Tbl.insert
    split
    · simp
    · simp only [List.mem_cons, ih]
      exact or_left_comm

variable [DecidableEq α]

/-- A read after a write to the same key. -/
@[simp] theorem Tbl.get_set_self (t : Tbl α) (k : Nat) (v : α) : Tbl.get d (Tbl.set d t k v) k = v := by
  unfold Tbl.set
  split
  · rename_i h; rw [Tbl.get_erase_self, h]
  · exact Tbl.get_insert_self d _ k v fun e he => ((Tbl.mem_erase t k e).1 he).2

/-- A write leaves every other key alone. -/
theorem Tbl.get_set_ne (t : Tbl α) {k j : Nat} (v : α) (h : j ≠ k) : Tbl.get d (Tbl.set d t k v) j = Tbl.get d t j := by
  unfold Tbl.set
  split
  · exact Tbl.get_erase_ne d t h
  · rw [Tbl.get_insert_ne d _ v h, Tbl.get_erase_ne d t h]

theorem Tbl.get_set (t : Tbl α) (k j : Nat) (v : α) :
    Tbl.get d (Tbl.set d t k v) j = if j = k then v else Tbl.get d t j := by
  split
  · rename_i h; rw [h, Tbl.get_set_self]
  · rename_i h; exact Tbl.get_set_ne d t v h

/-! ## The canonical form -/

/-- The canonical form as a proposition: keys rising strictly, no entry equal to what an unlisted key reads as. -/
theorem Tbl.wf_iff (t : Tbl α) :
    Tbl.wf d t = true ↔ t.Pairwise (fun x y => x.1 < y.1) ∧ ∀ e ∈ t, e.2 ≠ d e.1 := by
  induction t with
  | nil => simp [Tbl.wf]
  | cons e t ih =>
    obtain ⟨k, v⟩ := e
    simp only [Tbl.wf, Bool.and_eq_true, decide_eq_true_eq, ih, List.pairwise_cons, List.mem_cons, forall_eq_or_imp]
    constructor
    · rintro ⟨⟨h1, h2⟩, h3, h4⟩
      refine ⟨⟨?_, h3⟩, h2, h4⟩
      cases t with
      | nil => simp
      | cons x t =>
        have hx : k < x.1 := by simpa [Tbl.above] using h1
        intro y hy
        rcases List.mem_cons.1 hy with rfl | hy
        · exact hx
        · exact Nat.lt_trans hx ((List.pairwise_cons.1 h3).1 y hy)
    · rintro ⟨⟨h1, h2⟩, h3, h4⟩
      refine ⟨⟨?_, h3⟩, h2, h4⟩
      cases t with
      | nil => rfl
      | cons x t => simpa [Tbl.above] using h1 x (by simp)

theorem Tbl.wf_erase {t : Tbl α} (k : Nat) (h : Tbl.wf d t = true) : Tbl.wf d (Tbl.erase t k) = true := by
  rw [Tbl.wf_iff] at h ⊢
  refine ⟨?_, fun e he => h.2 e ((Tbl.mem_erase t k e).1 he).1⟩
  have hp := h.1
  clear h
  induction t with
  | nil => exact hp
  | cons x t ih =>
    have hp' := List.pairwise_cons.1 hp
    unfold Tbl.erase
    split
    · exact ih hp'.2
    · exact List.pairwise_cons.2 ⟨fun y hy => hp'.1 y ((Tbl.mem_erase t k y).1 hy).1, ih hp'.2⟩

theorem Tbl.wf_insert {t : Tbl α} {k : Nat} {v : α} (h : Tbl.wf d t = true) (hk : ∀ e ∈ t, e.1 ≠ k) (hv : v ≠ d k) :
    Tbl.wf d (Tbl.insert t k v) = true := by
  rw [Tbl.wf_iff] at h ⊢
  refine ⟨?_, fun e he => ?_⟩
  · have hp := h.1
    clear h
    induction t with
    | nil => simp [Tbl.insert]
    | cons x t ih =>
      have hp' := List.pairwise_cons.1 hp
      unfold Tbl.insert
      split
      · rename_i hlt
        refine List.pairwise_cons.2 ⟨fun y hy => ?_, hp⟩
        rcases List.mem_cons.1 hy with rfl | hy
        · exact hlt
        · exact Nat.lt_trans hlt (hp'.1 y hy)
      · rename_i hlt
        refine List.pairwise_cons.2 ⟨fun y hy => ?_, ih (fun e he => hk e (by simp [he])) hp'.2⟩
        rcases (Tbl.mem_insert t k v y).1 hy with rfl | hy
        · have := hk x (by simp)
          simp only at hlt ⊢
          omega
        · exact hp'.1 y hy
  · rcases (Tbl.mem_insert t k v e).1 he with rfl | he
    · exact hv
    · exact h.2 e he

/-- A write keeps the canonical form. -/
theorem Tbl.wf_set {t : Tbl α} (k : Nat) (v : α) (h : Tbl.wf d t = true) : Tbl.wf d (Tbl.set d t k v) = true := by
  unfold Tbl.set
  split
  · exact Tbl.wf_erase d k h
  · rename_i hv
    exact Tbl.wf_insert d (Tbl.wf_erase d k h) (fun e he => ((Tbl.mem_erase t k e).1 he).2) hv

/-- Leaving entries out keeps the canonical form. -/
theorem Tbl.wf_filter {t : Tbl α} (p : Nat × α → Bool) (h : Tbl.wf d t = true) : Tbl.wf d (t.filter p) = true := by
  rw [Tbl.wf_iff] at h ⊢
  exact ⟨h.1.filter p, fun e he => h.2 e (List.mem_filter.1 he).1⟩

/-- Writing bytes keeps the canonical form. -/
theorem Mem.wf_writeBytes (d : Nat → Byte) (bs : List Byte) : ∀ (m : Mem) (a : Nat), Tbl.wf d m = true →
    Tbl.wf d (Mem.writeBytes d m a bs) = true := by
  induction bs with
  | nil => exact fun _ _ h => h
  | cons b bs ih => exact fun m a h => ih _ _ (Tbl.wf_set d a b h)

/-- A byte outside the bytes written keeps its value. -/
theorem Mem.get_writeBytes_out (d : Nat → Byte) (bs : List Byte) : ∀ (m : Mem) (a x : Nat), x < a ∨ a + bs.length ≤ x →
    Tbl.get d (Mem.writeBytes d m a bs) x = Tbl.get d m x := by
  induction bs with
  | nil => exact fun _ _ _ _ => rfl
  | cons b bs ih =>
    intro m a x h
    simp only [List.length_cons] at h
    rw [Mem.writeBytes, ih _ _ _ (by omega), Tbl.get_set_ne d m b (by omega)]

/-- A byte written reads as written. -/
theorem Mem.get_writeBytes_in (d : Nat → Byte) (bs : List Byte) : ∀ (m : Mem) (a i : Nat) (h : i < bs.length),
    Tbl.get d (Mem.writeBytes d m a bs) (a + i) = bs[i] := by
  induction bs with
  | nil => exact fun _ _ i h => absurd h (Nat.not_lt_zero i)
  | cons b bs ih =>
    intro m a i h
    cases i with
    | zero => simp [Mem.writeBytes, Mem.get_writeBytes_out]
    | succ n =>
      have := ih (Tbl.set d m a b) (a + 1) n (by simpa using h)
      simpa [Mem.writeBytes, Nat.add_assoc, Nat.add_comm 1 n] using this

end Sys2Proof.Machine
end

