-- ==== Sys2Proof/Laws/State.lean ====
section
/-! SUPPORT. What each named operation leaves alone, field by field, and what it sets: cited in place of unfolding a record update. -/

namespace Sys2Proof.Machine

variable (s : State)

/-- A command's end: the queue and the part are as they were. -/
theorem State.done_eq {s t : State} (h : t.pending = s.pending) (hp : t.part = s.part) : s.done t = .next t := by
  unfold State.done
  rw [← h, ← hp]

/-! ## Reading a register after writing one -/

@[simp] theorem State.rd_wr_self (off : Nat) (v : Word) : (s.wr off v).rd off = v := Tbl.get_set_self _ _ _ _

theorem State.rd_wr_ne {off o : Nat} (v : Word) (h : o ≠ off) : (s.wr off v).rd o = s.rd o := Tbl.get_set_ne _ _ _ h

theorem State.rd_wr (off o : Nat) (v : Word) : (s.wr off v).rd o = if o = off then v else s.rd o := Tbl.get_set _ _ _ _ _

theorem State.rd_put_ne {f : Fld} {o : Nat} (v : Nat) (h : o ≠ f.off) : (s.put f v).rd o = s.rd o := s.rd_wr_ne _ h

theorem State.rd_bump_ne {f : Fld} {o : Nat} (n : Nat) (h : o ≠ f.off) : (s.bump f n).rd o = s.rd o := s.rd_wr_ne _ h

theorem State.rd_wr64_ne {lo o : Nat} (v : Nat) (h : o ≠ lo) (h' : o ≠ lo + 4) : (s.wr64 lo v).rd o = s.rd o := by
  rw [State.wr64, State.rd_wr_ne _ _ h', State.rd_wr_ne _ _ h]

/-! ## What each operation leaves alone -/

@[simp] theorem State.wr_keeps (off : Nat) (v : Word) :
    (s.wr off v).pending = s.pending ∧ (s.wr off v).part = s.part ∧ (s.wr off v).capHi = s.capHi ∧
    (s.wr off v).heldLo = s.heldLo ∧ (s.wr off v).lastRead = s.lastRead ∧ (s.wr off v).fresh = s.fresh ∧
    (s.wr off v).out = s.out ∧ (s.wr off v).time = s.time ∧ (s.wr off v).clk = s.clk ∧ (s.wr off v).heads = s.heads ∧
    (s.wr off v).layers = s.layers ∧ (s.wr off v).fences = s.fences ∧ (s.wr off v).commits = s.commits ∧
    (s.wr off v).busy = s.busy ∧ (s.wr off v).accepted = s.accepted ∧ (s.wr off v).groups = s.groups ∧
    (s.wr off v).scalQ = s.scalQ ∧ (s.wr off v).scalers = s.scalers ∧ (s.wr off v).surfaces = s.surfaces ∧
    (s.wr off v).producers = s.producers ∧ (s.wr off v).ltrEn = s.ltrEn ∧ (s.wr off v).pcie = s.pcie ∧ (s.wr off v).wb = s.wb ∧
    (s.wr off v).pose = s.pose ∧
    (s.wr off v).mgmt = s.mgmt ∧ (s.wr off v).sram = s.sram ∧ (s.wr off v).mir = s.mir ∧ (s.wr off v).dmc = s.dmc ∧
    (s.wr off v).blt = s.blt ∧ (s.wr off v).cxl = s.cxl ∧ (s.wr off v).net = s.net ∧ (s.wr off v).cdc = s.cdc ∧
    (s.wr off v).dma = s.dma ∧ (s.wr off v).wlk = s.wlk ∧ (s.wr off v).finj = s.finj ∧ (s.wr off v).pix = s.pix ∧
    (s.wr off v).icu = s.icu ∧ (s.wr off v).pwr = s.pwr ∧ (s.wr off v).pins = s.pins ∧ (s.wr off v).boot = s.boot ∧
    (s.wr off v).dram = s.dram ∧ (s.wr off v).host = s.host ∧ (s.wr off v).hostBad = s.hostBad := by
  and_intros <;> rfl

@[simp] theorem State.put_keeps (f : Fld) (v : Nat) :
    (s.put f v).pending = s.pending ∧ (s.put f v).part = s.part ∧ (s.put f v).capHi = s.capHi ∧ (s.put f v).heldLo = s.heldLo ∧
    (s.put f v).lastRead = s.lastRead ∧ (s.put f v).fresh = s.fresh ∧ (s.put f v).out = s.out ∧ (s.put f v).time = s.time ∧
    (s.put f v).clk = s.clk ∧ (s.put f v).heads = s.heads ∧ (s.put f v).layers = s.layers ∧ (s.put f v).fences = s.fences ∧
    (s.put f v).commits = s.commits ∧ (s.put f v).busy = s.busy ∧ (s.put f v).accepted = s.accepted ∧
    (s.put f v).groups = s.groups ∧ (s.put f v).scalQ = s.scalQ ∧ (s.put f v).scalers = s.scalers ∧
    (s.put f v).surfaces = s.surfaces ∧ (s.put f v).producers = s.producers ∧ (s.put f v).ltrEn = s.ltrEn ∧ (s.put f v).pcie = s.pcie ∧
    (s.put f v).wb = s.wb ∧ (s.put f v).pose = s.pose ∧ (s.put f v).mgmt = s.mgmt ∧ (s.put f v).sram = s.sram ∧
    (s.put f v).mir = s.mir ∧ (s.put f v).dmc = s.dmc ∧ (s.put f v).blt = s.blt ∧ (s.put f v).cxl = s.cxl ∧
    (s.put f v).net = s.net ∧ (s.put f v).cdc = s.cdc ∧ (s.put f v).dma = s.dma ∧ (s.put f v).wlk = s.wlk ∧
    (s.put f v).finj = s.finj ∧ (s.put f v).pix = s.pix ∧ (s.put f v).icu = s.icu ∧ (s.put f v).pwr = s.pwr ∧
    (s.put f v).pins = s.pins ∧ (s.put f v).boot = s.boot ∧ (s.put f v).dram = s.dram ∧ (s.put f v).host = s.host ∧
    (s.put f v).hostBad = s.hostBad := by
  and_intros <;> rfl

@[simp] theorem State.bump_keeps (f : Fld) (n : Nat) :
    (s.bump f n).pending = s.pending ∧ (s.bump f n).part = s.part ∧ (s.bump f n).capHi = s.capHi ∧
    (s.bump f n).heldLo = s.heldLo ∧ (s.bump f n).lastRead = s.lastRead ∧ (s.bump f n).fresh = s.fresh ∧
    (s.bump f n).out = s.out ∧ (s.bump f n).time = s.time ∧ (s.bump f n).clk = s.clk ∧ (s.bump f n).heads = s.heads ∧
    (s.bump f n).layers = s.layers ∧ (s.bump f n).fences = s.fences ∧ (s.bump f n).commits = s.commits ∧
    (s.bump f n).busy = s.busy ∧ (s.bump f n).accepted = s.accepted ∧ (s.bump f n).groups = s.groups ∧
    (s.bump f n).scalQ = s.scalQ ∧ (s.bump f n).scalers = s.scalers ∧ (s.bump f n).surfaces = s.surfaces ∧
    (s.bump f n).producers = s.producers ∧ (s.bump f n).ltrEn = s.ltrEn ∧ (s.bump f n).pcie = s.pcie ∧ (s.bump f n).wb = s.wb ∧
    (s.bump f n).pose = s.pose ∧
    (s.bump f n).mgmt = s.mgmt ∧ (s.bump f n).sram = s.sram ∧ (s.bump f n).mir = s.mir ∧ (s.bump f n).dmc = s.dmc ∧
    (s.bump f n).blt = s.blt ∧ (s.bump f n).cxl = s.cxl ∧ (s.bump f n).net = s.net ∧ (s.bump f n).cdc = s.cdc ∧
    (s.bump f n).dma = s.dma ∧ (s.bump f n).wlk = s.wlk ∧ (s.bump f n).finj = s.finj ∧ (s.bump f n).pix = s.pix ∧
    (s.bump f n).icu = s.icu ∧ (s.bump f n).pwr = s.pwr ∧ (s.bump f n).pins = s.pins ∧ (s.bump f n).boot = s.boot ∧
    (s.bump f n).dram = s.dram ∧ (s.bump f n).host = s.host ∧ (s.bump f n).hostBad = s.hostBad := by
  and_intros <;> rfl

@[simp] theorem State.bumpSat_keeps (f : Fld) (n : Nat) :
    (s.bumpSat f n).pending = s.pending ∧ (s.bumpSat f n).part = s.part ∧ (s.bumpSat f n).capHi = s.capHi ∧
    (s.bumpSat f n).heldLo = s.heldLo ∧ (s.bumpSat f n).lastRead = s.lastRead ∧ (s.bumpSat f n).fresh = s.fresh ∧
    (s.bumpSat f n).out = s.out ∧ (s.bumpSat f n).time = s.time ∧ (s.bumpSat f n).clk = s.clk ∧ (s.bumpSat f n).heads = s.heads ∧
    (s.bumpSat f n).layers = s.layers ∧ (s.bumpSat f n).fences = s.fences ∧ (s.bumpSat f n).commits = s.commits ∧
    (s.bumpSat f n).busy = s.busy ∧ (s.bumpSat f n).accepted = s.accepted ∧ (s.bumpSat f n).groups = s.groups ∧
    (s.bumpSat f n).scalQ = s.scalQ ∧ (s.bumpSat f n).scalers = s.scalers ∧ (s.bumpSat f n).surfaces = s.surfaces ∧
    (s.bumpSat f n).producers = s.producers ∧ (s.bumpSat f n).ltrEn = s.ltrEn ∧ (s.bumpSat f n).pcie = s.pcie ∧
    (s.bumpSat f n).wb = s.wb ∧
    (s.bumpSat f n).pose = s.pose ∧ (s.bumpSat f n).mgmt = s.mgmt ∧ (s.bumpSat f n).sram = s.sram ∧ (s.bumpSat f n).mir = s.mir ∧
    (s.bumpSat f n).dmc = s.dmc ∧ (s.bumpSat f n).blt = s.blt ∧ (s.bumpSat f n).cxl = s.cxl ∧ (s.bumpSat f n).net = s.net ∧
    (s.bumpSat f n).cdc = s.cdc ∧ (s.bumpSat f n).dma = s.dma ∧ (s.bumpSat f n).wlk = s.wlk ∧ (s.bumpSat f n).finj = s.finj ∧
    (s.bumpSat f n).pix = s.pix ∧ (s.bumpSat f n).icu = s.icu ∧ (s.bumpSat f n).pwr = s.pwr ∧ (s.bumpSat f n).pins = s.pins ∧
    (s.bumpSat f n).boot = s.boot ∧ (s.bumpSat f n).dram = s.dram ∧ (s.bumpSat f n).host = s.host ∧
    (s.bumpSat f n).hostBad = s.hostBad := by
  and_intros <;> rfl

@[simp] theorem State.wr64_keeps (lo v : Nat) :
    (s.wr64 lo v).pending = s.pending ∧ (s.wr64 lo v).part = s.part ∧ (s.wr64 lo v).capHi = s.capHi ∧
    (s.wr64 lo v).heldLo = s.heldLo ∧ (s.wr64 lo v).lastRead = s.lastRead ∧ (s.wr64 lo v).fresh = s.fresh ∧
    (s.wr64 lo v).out = s.out ∧ (s.wr64 lo v).time = s.time ∧ (s.wr64 lo v).clk = s.clk ∧ (s.wr64 lo v).heads = s.heads ∧
    (s.wr64 lo v).layers = s.layers ∧ (s.wr64 lo v).fences = s.fences ∧ (s.wr64 lo v).commits = s.commits ∧
    (s.wr64 lo v).busy = s.busy ∧ (s.wr64 lo v).accepted = s.accepted ∧ (s.wr64 lo v).groups = s.groups ∧
    (s.wr64 lo v).scalQ = s.scalQ ∧ (s.wr64 lo v).scalers = s.scalers ∧ (s.wr64 lo v).surfaces = s.surfaces ∧
    (s.wr64 lo v).producers = s.producers ∧ (s.wr64 lo v).ltrEn = s.ltrEn ∧ (s.wr64 lo v).pcie = s.pcie ∧ (s.wr64 lo v).wb = s.wb ∧
    (s.wr64 lo v).pose = s.pose ∧ (s.wr64 lo v).mgmt = s.mgmt ∧ (s.wr64 lo v).sram = s.sram ∧ (s.wr64 lo v).mir = s.mir ∧
    (s.wr64 lo v).dmc = s.dmc ∧ (s.wr64 lo v).blt = s.blt ∧ (s.wr64 lo v).cxl = s.cxl ∧ (s.wr64 lo v).net = s.net ∧
    (s.wr64 lo v).cdc = s.cdc ∧ (s.wr64 lo v).dma = s.dma ∧ (s.wr64 lo v).wlk = s.wlk ∧ (s.wr64 lo v).finj = s.finj ∧
    (s.wr64 lo v).pix = s.pix ∧ (s.wr64 lo v).icu = s.icu ∧ (s.wr64 lo v).pwr = s.pwr ∧ (s.wr64 lo v).pins = s.pins ∧
    (s.wr64 lo v).boot = s.boot ∧ (s.wr64 lo v).dram = s.dram ∧ (s.wr64 lo v).host = s.host ∧ (s.wr64 lo v).hostBad = s.hostBad := by
  and_intros <;> rfl

@[simp] theorem State.tick_keeps  :
    (s.tick).pending = s.pending ∧ (s.tick).part = s.part ∧ (s.tick).regs = s.regs ∧ (s.tick).capHi = s.capHi ∧
    (s.tick).heldLo = s.heldLo ∧ (s.tick).lastRead = s.lastRead ∧ (s.tick).out = s.out ∧ (s.tick).time = s.time ∧
    (s.tick).clk = s.clk ∧ (s.tick).heads = s.heads ∧ (s.tick).layers = s.layers ∧ (s.tick).fences = s.fences ∧
    (s.tick).commits = s.commits ∧ (s.tick).busy = s.busy ∧ (s.tick).accepted = s.accepted ∧ (s.tick).groups = s.groups ∧
    (s.tick).scalQ = s.scalQ ∧ (s.tick).scalers = s.scalers ∧ (s.tick).surfaces = s.surfaces ∧ (s.tick).producers = s.producers ∧
    (s.tick).ltrEn = s.ltrEn ∧ (s.tick).pcie = s.pcie ∧ (s.tick).wb = s.wb ∧ (s.tick).pose = s.pose ∧ (s.tick).mgmt = s.mgmt ∧
    (s.tick).sram = s.sram ∧
    (s.tick).mir = s.mir ∧ (s.tick).dmc = s.dmc ∧ (s.tick).blt = s.blt ∧ (s.tick).cxl = s.cxl ∧ (s.tick).net = s.net ∧
    (s.tick).cdc = s.cdc ∧ (s.tick).dma = s.dma ∧ (s.tick).wlk = s.wlk ∧ (s.tick).finj = s.finj ∧ (s.tick).pix = s.pix ∧
    (s.tick).icu = s.icu ∧ (s.tick).pwr = s.pwr ∧ (s.tick).pins = s.pins ∧ (s.tick).boot = s.boot ∧ (s.tick).dram = s.dram ∧
    (s.tick).host = s.host ∧ (s.tick).hostBad = s.hostBad := by
  and_intros <;> rfl

@[simp] theorem State.ticks_keeps (n : Nat) :
    (s.ticks n).pending = s.pending ∧ (s.ticks n).part = s.part ∧ (s.ticks n).regs = s.regs ∧ (s.ticks n).capHi = s.capHi ∧
    (s.ticks n).heldLo = s.heldLo ∧ (s.ticks n).lastRead = s.lastRead ∧ (s.ticks n).out = s.out ∧ (s.ticks n).time = s.time ∧
    (s.ticks n).clk = s.clk ∧ (s.ticks n).heads = s.heads ∧ (s.ticks n).layers = s.layers ∧ (s.ticks n).fences = s.fences ∧
    (s.ticks n).commits = s.commits ∧ (s.ticks n).busy = s.busy ∧ (s.ticks n).accepted = s.accepted ∧
    (s.ticks n).groups = s.groups ∧ (s.ticks n).scalQ = s.scalQ ∧ (s.ticks n).scalers = s.scalers ∧
    (s.ticks n).surfaces = s.surfaces ∧ (s.ticks n).producers = s.producers ∧ (s.ticks n).ltrEn = s.ltrEn ∧ (s.ticks n).pcie = s.pcie ∧
    (s.ticks n).wb = s.wb ∧ (s.ticks n).pose = s.pose ∧ (s.ticks n).mgmt = s.mgmt ∧ (s.ticks n).sram = s.sram ∧
    (s.ticks n).mir = s.mir ∧ (s.ticks n).dmc = s.dmc ∧ (s.ticks n).blt = s.blt ∧ (s.ticks n).cxl = s.cxl ∧
    (s.ticks n).net = s.net ∧ (s.ticks n).cdc = s.cdc ∧ (s.ticks n).dma = s.dma ∧ (s.ticks n).wlk = s.wlk ∧
    (s.ticks n).finj = s.finj ∧ (s.ticks n).pix = s.pix ∧ (s.ticks n).icu = s.icu ∧ (s.ticks n).pwr = s.pwr ∧
    (s.ticks n).pins = s.pins ∧ (s.ticks n).boot = s.boot ∧ (s.ticks n).dram = s.dram ∧ (s.ticks n).host = s.host ∧
    (s.ticks n).hostBad = s.hostBad := by
  and_intros <;> rfl

@[simp] theorem State.emit_keeps (m : Msg) :
    (s.emit m).pending = s.pending ∧ (s.emit m).part = s.part ∧ (s.emit m).regs = s.regs ∧ (s.emit m).capHi = s.capHi ∧
    (s.emit m).heldLo = s.heldLo ∧ (s.emit m).lastRead = s.lastRead ∧ (s.emit m).fresh = s.fresh ∧ (s.emit m).time = s.time ∧
    (s.emit m).clk = s.clk ∧ (s.emit m).heads = s.heads ∧ (s.emit m).layers = s.layers ∧ (s.emit m).fences = s.fences ∧
    (s.emit m).commits = s.commits ∧ (s.emit m).busy = s.busy ∧ (s.emit m).accepted = s.accepted ∧ (s.emit m).groups = s.groups ∧
    (s.emit m).scalQ = s.scalQ ∧ (s.emit m).scalers = s.scalers ∧ (s.emit m).surfaces = s.surfaces ∧
    (s.emit m).producers = s.producers ∧ (s.emit m).ltrEn = s.ltrEn ∧ (s.emit m).pcie = s.pcie ∧ (s.emit m).wb = s.wb ∧
    (s.emit m).pose = s.pose ∧
    (s.emit m).mgmt = s.mgmt ∧ (s.emit m).sram = s.sram ∧ (s.emit m).mir = s.mir ∧ (s.emit m).dmc = s.dmc ∧
    (s.emit m).blt = s.blt ∧ (s.emit m).cxl = s.cxl ∧ (s.emit m).net = s.net ∧ (s.emit m).cdc = s.cdc ∧ (s.emit m).dma = s.dma ∧
    (s.emit m).wlk = s.wlk ∧ (s.emit m).finj = s.finj ∧ (s.emit m).pix = s.pix ∧ (s.emit m).icu = s.icu ∧
    (s.emit m).pwr = s.pwr ∧ (s.emit m).pins = s.pins ∧ (s.emit m).boot = s.boot ∧ (s.emit m).dram = s.dram ∧
    (s.emit m).host = s.host ∧ (s.emit m).hostBad = s.hostBad := by
  and_intros <;> rfl

@[simp] theorem State.dramWrite_keeps (a : Nat) (bs : List Nat) :
    (s.dramWrite a bs).pending = s.pending ∧ (s.dramWrite a bs).part = s.part ∧ (s.dramWrite a bs).regs = s.regs ∧
    (s.dramWrite a bs).capHi = s.capHi ∧ (s.dramWrite a bs).heldLo = s.heldLo ∧ (s.dramWrite a bs).lastRead = s.lastRead ∧
    (s.dramWrite a bs).fresh = s.fresh ∧ (s.dramWrite a bs).out = s.out ∧ (s.dramWrite a bs).time = s.time ∧
    (s.dramWrite a bs).clk = s.clk ∧ (s.dramWrite a bs).heads = s.heads ∧ (s.dramWrite a bs).layers = s.layers ∧
    (s.dramWrite a bs).fences = s.fences ∧ (s.dramWrite a bs).commits = s.commits ∧ (s.dramWrite a bs).busy = s.busy ∧
    (s.dramWrite a bs).accepted = s.accepted ∧ (s.dramWrite a bs).groups = s.groups ∧ (s.dramWrite a bs).scalQ = s.scalQ ∧
    (s.dramWrite a bs).scalers = s.scalers ∧ (s.dramWrite a bs).surfaces = s.surfaces ∧
    (s.dramWrite a bs).producers = s.producers ∧ (s.dramWrite a bs).ltrEn = s.ltrEn ∧ (s.dramWrite a bs).pcie = s.pcie ∧
    (s.dramWrite a bs).wb = s.wb ∧
    (s.dramWrite a bs).pose = s.pose ∧ (s.dramWrite a bs).mgmt = s.mgmt ∧ (s.dramWrite a bs).sram = s.sram ∧
    (s.dramWrite a bs).mir = s.mir ∧ (s.dramWrite a bs).dmc = s.dmc ∧ (s.dramWrite a bs).blt = s.blt ∧
    (s.dramWrite a bs).cxl = s.cxl ∧ (s.dramWrite a bs).net = s.net ∧ (s.dramWrite a bs).cdc = s.cdc ∧
    (s.dramWrite a bs).dma = s.dma ∧ (s.dramWrite a bs).wlk = s.wlk ∧ (s.dramWrite a bs).finj = s.finj ∧
    (s.dramWrite a bs).pix = s.pix ∧ (s.dramWrite a bs).icu = s.icu ∧ (s.dramWrite a bs).pwr = s.pwr ∧
    (s.dramWrite a bs).pins = s.pins ∧ (s.dramWrite a bs).boot = s.boot ∧ (s.dramWrite a bs).host = s.host ∧
    (s.dramWrite a bs).hostBad = s.hostBad := by
  and_intros <;> rfl

@[simp] theorem State.hostSee_keeps (a : Nat) (bs : List Nat) :
    (s.hostSee a bs).pending = s.pending ∧ (s.hostSee a bs).part = s.part ∧ (s.hostSee a bs).regs = s.regs ∧
    (s.hostSee a bs).capHi = s.capHi ∧ (s.hostSee a bs).heldLo = s.heldLo ∧ (s.hostSee a bs).lastRead = s.lastRead ∧
    (s.hostSee a bs).fresh = s.fresh ∧ (s.hostSee a bs).out = s.out ∧ (s.hostSee a bs).time = s.time ∧
    (s.hostSee a bs).clk = s.clk ∧ (s.hostSee a bs).heads = s.heads ∧ (s.hostSee a bs).layers = s.layers ∧
    (s.hostSee a bs).fences = s.fences ∧ (s.hostSee a bs).commits = s.commits ∧ (s.hostSee a bs).busy = s.busy ∧
    (s.hostSee a bs).accepted = s.accepted ∧ (s.hostSee a bs).groups = s.groups ∧ (s.hostSee a bs).scalQ = s.scalQ ∧
    (s.hostSee a bs).scalers = s.scalers ∧ (s.hostSee a bs).surfaces = s.surfaces ∧ (s.hostSee a bs).producers = s.producers ∧
    (s.hostSee a bs).ltrEn = s.ltrEn ∧ (s.hostSee a bs).pcie = s.pcie ∧ (s.hostSee a bs).wb = s.wb ∧ (s.hostSee a bs).pose = s.pose ∧
    (s.hostSee a bs).mgmt = s.mgmt ∧ (s.hostSee a bs).sram = s.sram ∧ (s.hostSee a bs).mir = s.mir ∧
    (s.hostSee a bs).dmc = s.dmc ∧ (s.hostSee a bs).blt = s.blt ∧ (s.hostSee a bs).cxl = s.cxl ∧ (s.hostSee a bs).net = s.net ∧
    (s.hostSee a bs).cdc = s.cdc ∧ (s.hostSee a bs).dma = s.dma ∧ (s.hostSee a bs).wlk = s.wlk ∧ (s.hostSee a bs).finj = s.finj ∧
    (s.hostSee a bs).pix = s.pix ∧ (s.hostSee a bs).icu = s.icu ∧ (s.hostSee a bs).pwr = s.pwr ∧ (s.hostSee a bs).pins = s.pins ∧
    (s.hostSee a bs).boot = s.boot ∧ (s.hostSee a bs).dram = s.dram ∧ (s.hostSee a bs).hostBad = s.hostBad := by
  and_intros <;> rfl

@[simp] theorem State.setMgmt_keeps (k : Nat) (m : MgmtSt) :
    (s.setMgmt k m).pending = s.pending ∧ (s.setMgmt k m).part = s.part ∧ (s.setMgmt k m).regs = s.regs ∧
    (s.setMgmt k m).capHi = s.capHi ∧ (s.setMgmt k m).heldLo = s.heldLo ∧ (s.setMgmt k m).lastRead = s.lastRead ∧
    (s.setMgmt k m).fresh = s.fresh ∧ (s.setMgmt k m).out = s.out ∧ (s.setMgmt k m).time = s.time ∧ (s.setMgmt k m).clk = s.clk ∧
    (s.setMgmt k m).heads = s.heads ∧ (s.setMgmt k m).layers = s.layers ∧ (s.setMgmt k m).fences = s.fences ∧
    (s.setMgmt k m).commits = s.commits ∧ (s.setMgmt k m).busy = s.busy ∧ (s.setMgmt k m).accepted = s.accepted ∧
    (s.setMgmt k m).groups = s.groups ∧ (s.setMgmt k m).scalQ = s.scalQ ∧ (s.setMgmt k m).scalers = s.scalers ∧
    (s.setMgmt k m).surfaces = s.surfaces ∧ (s.setMgmt k m).producers = s.producers ∧ (s.setMgmt k m).ltrEn = s.ltrEn ∧
    (s.setMgmt k m).pcie = s.pcie ∧
    (s.setMgmt k m).wb = s.wb ∧ (s.setMgmt k m).pose = s.pose ∧ (s.setMgmt k m).sram = s.sram ∧ (s.setMgmt k m).mir = s.mir ∧
    (s.setMgmt k m).dmc = s.dmc ∧ (s.setMgmt k m).blt = s.blt ∧ (s.setMgmt k m).cxl = s.cxl ∧ (s.setMgmt k m).net = s.net ∧
    (s.setMgmt k m).cdc = s.cdc ∧ (s.setMgmt k m).dma = s.dma ∧ (s.setMgmt k m).wlk = s.wlk ∧ (s.setMgmt k m).finj = s.finj ∧
    (s.setMgmt k m).pix = s.pix ∧ (s.setMgmt k m).icu = s.icu ∧ (s.setMgmt k m).pwr = s.pwr ∧ (s.setMgmt k m).pins = s.pins ∧
    (s.setMgmt k m).boot = s.boot ∧ (s.setMgmt k m).dram = s.dram ∧ (s.setMgmt k m).host = s.host ∧
    (s.setMgmt k m).hostBad = s.hostBad := by
  and_intros <;> rfl

@[simp] theorem State.setHead_keeps (h : Nat) (x : HeadSt) :
    (s.setHead h x).pending = s.pending ∧ (s.setHead h x).part = s.part ∧ (s.setHead h x).regs = s.regs ∧
    (s.setHead h x).capHi = s.capHi ∧ (s.setHead h x).heldLo = s.heldLo ∧ (s.setHead h x).lastRead = s.lastRead ∧
    (s.setHead h x).fresh = s.fresh ∧ (s.setHead h x).out = s.out ∧ (s.setHead h x).time = s.time ∧ (s.setHead h x).clk = s.clk ∧
    (s.setHead h x).layers = s.layers ∧ (s.setHead h x).fences = s.fences ∧ (s.setHead h x).commits = s.commits ∧
    (s.setHead h x).busy = s.busy ∧ (s.setHead h x).accepted = s.accepted ∧ (s.setHead h x).groups = s.groups ∧
    (s.setHead h x).scalQ = s.scalQ ∧ (s.setHead h x).scalers = s.scalers ∧ (s.setHead h x).surfaces = s.surfaces ∧
    (s.setHead h x).producers = s.producers ∧ (s.setHead h x).ltrEn = s.ltrEn ∧ (s.setHead h x).pcie = s.pcie ∧
    (s.setHead h x).wb = s.wb ∧
    (s.setHead h x).pose = s.pose ∧ (s.setHead h x).mgmt = s.mgmt ∧ (s.setHead h x).sram = s.sram ∧ (s.setHead h x).mir = s.mir ∧
    (s.setHead h x).dmc = s.dmc ∧ (s.setHead h x).blt = s.blt ∧ (s.setHead h x).cxl = s.cxl ∧ (s.setHead h x).net = s.net ∧
    (s.setHead h x).cdc = s.cdc ∧ (s.setHead h x).dma = s.dma ∧ (s.setHead h x).wlk = s.wlk ∧ (s.setHead h x).finj = s.finj ∧
    (s.setHead h x).pix = s.pix ∧ (s.setHead h x).icu = s.icu ∧ (s.setHead h x).pwr = s.pwr ∧ (s.setHead h x).pins = s.pins ∧
    (s.setHead h x).boot = s.boot ∧ (s.setHead h x).dram = s.dram ∧ (s.setHead h x).host = s.host ∧
    (s.setHead h x).hostBad = s.hostBad := by
  and_intros <;> rfl

@[simp] theorem State.setLayerRt_keeps (i : Nat) (x : LayerRt) :
    (s.setLayerRt i x).pending = s.pending ∧ (s.setLayerRt i x).part = s.part ∧ (s.setLayerRt i x).regs = s.regs ∧
    (s.setLayerRt i x).capHi = s.capHi ∧ (s.setLayerRt i x).heldLo = s.heldLo ∧ (s.setLayerRt i x).lastRead = s.lastRead ∧
    (s.setLayerRt i x).fresh = s.fresh ∧ (s.setLayerRt i x).out = s.out ∧ (s.setLayerRt i x).time = s.time ∧
    (s.setLayerRt i x).clk = s.clk ∧ (s.setLayerRt i x).heads = s.heads ∧ (s.setLayerRt i x).fences = s.fences ∧
    (s.setLayerRt i x).commits = s.commits ∧ (s.setLayerRt i x).busy = s.busy ∧ (s.setLayerRt i x).accepted = s.accepted ∧
    (s.setLayerRt i x).groups = s.groups ∧ (s.setLayerRt i x).scalQ = s.scalQ ∧ (s.setLayerRt i x).scalers = s.scalers ∧
    (s.setLayerRt i x).surfaces = s.surfaces ∧ (s.setLayerRt i x).producers = s.producers ∧ (s.setLayerRt i x).ltrEn = s.ltrEn ∧
    (s.setLayerRt i x).pcie = s.pcie ∧
    (s.setLayerRt i x).wb = s.wb ∧ (s.setLayerRt i x).pose = s.pose ∧ (s.setLayerRt i x).mgmt = s.mgmt ∧
    (s.setLayerRt i x).sram = s.sram ∧ (s.setLayerRt i x).mir = s.mir ∧ (s.setLayerRt i x).dmc = s.dmc ∧
    (s.setLayerRt i x).blt = s.blt ∧ (s.setLayerRt i x).cxl = s.cxl ∧ (s.setLayerRt i x).net = s.net ∧
    (s.setLayerRt i x).cdc = s.cdc ∧ (s.setLayerRt i x).dma = s.dma ∧ (s.setLayerRt i x).wlk = s.wlk ∧
    (s.setLayerRt i x).finj = s.finj ∧ (s.setLayerRt i x).pix = s.pix ∧ (s.setLayerRt i x).icu = s.icu ∧
    (s.setLayerRt i x).pwr = s.pwr ∧ (s.setLayerRt i x).pins = s.pins ∧ (s.setLayerRt i x).boot = s.boot ∧
    (s.setLayerRt i x).dram = s.dram ∧ (s.setLayerRt i x).host = s.host ∧ (s.setLayerRt i x).hostBad = s.hostBad := by
  and_intros <;> rfl

@[simp] theorem State.setGroup_keeps (g : Nat) (x : GroupSt) :
    (s.setGroup g x).pending = s.pending ∧ (s.setGroup g x).part = s.part ∧ (s.setGroup g x).capHi = s.capHi ∧
    (s.setGroup g x).heldLo = s.heldLo ∧ (s.setGroup g x).lastRead = s.lastRead ∧ (s.setGroup g x).fresh = s.fresh ∧
    (s.setGroup g x).out = s.out ∧ (s.setGroup g x).time = s.time ∧ (s.setGroup g x).clk = s.clk ∧
    (s.setGroup g x).heads = s.heads ∧ (s.setGroup g x).layers = s.layers ∧ (s.setGroup g x).fences = s.fences ∧
    (s.setGroup g x).commits = s.commits ∧ (s.setGroup g x).busy = s.busy ∧ (s.setGroup g x).accepted = s.accepted ∧
    (s.setGroup g x).scalQ = s.scalQ ∧ (s.setGroup g x).scalers = s.scalers ∧ (s.setGroup g x).surfaces = s.surfaces ∧
    (s.setGroup g x).producers = s.producers ∧ (s.setGroup g x).ltrEn = s.ltrEn ∧ (s.setGroup g x).pcie = s.pcie ∧
    (s.setGroup g x).wb = s.wb ∧
    (s.setGroup g x).pose = s.pose ∧ (s.setGroup g x).mgmt = s.mgmt ∧ (s.setGroup g x).sram = s.sram ∧
    (s.setGroup g x).mir = s.mir ∧ (s.setGroup g x).dmc = s.dmc ∧ (s.setGroup g x).blt = s.blt ∧ (s.setGroup g x).cxl = s.cxl ∧
    (s.setGroup g x).net = s.net ∧ (s.setGroup g x).cdc = s.cdc ∧ (s.setGroup g x).dma = s.dma ∧ (s.setGroup g x).wlk = s.wlk ∧
    (s.setGroup g x).finj = s.finj ∧ (s.setGroup g x).pix = s.pix ∧ (s.setGroup g x).icu = s.icu ∧ (s.setGroup g x).pwr = s.pwr ∧
    (s.setGroup g x).pins = s.pins ∧ (s.setGroup g x).boot = s.boot ∧ (s.setGroup g x).dram = s.dram ∧
    (s.setGroup g x).host = s.host ∧ (s.setGroup g x).hostBad = s.hostBad := by
  and_intros <;> rfl

@[simp] theorem State.setWb_keeps (n : Nat) (x : WbSt) :
    (s.setWb n x).pending = s.pending ∧ (s.setWb n x).part = s.part ∧ (s.setWb n x).regs = s.regs ∧
    (s.setWb n x).capHi = s.capHi ∧ (s.setWb n x).heldLo = s.heldLo ∧ (s.setWb n x).lastRead = s.lastRead ∧
    (s.setWb n x).fresh = s.fresh ∧ (s.setWb n x).out = s.out ∧ (s.setWb n x).time = s.time ∧ (s.setWb n x).clk = s.clk ∧
    (s.setWb n x).heads = s.heads ∧ (s.setWb n x).layers = s.layers ∧ (s.setWb n x).fences = s.fences ∧
    (s.setWb n x).commits = s.commits ∧ (s.setWb n x).busy = s.busy ∧ (s.setWb n x).accepted = s.accepted ∧
    (s.setWb n x).groups = s.groups ∧ (s.setWb n x).scalQ = s.scalQ ∧ (s.setWb n x).scalers = s.scalers ∧
    (s.setWb n x).surfaces = s.surfaces ∧ (s.setWb n x).producers = s.producers ∧ (s.setWb n x).ltrEn = s.ltrEn ∧
    (s.setWb n x).pcie = s.pcie ∧
    (s.setWb n x).pose = s.pose ∧ (s.setWb n x).mgmt = s.mgmt ∧ (s.setWb n x).sram = s.sram ∧ (s.setWb n x).mir = s.mir ∧
    (s.setWb n x).dmc = s.dmc ∧ (s.setWb n x).blt = s.blt ∧ (s.setWb n x).cxl = s.cxl ∧ (s.setWb n x).net = s.net ∧
    (s.setWb n x).cdc = s.cdc ∧ (s.setWb n x).dma = s.dma ∧ (s.setWb n x).wlk = s.wlk ∧ (s.setWb n x).finj = s.finj ∧
    (s.setWb n x).pix = s.pix ∧ (s.setWb n x).icu = s.icu ∧ (s.setWb n x).pwr = s.pwr ∧ (s.setWb n x).pins = s.pins ∧
    (s.setWb n x).boot = s.boot ∧ (s.setWb n x).dram = s.dram ∧ (s.setWb n x).host = s.host ∧ (s.setWb n x).hostBad = s.hostBad := by
  and_intros <;> rfl

@[simp] theorem State.setPoseSrc_keeps (i : Nat) (x : PoseSrc) :
    (s.setPoseSrc i x).pending = s.pending ∧ (s.setPoseSrc i x).part = s.part ∧ (s.setPoseSrc i x).regs = s.regs ∧
    (s.setPoseSrc i x).capHi = s.capHi ∧ (s.setPoseSrc i x).heldLo = s.heldLo ∧ (s.setPoseSrc i x).lastRead = s.lastRead ∧
    (s.setPoseSrc i x).fresh = s.fresh ∧ (s.setPoseSrc i x).out = s.out ∧ (s.setPoseSrc i x).time = s.time ∧
    (s.setPoseSrc i x).clk = s.clk ∧ (s.setPoseSrc i x).heads = s.heads ∧ (s.setPoseSrc i x).layers = s.layers ∧
    (s.setPoseSrc i x).fences = s.fences ∧ (s.setPoseSrc i x).commits = s.commits ∧ (s.setPoseSrc i x).busy = s.busy ∧
    (s.setPoseSrc i x).accepted = s.accepted ∧ (s.setPoseSrc i x).groups = s.groups ∧ (s.setPoseSrc i x).scalQ = s.scalQ ∧
    (s.setPoseSrc i x).scalers = s.scalers ∧ (s.setPoseSrc i x).surfaces = s.surfaces ∧
    (s.setPoseSrc i x).producers = s.producers ∧ (s.setPoseSrc i x).ltrEn = s.ltrEn ∧ (s.setPoseSrc i x).pcie = s.pcie ∧
    (s.setPoseSrc i x).wb = s.wb ∧
    (s.setPoseSrc i x).mgmt = s.mgmt ∧ (s.setPoseSrc i x).sram = s.sram ∧ (s.setPoseSrc i x).mir = s.mir ∧
    (s.setPoseSrc i x).dmc = s.dmc ∧ (s.setPoseSrc i x).blt = s.blt ∧ (s.setPoseSrc i x).cxl = s.cxl ∧
    (s.setPoseSrc i x).net = s.net ∧ (s.setPoseSrc i x).cdc = s.cdc ∧ (s.setPoseSrc i x).dma = s.dma ∧
    (s.setPoseSrc i x).wlk = s.wlk ∧ (s.setPoseSrc i x).finj = s.finj ∧ (s.setPoseSrc i x).pix = s.pix ∧
    (s.setPoseSrc i x).icu = s.icu ∧ (s.setPoseSrc i x).pwr = s.pwr ∧ (s.setPoseSrc i x).pins = s.pins ∧
    (s.setPoseSrc i x).boot = s.boot ∧ (s.setPoseSrc i x).dram = s.dram ∧ (s.setPoseSrc i x).host = s.host ∧
    (s.setPoseSrc i x).hostBad = s.hostBad := by
  and_intros <;> rfl

@[simp] theorem State.signalFence_keeps (n v t : Nat) :
    (s.signalFence n v t).pending = s.pending ∧ (s.signalFence n v t).part = s.part ∧ (s.signalFence n v t).capHi = s.capHi ∧
    (s.signalFence n v t).heldLo = s.heldLo ∧ (s.signalFence n v t).lastRead = s.lastRead ∧
    (s.signalFence n v t).fresh = s.fresh ∧ (s.signalFence n v t).out = s.out ∧ (s.signalFence n v t).time = s.time ∧
    (s.signalFence n v t).clk = s.clk ∧ (s.signalFence n v t).heads = s.heads ∧ (s.signalFence n v t).layers = s.layers ∧
    (s.signalFence n v t).commits = s.commits ∧ (s.signalFence n v t).busy = s.busy ∧
    (s.signalFence n v t).accepted = s.accepted ∧ (s.signalFence n v t).groups = s.groups ∧
    (s.signalFence n v t).scalQ = s.scalQ ∧ (s.signalFence n v t).scalers = s.scalers ∧
    (s.signalFence n v t).surfaces = s.surfaces ∧ (s.signalFence n v t).producers = s.producers ∧
    (s.signalFence n v t).ltrEn = s.ltrEn ∧ (s.signalFence n v t).pcie = s.pcie ∧ (s.signalFence n v t).wb = s.wb ∧
    (s.signalFence n v t).pose = s.pose ∧
    (s.signalFence n v t).mgmt = s.mgmt ∧ (s.signalFence n v t).sram = s.sram ∧ (s.signalFence n v t).mir = s.mir ∧
    (s.signalFence n v t).dmc = s.dmc ∧ (s.signalFence n v t).blt = s.blt ∧ (s.signalFence n v t).cxl = s.cxl ∧
    (s.signalFence n v t).net = s.net ∧ (s.signalFence n v t).cdc = s.cdc ∧ (s.signalFence n v t).dma = s.dma ∧
    (s.signalFence n v t).wlk = s.wlk ∧ (s.signalFence n v t).finj = s.finj ∧ (s.signalFence n v t).pix = s.pix ∧
    (s.signalFence n v t).icu = s.icu ∧ (s.signalFence n v t).pwr = s.pwr ∧ (s.signalFence n v t).pins = s.pins ∧
    (s.signalFence n v t).boot = s.boot ∧ (s.signalFence n v t).dram = s.dram ∧ (s.signalFence n v t).host = s.host ∧
    (s.signalFence n v t).hostBad = s.hostBad := by
  simp [State.signalFence]

@[simp] theorem State.elapse_keeps (d : Nat) :
    (s.elapse d).pending = s.pending ∧ (s.elapse d).part = s.part ∧ (s.elapse d).regs = s.regs ∧ (s.elapse d).capHi = s.capHi ∧
    (s.elapse d).heldLo = s.heldLo ∧ (s.elapse d).lastRead = s.lastRead ∧ (s.elapse d).fresh = s.fresh ∧
    (s.elapse d).out = s.out ∧ (s.elapse d).clk = s.clk ∧ (s.elapse d).heads = s.heads ∧ (s.elapse d).layers = s.layers ∧
    (s.elapse d).fences = s.fences ∧ (s.elapse d).commits = s.commits ∧ (s.elapse d).busy = s.busy ∧
    (s.elapse d).accepted = s.accepted ∧ (s.elapse d).groups = s.groups ∧ (s.elapse d).scalQ = s.scalQ ∧
    (s.elapse d).scalers = s.scalers ∧ (s.elapse d).surfaces = s.surfaces ∧ (s.elapse d).producers = s.producers ∧
    (s.elapse d).ltrEn = s.ltrEn ∧ (s.elapse d).pcie = s.pcie ∧ (s.elapse d).wb = s.wb ∧ (s.elapse d).pose = s.pose ∧
    (s.elapse d).mgmt = s.mgmt ∧
    (s.elapse d).sram = s.sram ∧ (s.elapse d).mir = s.mir ∧ (s.elapse d).dmc = s.dmc ∧ (s.elapse d).blt = s.blt ∧
    (s.elapse d).cxl = s.cxl ∧ (s.elapse d).net = s.net ∧ (s.elapse d).cdc = s.cdc ∧ (s.elapse d).dma = s.dma ∧
    (s.elapse d).wlk = s.wlk ∧ (s.elapse d).finj = s.finj ∧ (s.elapse d).pix = s.pix ∧ (s.elapse d).icu = s.icu ∧
    (s.elapse d).pwr = s.pwr ∧ (s.elapse d).pins = s.pins ∧ (s.elapse d).boot = s.boot ∧ (s.elapse d).dram = s.dram ∧
    (s.elapse d).host = s.host ∧ (s.elapse d).hostBad = s.hostBad := by
  unfold State.elapse; split <;> simp

@[simp] theorem State.advanceTo_keeps (t : Nat) :
    (s.advanceTo t).pending = s.pending ∧ (s.advanceTo t).part = s.part ∧ (s.advanceTo t).regs = s.regs ∧
    (s.advanceTo t).capHi = s.capHi ∧ (s.advanceTo t).heldLo = s.heldLo ∧ (s.advanceTo t).lastRead = s.lastRead ∧
    (s.advanceTo t).fresh = s.fresh ∧ (s.advanceTo t).out = s.out ∧ (s.advanceTo t).clk = s.clk ∧
    (s.advanceTo t).heads = s.heads ∧ (s.advanceTo t).layers = s.layers ∧ (s.advanceTo t).fences = s.fences ∧
    (s.advanceTo t).commits = s.commits ∧ (s.advanceTo t).busy = s.busy ∧ (s.advanceTo t).accepted = s.accepted ∧
    (s.advanceTo t).groups = s.groups ∧ (s.advanceTo t).scalQ = s.scalQ ∧ (s.advanceTo t).scalers = s.scalers ∧
    (s.advanceTo t).surfaces = s.surfaces ∧ (s.advanceTo t).producers = s.producers ∧ (s.advanceTo t).ltrEn = s.ltrEn ∧
    (s.advanceTo t).pcie = s.pcie ∧
    (s.advanceTo t).wb = s.wb ∧ (s.advanceTo t).pose = s.pose ∧ (s.advanceTo t).mgmt = s.mgmt ∧ (s.advanceTo t).sram = s.sram ∧
    (s.advanceTo t).mir = s.mir ∧ (s.advanceTo t).dmc = s.dmc ∧ (s.advanceTo t).blt = s.blt ∧ (s.advanceTo t).cxl = s.cxl ∧
    (s.advanceTo t).net = s.net ∧ (s.advanceTo t).cdc = s.cdc ∧ (s.advanceTo t).dma = s.dma ∧ (s.advanceTo t).wlk = s.wlk ∧
    (s.advanceTo t).finj = s.finj ∧ (s.advanceTo t).pix = s.pix ∧ (s.advanceTo t).icu = s.icu ∧ (s.advanceTo t).pwr = s.pwr ∧
    (s.advanceTo t).pins = s.pins ∧ (s.advanceTo t).boot = s.boot ∧ (s.advanceTo t).dram = s.dram ∧
    (s.advanceTo t).host = s.host ∧ (s.advanceTo t).hostBad = s.hostBad := by
  unfold State.advanceTo; split <;> simp

@[simp] theorem State.sendMsix_keeps (v : Nat) :
    (s.sendMsix v).pending = s.pending ∧ (s.sendMsix v).part = s.part ∧ (s.sendMsix v).regs = s.regs ∧
    (s.sendMsix v).capHi = s.capHi ∧ (s.sendMsix v).heldLo = s.heldLo ∧ (s.sendMsix v).lastRead = s.lastRead ∧
    (s.sendMsix v).fresh = s.fresh ∧ (s.sendMsix v).time = s.time ∧ (s.sendMsix v).clk = s.clk ∧ (s.sendMsix v).heads = s.heads ∧
    (s.sendMsix v).layers = s.layers ∧ (s.sendMsix v).fences = s.fences ∧ (s.sendMsix v).commits = s.commits ∧
    (s.sendMsix v).busy = s.busy ∧ (s.sendMsix v).accepted = s.accepted ∧ (s.sendMsix v).groups = s.groups ∧
    (s.sendMsix v).scalQ = s.scalQ ∧ (s.sendMsix v).scalers = s.scalers ∧ (s.sendMsix v).surfaces = s.surfaces ∧
    (s.sendMsix v).producers = s.producers ∧ (s.sendMsix v).ltrEn = s.ltrEn ∧ (s.sendMsix v).pcie = s.pcie ∧ (s.sendMsix v).wb = s.wb ∧
    (s.sendMsix v).pose = s.pose ∧ (s.sendMsix v).mgmt = s.mgmt ∧ (s.sendMsix v).sram = s.sram ∧ (s.sendMsix v).mir = s.mir ∧
    (s.sendMsix v).dmc = s.dmc ∧ (s.sendMsix v).blt = s.blt ∧ (s.sendMsix v).cxl = s.cxl ∧ (s.sendMsix v).net = s.net ∧
    (s.sendMsix v).cdc = s.cdc ∧ (s.sendMsix v).dma = s.dma ∧ (s.sendMsix v).wlk = s.wlk ∧ (s.sendMsix v).finj = s.finj ∧
    (s.sendMsix v).pix = s.pix ∧ (s.sendMsix v).pwr = s.pwr ∧ (s.sendMsix v).pins = s.pins ∧ (s.sendMsix v).boot = s.boot ∧
    (s.sendMsix v).dram = s.dram ∧ (s.sendMsix v).host = s.host ∧ (s.sendMsix v).hostBad = s.hostBad := by
  and_intros <;> (unfold State.sendMsix State.emitMsix; dsimp only; (repeat' split) <;> rfl)

@[simp] theorem State.evalLine_keeps (t : Nat) :
    (s.evalLine t).pending = s.pending ∧ (s.evalLine t).part = s.part ∧ (s.evalLine t).capHi = s.capHi ∧
    (s.evalLine t).heldLo = s.heldLo ∧ (s.evalLine t).lastRead = s.lastRead ∧ (s.evalLine t).fresh = s.fresh ∧
    (s.evalLine t).time = s.time ∧ (s.evalLine t).clk = s.clk ∧ (s.evalLine t).heads = s.heads ∧
    (s.evalLine t).layers = s.layers ∧ (s.evalLine t).fences = s.fences ∧ (s.evalLine t).commits = s.commits ∧
    (s.evalLine t).busy = s.busy ∧ (s.evalLine t).accepted = s.accepted ∧ (s.evalLine t).groups = s.groups ∧
    (s.evalLine t).scalQ = s.scalQ ∧ (s.evalLine t).scalers = s.scalers ∧ (s.evalLine t).surfaces = s.surfaces ∧
    (s.evalLine t).producers = s.producers ∧ (s.evalLine t).ltrEn = s.ltrEn ∧ (s.evalLine t).pcie = s.pcie ∧ (s.evalLine t).wb = s.wb ∧
    (s.evalLine t).pose = s.pose ∧ (s.evalLine t).mgmt = s.mgmt ∧ (s.evalLine t).sram = s.sram ∧ (s.evalLine t).mir = s.mir ∧
    (s.evalLine t).dmc = s.dmc ∧ (s.evalLine t).blt = s.blt ∧ (s.evalLine t).cxl = s.cxl ∧ (s.evalLine t).net = s.net ∧
    (s.evalLine t).cdc = s.cdc ∧ (s.evalLine t).dma = s.dma ∧ (s.evalLine t).wlk = s.wlk ∧ (s.evalLine t).finj = s.finj ∧
    (s.evalLine t).pix = s.pix ∧ (s.evalLine t).pwr = s.pwr ∧ (s.evalLine t).pins = s.pins ∧ (s.evalLine t).boot = s.boot ∧
    (s.evalLine t).dram = s.dram ∧ (s.evalLine t).host = s.host ∧ (s.evalLine t).hostBad = s.hostBad := by
  and_intros <;> (unfold State.evalLine; dsimp only; (repeat' split) <;> simp)

@[simp] theorem State.evalLines_keeps  :
    (s.evalLines).pending = s.pending ∧ (s.evalLines).part = s.part ∧ (s.evalLines).capHi = s.capHi ∧
    (s.evalLines).heldLo = s.heldLo ∧ (s.evalLines).lastRead = s.lastRead ∧ (s.evalLines).fresh = s.fresh ∧
    (s.evalLines).time = s.time ∧ (s.evalLines).clk = s.clk ∧ (s.evalLines).heads = s.heads ∧ (s.evalLines).layers = s.layers ∧
    (s.evalLines).fences = s.fences ∧ (s.evalLines).commits = s.commits ∧ (s.evalLines).busy = s.busy ∧
    (s.evalLines).accepted = s.accepted ∧ (s.evalLines).groups = s.groups ∧ (s.evalLines).scalQ = s.scalQ ∧
    (s.evalLines).scalers = s.scalers ∧ (s.evalLines).surfaces = s.surfaces ∧ (s.evalLines).producers = s.producers ∧
    (s.evalLines).ltrEn = s.ltrEn ∧ (s.evalLines).pcie = s.pcie ∧ (s.evalLines).wb = s.wb ∧ (s.evalLines).pose = s.pose ∧
    (s.evalLines).mgmt = s.mgmt ∧
    (s.evalLines).sram = s.sram ∧ (s.evalLines).mir = s.mir ∧ (s.evalLines).dmc = s.dmc ∧ (s.evalLines).blt = s.blt ∧
    (s.evalLines).cxl = s.cxl ∧ (s.evalLines).net = s.net ∧ (s.evalLines).cdc = s.cdc ∧ (s.evalLines).dma = s.dma ∧
    (s.evalLines).wlk = s.wlk ∧ (s.evalLines).finj = s.finj ∧ (s.evalLines).pix = s.pix ∧ (s.evalLines).pwr = s.pwr ∧
    (s.evalLines).pins = s.pins ∧ (s.evalLines).boot = s.boot ∧ (s.evalLines).dram = s.dram ∧ (s.evalLines).host = s.host ∧
    (s.evalLines).hostBad = s.hostBad := by
  unfold State.evalLines; split
  · simp
  · simp [List.range, List.range.loop]

@[simp] theorem State.wake_keeps  :
    (s.wake).pending = s.pending ∧ (s.wake).part = s.part ∧ (s.wake).capHi = s.capHi ∧ (s.wake).heldLo = s.heldLo ∧
    (s.wake).lastRead = s.lastRead ∧ (s.wake).fresh = s.fresh ∧ (s.wake).out = s.out ∧ (s.wake).time = s.time ∧
    (s.wake).clk = s.clk ∧ (s.wake).heads = s.heads ∧ (s.wake).layers = s.layers ∧ (s.wake).fences = s.fences ∧
    (s.wake).commits = s.commits ∧ (s.wake).busy = s.busy ∧ (s.wake).accepted = s.accepted ∧ (s.wake).groups = s.groups ∧
    (s.wake).scalQ = s.scalQ ∧ (s.wake).scalers = s.scalers ∧ (s.wake).surfaces = s.surfaces ∧ (s.wake).producers = s.producers ∧
    (s.wake).ltrEn = s.ltrEn ∧ (s.wake).pcie = s.pcie ∧ (s.wake).wb = s.wb ∧ (s.wake).pose = s.pose ∧ (s.wake).mgmt = s.mgmt ∧
    (s.wake).sram = s.sram ∧
    (s.wake).mir = s.mir ∧ (s.wake).dmc = s.dmc ∧ (s.wake).blt = s.blt ∧ (s.wake).cxl = s.cxl ∧ (s.wake).net = s.net ∧
    (s.wake).cdc = s.cdc ∧ (s.wake).dma = s.dma ∧ (s.wake).wlk = s.wlk ∧ (s.wake).finj = s.finj ∧ (s.wake).pix = s.pix ∧
    (s.wake).icu = s.icu ∧ (s.wake).pins = s.pins ∧ (s.wake).boot = s.boot ∧ (s.wake).dram = s.dram ∧ (s.wake).host = s.host ∧
    (s.wake).hostBad = s.hostBad := by
  and_intros <;> (unfold State.wake; (repeat' split) <;> simp)

@[simp] theorem State.pend_keeps (n : Nat) :
    (s.pend n).pending = s.pending ∧ (s.pend n).part = s.part ∧ (s.pend n).capHi = s.capHi ∧
    (s.pend n).heldLo = s.heldLo ∧ (s.pend n).lastRead = s.lastRead ∧ (s.pend n).fresh = s.fresh ∧
    (s.pend n).time = s.time ∧ (s.pend n).clk = s.clk ∧ (s.pend n).heads = s.heads ∧ (s.pend n).layers = s.layers ∧
    (s.pend n).fences = s.fences ∧ (s.pend n).commits = s.commits ∧ (s.pend n).busy = s.busy ∧
    (s.pend n).accepted = s.accepted ∧ (s.pend n).groups = s.groups ∧ (s.pend n).scalQ = s.scalQ ∧
    (s.pend n).scalers = s.scalers ∧ (s.pend n).surfaces = s.surfaces ∧ (s.pend n).producers = s.producers ∧
    (s.pend n).ltrEn = s.ltrEn ∧ (s.pend n).pcie = s.pcie ∧ (s.pend n).wb = s.wb ∧ (s.pend n).pose = s.pose ∧
    (s.pend n).mgmt = s.mgmt ∧
    (s.pend n).sram = s.sram ∧ (s.pend n).mir = s.mir ∧ (s.pend n).dmc = s.dmc ∧ (s.pend n).blt = s.blt ∧
    (s.pend n).cxl = s.cxl ∧ (s.pend n).net = s.net ∧ (s.pend n).cdc = s.cdc ∧ (s.pend n).dma = s.dma ∧
    (s.pend n).wlk = s.wlk ∧ (s.pend n).finj = s.finj ∧ (s.pend n).pix = s.pix ∧ (s.pend n).pins = s.pins ∧
    (s.pend n).boot = s.boot ∧ (s.pend n).dram = s.dram ∧ (s.pend n).host = s.host ∧ (s.pend n).hostBad = s.hostBad := by
  and_intros <;> (unfold State.pend; dsimp only; (repeat' split) <;> simp)

@[simp] theorem State.signal_keeps (n : Nat) :
    (s.signal n).pending = s.pending ∧ (s.signal n).part = s.part ∧ (s.signal n).capHi = s.capHi ∧
    (s.signal n).heldLo = s.heldLo ∧ (s.signal n).lastRead = s.lastRead ∧ (s.signal n).fresh = s.fresh ∧
    (s.signal n).time = s.time ∧ (s.signal n).clk = s.clk ∧ (s.signal n).heads = s.heads ∧ (s.signal n).layers = s.layers ∧
    (s.signal n).fences = s.fences ∧ (s.signal n).commits = s.commits ∧ (s.signal n).busy = s.busy ∧
    (s.signal n).accepted = s.accepted ∧ (s.signal n).groups = s.groups ∧ (s.signal n).scalQ = s.scalQ ∧
    (s.signal n).scalers = s.scalers ∧ (s.signal n).surfaces = s.surfaces ∧ (s.signal n).producers = s.producers ∧
    (s.signal n).ltrEn = s.ltrEn ∧ (s.signal n).pcie = s.pcie ∧ (s.signal n).wb = s.wb ∧ (s.signal n).pose = s.pose ∧
    (s.signal n).mgmt = s.mgmt ∧
    (s.signal n).sram = s.sram ∧ (s.signal n).mir = s.mir ∧ (s.signal n).dmc = s.dmc ∧ (s.signal n).blt = s.blt ∧
    (s.signal n).cxl = s.cxl ∧ (s.signal n).net = s.net ∧ (s.signal n).cdc = s.cdc ∧ (s.signal n).dma = s.dma ∧
    (s.signal n).wlk = s.wlk ∧ (s.signal n).finj = s.finj ∧ (s.signal n).pix = s.pix ∧ (s.signal n).pins = s.pins ∧
    (s.signal n).boot = s.boot ∧ (s.signal n).dram = s.dram ∧ (s.signal n).host = s.host ∧ (s.signal n).hostBad = s.hostBad := by
  and_intros <;> (unfold State.signal; split <;> simp)

@[simp] theorem State.raise_keeps (f : Fld) (n : Nat) :
    (s.raise f n).pending = s.pending ∧ (s.raise f n).part = s.part ∧ (s.raise f n).capHi = s.capHi ∧
    (s.raise f n).heldLo = s.heldLo ∧ (s.raise f n).lastRead = s.lastRead ∧ (s.raise f n).fresh = s.fresh ∧
    (s.raise f n).time = s.time ∧ (s.raise f n).clk = s.clk ∧ (s.raise f n).heads = s.heads ∧ (s.raise f n).layers = s.layers ∧
    (s.raise f n).fences = s.fences ∧ (s.raise f n).commits = s.commits ∧ (s.raise f n).busy = s.busy ∧
    (s.raise f n).accepted = s.accepted ∧ (s.raise f n).groups = s.groups ∧ (s.raise f n).scalQ = s.scalQ ∧
    (s.raise f n).scalers = s.scalers ∧ (s.raise f n).surfaces = s.surfaces ∧ (s.raise f n).producers = s.producers ∧
    (s.raise f n).ltrEn = s.ltrEn ∧ (s.raise f n).pcie = s.pcie ∧ (s.raise f n).wb = s.wb ∧ (s.raise f n).pose = s.pose ∧
    (s.raise f n).mgmt = s.mgmt ∧
    (s.raise f n).sram = s.sram ∧ (s.raise f n).mir = s.mir ∧ (s.raise f n).dmc = s.dmc ∧ (s.raise f n).blt = s.blt ∧
    (s.raise f n).cxl = s.cxl ∧ (s.raise f n).net = s.net ∧ (s.raise f n).cdc = s.cdc ∧ (s.raise f n).dma = s.dma ∧
    (s.raise f n).wlk = s.wlk ∧ (s.raise f n).finj = s.finj ∧ (s.raise f n).pix = s.pix ∧ (s.raise f n).pins = s.pins ∧
    (s.raise f n).boot = s.boot ∧ (s.raise f n).dram = s.dram ∧ (s.raise f n).host = s.host ∧ (s.raise f n).hostBad = s.hostBad := by
  simp [State.raise]

@[simp] theorem State.violation_keeps (a : Nat) (w : Bool) (k x : Nat) :
    (s.violation a w k x).pending = s.pending ∧ (s.violation a w k x).part = s.part ∧ (s.violation a w k x).capHi = s.capHi ∧
    (s.violation a w k x).heldLo = s.heldLo ∧ (s.violation a w k x).lastRead = s.lastRead ∧
    (s.violation a w k x).fresh = s.fresh ∧ (s.violation a w k x).time = s.time ∧ (s.violation a w k x).clk = s.clk ∧
    (s.violation a w k x).heads = s.heads ∧ (s.violation a w k x).layers = s.layers ∧ (s.violation a w k x).fences = s.fences ∧
    (s.violation a w k x).commits = s.commits ∧ (s.violation a w k x).busy = s.busy ∧
    (s.violation a w k x).accepted = s.accepted ∧ (s.violation a w k x).groups = s.groups ∧
    (s.violation a w k x).scalQ = s.scalQ ∧ (s.violation a w k x).scalers = s.scalers ∧
    (s.violation a w k x).surfaces = s.surfaces ∧ (s.violation a w k x).producers = s.producers ∧
    (s.violation a w k x).ltrEn = s.ltrEn ∧ (s.violation a w k x).pcie = s.pcie ∧ (s.violation a w k x).wb = s.wb ∧
    (s.violation a w k x).pose = s.pose ∧
    (s.violation a w k x).mgmt = s.mgmt ∧ (s.violation a w k x).sram = s.sram ∧ (s.violation a w k x).mir = s.mir ∧
    (s.violation a w k x).dmc = s.dmc ∧ (s.violation a w k x).blt = s.blt ∧ (s.violation a w k x).cxl = s.cxl ∧
    (s.violation a w k x).net = s.net ∧ (s.violation a w k x).cdc = s.cdc ∧ (s.violation a w k x).dma = s.dma ∧
    (s.violation a w k x).wlk = s.wlk ∧ (s.violation a w k x).finj = s.finj ∧ (s.violation a w k x).pix = s.pix ∧
    (s.violation a w k x).pins = s.pins ∧ (s.violation a w k x).boot = s.boot ∧ (s.violation a w k x).dram = s.dram ∧
    (s.violation a w k x).host = s.host ∧ (s.violation a w k x).hostBad = s.hostBad := by
  simp [State.violation]

@[simp] theorem State.deny_keeps (x : Access) (a : Nat) (w : Bool) (o : Nat) :
    (s.deny x a w o).pending = s.pending ∧ (s.deny x a w o).part = s.part ∧ (s.deny x a w o).capHi = s.capHi ∧
    (s.deny x a w o).heldLo = s.heldLo ∧ (s.deny x a w o).lastRead = s.lastRead ∧ (s.deny x a w o).fresh = s.fresh ∧
    (s.deny x a w o).time = s.time ∧ (s.deny x a w o).clk = s.clk ∧ (s.deny x a w o).heads = s.heads ∧
    (s.deny x a w o).layers = s.layers ∧ (s.deny x a w o).fences = s.fences ∧ (s.deny x a w o).commits = s.commits ∧
    (s.deny x a w o).busy = s.busy ∧ (s.deny x a w o).accepted = s.accepted ∧ (s.deny x a w o).groups = s.groups ∧
    (s.deny x a w o).scalQ = s.scalQ ∧ (s.deny x a w o).scalers = s.scalers ∧ (s.deny x a w o).surfaces = s.surfaces ∧
    (s.deny x a w o).producers = s.producers ∧ (s.deny x a w o).ltrEn = s.ltrEn ∧ (s.deny x a w o).pcie = s.pcie ∧
    (s.deny x a w o).wb = s.wb ∧
    (s.deny x a w o).pose = s.pose ∧ (s.deny x a w o).mgmt = s.mgmt ∧ (s.deny x a w o).sram = s.sram ∧
    (s.deny x a w o).mir = s.mir ∧ (s.deny x a w o).dmc = s.dmc ∧ (s.deny x a w o).blt = s.blt ∧ (s.deny x a w o).cxl = s.cxl ∧
    (s.deny x a w o).net = s.net ∧ (s.deny x a w o).cdc = s.cdc ∧ (s.deny x a w o).dma = s.dma ∧ (s.deny x a w o).wlk = s.wlk ∧
    (s.deny x a w o).finj = s.finj ∧ (s.deny x a w o).pix = s.pix ∧ (s.deny x a w o).pins = s.pins ∧
    (s.deny x a w o).boot = s.boot ∧ (s.deny x a w o).dram = s.dram ∧ (s.deny x a w o).host = s.host ∧
    (s.deny x a w o).hostBad = s.hostBad := by
  cases x <;> and_intros <;> (simp only [State.deny]; try split) <;> simp

@[simp] theorem State.localWrite_keeps  :
    (s.localWrite).pending = s.pending ∧ (s.localWrite).part = s.part ∧ (s.localWrite).capHi = s.capHi ∧
    (s.localWrite).heldLo = s.heldLo ∧ (s.localWrite).lastRead = s.lastRead ∧ (s.localWrite).fresh = s.fresh ∧
    (s.localWrite).time = s.time ∧ (s.localWrite).clk = s.clk ∧ (s.localWrite).heads = s.heads ∧
    (s.localWrite).layers = s.layers ∧ (s.localWrite).fences = s.fences ∧ (s.localWrite).commits = s.commits ∧
    (s.localWrite).busy = s.busy ∧ (s.localWrite).accepted = s.accepted ∧ (s.localWrite).groups = s.groups ∧
    (s.localWrite).scalQ = s.scalQ ∧ (s.localWrite).scalers = s.scalers ∧ (s.localWrite).surfaces = s.surfaces ∧
    (s.localWrite).producers = s.producers ∧ (s.localWrite).ltrEn = s.ltrEn ∧ (s.localWrite).pcie = s.pcie ∧ (s.localWrite).wb = s.wb ∧
    (s.localWrite).pose = s.pose ∧ (s.localWrite).mgmt = s.mgmt ∧ (s.localWrite).sram = s.sram ∧ (s.localWrite).mir = s.mir ∧
    (s.localWrite).dmc = s.dmc ∧ (s.localWrite).blt = s.blt ∧ (s.localWrite).cxl = s.cxl ∧ (s.localWrite).net = s.net ∧
    (s.localWrite).cdc = s.cdc ∧ (s.localWrite).dma = s.dma ∧ (s.localWrite).wlk = s.wlk ∧ (s.localWrite).finj = s.finj ∧
    (s.localWrite).pix = s.pix ∧ (s.localWrite).pins = s.pins ∧ (s.localWrite).boot = s.boot ∧ (s.localWrite).dram = s.dram ∧
    (s.localWrite).host = s.host ∧ (s.localWrite).hostBad = s.hostBad := by
  simp [State.localWrite]

@[simp] theorem State.storeAt_keeps (key off : Nat) (v : Word) :
    (s.storeAt key off v).pending = s.pending ∧ (s.storeAt key off v).part = s.part ∧ (s.storeAt key off v).capHi = s.capHi ∧
    (s.storeAt key off v).heldLo = s.heldLo ∧ (s.storeAt key off v).lastRead = s.lastRead ∧
    (s.storeAt key off v).fresh = s.fresh ∧ (s.storeAt key off v).out = s.out ∧ (s.storeAt key off v).time = s.time ∧
    (s.storeAt key off v).clk = s.clk ∧ (s.storeAt key off v).heads = s.heads ∧ (s.storeAt key off v).layers = s.layers ∧
    (s.storeAt key off v).fences = s.fences ∧ (s.storeAt key off v).commits = s.commits ∧ (s.storeAt key off v).busy = s.busy ∧
    (s.storeAt key off v).accepted = s.accepted ∧ (s.storeAt key off v).groups = s.groups ∧
    (s.storeAt key off v).scalQ = s.scalQ ∧ (s.storeAt key off v).scalers = s.scalers ∧
    (s.storeAt key off v).surfaces = s.surfaces ∧ (s.storeAt key off v).producers = s.producers ∧
    (s.storeAt key off v).ltrEn = s.ltrEn ∧ (s.storeAt key off v).pcie = s.pcie ∧ (s.storeAt key off v).wb = s.wb ∧
    (s.storeAt key off v).pose = s.pose ∧
    (s.storeAt key off v).mgmt = s.mgmt ∧ (s.storeAt key off v).sram = s.sram ∧ (s.storeAt key off v).mir = s.mir ∧
    (s.storeAt key off v).dmc = s.dmc ∧ (s.storeAt key off v).blt = s.blt ∧ (s.storeAt key off v).cxl = s.cxl ∧
    (s.storeAt key off v).net = s.net ∧ (s.storeAt key off v).cdc = s.cdc ∧ (s.storeAt key off v).dma = s.dma ∧
    (s.storeAt key off v).wlk = s.wlk ∧ (s.storeAt key off v).finj = s.finj ∧ (s.storeAt key off v).pix = s.pix ∧
    (s.storeAt key off v).icu = s.icu ∧ (s.storeAt key off v).pwr = s.pwr ∧ (s.storeAt key off v).pins = s.pins ∧
    (s.storeAt key off v).boot = s.boot ∧ (s.storeAt key off v).dram = s.dram ∧ (s.storeAt key off v).host = s.host ∧
    (s.storeAt key off v).hostBad = s.hostBad := by
  unfold State.storeAt; split <;> simp

@[simp] theorem State.store_keeps (off : Nat) (v : Word) :
    (s.store off v).pending = s.pending ∧ (s.store off v).part = s.part ∧ (s.store off v).capHi = s.capHi ∧
    (s.store off v).heldLo = s.heldLo ∧ (s.store off v).lastRead = s.lastRead ∧ (s.store off v).fresh = s.fresh ∧
    (s.store off v).out = s.out ∧ (s.store off v).time = s.time ∧ (s.store off v).clk = s.clk ∧ (s.store off v).heads = s.heads ∧
    (s.store off v).layers = s.layers ∧ (s.store off v).fences = s.fences ∧ (s.store off v).commits = s.commits ∧
    (s.store off v).busy = s.busy ∧ (s.store off v).accepted = s.accepted ∧ (s.store off v).groups = s.groups ∧
    (s.store off v).scalQ = s.scalQ ∧ (s.store off v).scalers = s.scalers ∧ (s.store off v).surfaces = s.surfaces ∧
    (s.store off v).producers = s.producers ∧ (s.store off v).ltrEn = s.ltrEn ∧ (s.store off v).pcie = s.pcie ∧
    (s.store off v).wb = s.wb ∧
    (s.store off v).pose = s.pose ∧ (s.store off v).mgmt = s.mgmt ∧ (s.store off v).sram = s.sram ∧ (s.store off v).mir = s.mir ∧
    (s.store off v).dmc = s.dmc ∧ (s.store off v).blt = s.blt ∧ (s.store off v).cxl = s.cxl ∧ (s.store off v).net = s.net ∧
    (s.store off v).cdc = s.cdc ∧ (s.store off v).dma = s.dma ∧ (s.store off v).wlk = s.wlk ∧ (s.store off v).finj = s.finj ∧
    (s.store off v).pix = s.pix ∧ (s.store off v).icu = s.icu ∧ (s.store off v).pwr = s.pwr ∧ (s.store off v).pins = s.pins ∧
    (s.store off v).boot = s.boot ∧ (s.store off v).dram = s.dram ∧ (s.store off v).host = s.host ∧
    (s.store off v).hostBad = s.hostBad := by
  simp [State.store]

/-! ## What each operation sets -/

@[simp] theorem State.emit_out (m : Msg) : (s.emit m).out = s.out ++ [m] := rfl

@[simp] theorem State.tick_fresh : s.tick.fresh = s.fresh + 1 := rfl

@[simp] theorem State.rd_tick (o : Nat) : s.tick.rd o = s.rd o := rfl

@[simp] theorem State.rd_emit (m : Msg) (o : Nat) : (s.emit m).rd o = s.rd o := rfl

@[simp] theorem State.mgmtOf_setMgmt_self (k : Nat) (m : MgmtSt) : (s.setMgmt k m).mgmtOf k = m := Tbl.get_set_self _ _ _ _

@[simp] theorem State.headOf_setHead_self (h : Nat) (x : HeadSt) : (s.setHead h x).headOf h = x := Tbl.get_set_self _ _ _ _

@[simp] theorem State.groupOf_setGroup_self (g : Nat) (x : GroupSt) : (s.setGroup g x).groupOf g = x := Tbl.get_set_self _ _ _ _

@[simp] theorem State.wbOf_setWb_self (n : Nat) (x : WbSt) : (s.setWb n x).wbOf n = x := Tbl.get_set_self _ _ _ _

@[simp] theorem State.layerRt_setLayerRt_self (n : Nat) (x : LayerRt) : (s.setLayerRt n x).layerRt n = x := Tbl.get_set_self _ _ _ _

@[simp] theorem State.poseSrc_setPoseSrc_self (n : Nat) (x : PoseSrc) : (s.setPoseSrc n x).poseSrc n = x := Tbl.get_set_self _ _ _ _

@[simp] theorem GroupSt.coreOf_setCore_self (x : GroupSt) (k : Nat) (c : CoreSt) : (x.setCore k c).coreOf k = c :=
  Tbl.get_set_self _ _ _ _

/-- A bit of DRAM outside the bytes written keeps its value. -/
theorem State.dramWrite_out (a x : Nat) (bs : List Nat) (h : x < a ∨ a + bs.length ≤ x) :
    Tbl.get dramDefault (s.dramWrite a bs).dram x = Tbl.get dramDefault s.dram x :=
  Mem.get_writeBytes_out _ _ _ _ _ (by simpa using h)

/-- Writing local memory keeps its canonical form. -/
theorem State.wf_dramWrite (a : Nat) (bs : List Nat) (h : Tbl.wf dramDefault s.dram = true) :
    Tbl.wf dramDefault (s.dramWrite a bs).dram = true := Mem.wf_writeBytes _ _ _ _ h

/-- Writing a register keeps the canonical form of the register table. -/
theorem State.wf_wr (off : Nat) (v : Word) (h : Tbl.wf (resetWord s.part) s.regs = true) :
    Tbl.wf (resetWord s.part) (s.wr off v).regs = true := Tbl.wf_set _ _ _ h

end Sys2Proof.Machine
end

