-- ==== Sys2Proof/Laws/Canon.lean ====
section
/-! SUPPORT. The canonical form of registers and memories, operation by operation: every operation that writes a register or a memory keeps it. -/

namespace Sys2Proof.Machine

variable {s : State}

/-- An operation that leaves the part, the registers and the memories alone keeps the canonical form. -/
theorem State.Canon.congr {t : State} (h : s.Canon) (hp : t.part = s.part) (hr : t.regs = s.regs) (hd : t.dram = s.dram)
    (hs : t.sram = s.sram) : t.Canon := by
  unfold State.Canon
  rw [hp, hr, hd, hs]
  exact h

theorem State.Canon.wr (h : s.Canon) (off : Nat) (v : Word) : (s.wr off v).Canon := ⟨s.wf_wr off v h.1, h.2⟩

theorem State.Canon.put (h : s.Canon) (f : Fld) (v : Nat) : (s.put f v).Canon := h.wr _ _

theorem State.Canon.bump (h : s.Canon) (f : Fld) (n : Nat) : (s.bump f n).Canon := h.put _ _

theorem State.Canon.bumpSat (h : s.Canon) (f : Fld) (n : Nat) : (s.bumpSat f n).Canon := h.put _ _

theorem State.Canon.wr64 (h : s.Canon) (lo v : Nat) : (s.wr64 lo v).Canon := (h.wr _ _).wr _ _

theorem State.Canon.elapse (h : s.Canon) (d : Nat) : (s.elapse d).Canon := h.congr (by simp) (by simp) (by simp) (by simp)

theorem State.Canon.advanceTo (h : s.Canon) (t : Nat) : (s.advanceTo t).Canon := h.congr (by simp) (by simp) (by simp) (by simp)

theorem State.Canon.emit (h : s.Canon) (m : Msg) : (s.emit m).Canon := h

theorem State.Canon.sendMsix (h : s.Canon) (v : Nat) : (s.sendMsix v).Canon := h.congr (by simp) (by simp) (by simp) (by simp)

theorem State.Canon.evalLine (h : s.Canon) (t : Nat) : (s.evalLine t).Canon := by
  unfold State.evalLine
  dsimp only
  split
  · exact h
  · split
    · exact (h.put _ _).sendMsix _
    · exact h.put _ _

/-- What every step of a fold keeps, the fold keeps. -/
theorem Canon.foldl {α : Type} (f : State → α → State) (hf : ∀ s a, s.Canon → (f s a).Canon) :
    ∀ (l : List α) (s : State), s.Canon → (l.foldl f s).Canon
  | [], _, h => h
  | a :: l, s, h => Canon.foldl f hf l (f s a) (hf s a h)

theorem State.Canon.evalLines (h : s.Canon) : s.evalLines.Canon := by
  unfold State.evalLines
  split
  · exact h
  · exact Canon.foldl _ (fun _ _ h => h.evalLine _) _ _ h

theorem State.Canon.wake (h : s.Canon) : s.wake.Canon := by
  unfold State.wake
  repeat' split
  · exact h
  · exact h.put _ _
  · exact h
  · exact h

theorem State.Canon.pend (h : s.Canon) (n : Nat) : (s.pend n).Canon := by
  unfold State.pend
  dsimp only
  split
  · exact h
  · split
    · exact ((h.put _ _).put _ _).wake.evalLines
    · exact ((h.put _ _).put _ _).evalLines

theorem State.Canon.signal (h : s.Canon) (n : Nat) : (s.signal n).Canon := by
  unfold State.signal
  split
  · exact h
  · exact h.pend n

theorem State.Canon.raise (h : s.Canon) (f : Fld) (n : Nat) : (s.raise f n).Canon := (h.put _ _).signal _

theorem State.Canon.violation (h : s.Canon) (a : Nat) (w : Bool) (k x : Nat) : (s.violation a w k x).Canon :=
  ((((((h.put _ _).put _ _).put _ _).put _ _).bump _ _).wr64 _ _).raise _ _

theorem State.Canon.deny (h : s.Canon) (x : Access) (a : Nat) (w : Bool) (o : Nat) : (s.deny x a w o).Canon := by
  cases x
  · exact h
  · simp only [State.deny]; split <;> exact h
  · exact h.violation _ _ _ _
  · exact (h.put _ _).signal _
  · exact ((h.bump _ _).put _ _).put _ _
  · exact ((h.bump _ _).put _ _).put _ _
  · exact ((h.bump _ _).put _ _).raise _ _

theorem State.Canon.localWrite (h : s.Canon) : s.localWrite.Canon := (h.bump _ _).raise _ _

theorem State.Canon.storeAt (h : s.Canon) (key off : Nat) (v : Word) : (s.storeAt key off v).Canon := by
  unfold State.storeAt
  split
  · exact h
  · exact h.wr _ _

theorem State.Canon.store (h : s.Canon) (off : Nat) (v : Word) : (s.store off v).Canon := h.storeAt _ _ _

/-- A guarded write keeps the canonical form where its effect does. -/
theorem State.Canon.guardWrite (h : s.Canon) (a off : Nat) {eff blocked : State → State} (he : ∀ s, s.Canon → (eff s).Canon)
    (hb : ∀ s, s.Canon → (blocked s).Canon) : (s.guardWrite a off eff blocked).Canon := by
  unfold State.guardWrite
  dsimp only
  split
  · exact h.deny _ _ _ _
  · split
    · exact hb _ h.localWrite
    · exact he _ h

/-- A command completes on the state its effect gives, canonical where that is. -/
theorem State.Canon.done {t u : State} (ht : t.Canon) (hp : t.part = s.part) (hu : s.done t = .next u) : u.Canon := by
  cases hu
  exact ht.congr hp.symm rfl rfl rfl

/-! ## Memories -/

theorem State.Canon.dramWrite (h : s.Canon) (a : Nat) (bs : List Nat) : (s.dramWrite a bs).Canon :=
  ⟨h.1, s.wf_dramWrite a bs h.2.1, h.2.2⟩

theorem State.Canon.sramWrite (h : s.Canon) (a : Nat) (bs : List Byte) :
    ({ s with sram := Mem.writeBytes dramDefault s.sram a bs } : State).Canon := ⟨h.1, h.2.1, Mem.wf_writeBytes _ _ _ _ h.2.2⟩

theorem State.Canon.resetRegs (h : s.Canon) (keep : Nat → Bool) : (s.resetRegs keep).Canon := ⟨Tbl.wf_filter _ _ h.1, h.2⟩

/-- The device's view of host memory stays canonical. -/
theorem wf_hostStore (bs : List Nat) : ∀ (m : Tbl (Option Byte)) (a : Nat), Tbl.wf hostDefault m = true →
    Tbl.wf hostDefault (hostStore m a bs) = true := by
  induction bs with
  | nil => exact fun m a h => h
  | cons b bs ih => exact fun m a h => ih _ _ (Tbl.wf_set _ _ _ h)

/-! ## The picture of the factory defaults -/

/-- Bytes of a number that are not 0, at their addresses from `a`. -/
theorem mem_bytesAt {l : List Nat} {n a : Nat} {e : Nat × Byte}
    (h : e ∈ (l.zipIdx n).filterMap fun e => if e.1 = 0 then none else some (a + e.2, BitVec.ofNat 8 e.1)) :
    a + n ≤ e.1 ∧ e.1 < a + n + l.length ∧ ∃ b ∈ l, b ≠ 0 ∧ e.2 = BitVec.ofNat 8 b := by
  rw [List.mem_filterMap] at h
  obtain ⟨x, hx, hy⟩ := h
  have hz := List.mem_zipIdx hx
  split at hy
  · cases hy
  · rename_i h0
    cases hy
    exact ⟨by simp; omega, by simp; omega, x.1, by rw [hz.2.2]; exact List.getElem_mem _, h0, rfl⟩

theorem bytesAt_rising (l : List Nat) (a : Nat) : ∀ n,
    ((l.zipIdx n).filterMap fun e => if e.1 = 0 then none else some (a + e.2, BitVec.ofNat 8 e.1)).Pairwise
      fun (x y : Nat × Byte) => x.1 < y.1 := by
  induction l with
  | nil => simp
  | cons b l ih =>
    intro n
    rw [List.zipIdx_cons, List.filterMap_cons]
    split
    · exact ih _
    · rename_i x hx
      refine List.pairwise_cons.2 ⟨fun y hy => ?_, ih _⟩
      have := (mem_bytesAt hy).1
      split at hx
      · cases hx
      · cases hx; simp; omega

/-- Lists whose members lie below those of the next one, joined, rise. -/
theorem rising_flatMap (f : Nat → List (Nat × Byte)) (a0 p : Nat) (hr : ∀ x, (f x).Pairwise fun a b => a.1 < b.1)
    (n : Nat) (hb : ∀ x < n, ∀ e ∈ f x, a0 + p * x ≤ e.1 ∧ e.1 < a0 + p * (x + 1)) :
    ((List.range n).flatMap f).Pairwise fun a b => a.1 < b.1 := by
  rw [List.pairwise_flatMap]
  refine ⟨fun x _ => hr x, ?_⟩
  refine (List.pairwise_lt_range (n := n)).imp_of_mem ?_
  intro x y hx hy hxy a ha b hb'
  have h1 := (hb x (List.mem_range.1 hx) a ha).2
  have h2 := (hb y (List.mem_range.1 hy) b hb').1
  have : p * (x + 1) ≤ p * y := Nat.mul_le_mul_left _ hxy
  omega

/-- The pixels of line y of the picture. -/
def barLine (y : Nat) : Mem :=
  (List.range 1680).flatMap fun x =>
    (bytesLE 4 (barWord (x / 240))).zipIdx.filterMap fun e => if e.1 = 0 then none else some (7680 * y + 4 * x + e.2, BitVec.ofNat 8 e.1)

theorem mem_barLine {y : Nat} {e : Nat × Byte} (h : e ∈ barLine y) :
    7680 * y ≤ e.1 ∧ e.1 < 7680 * (y + 1) ∧ e.2 ≠ 0 := by
  obtain ⟨x, hx, he⟩ := List.mem_flatMap.1 h
  have hx := List.mem_range.1 hx
  obtain ⟨h1, h2, b, hb, h0, hv⟩ := mem_bytesAt he
  have hl : (bytesLE 4 (barWord (x / 240))).length = 4 := rfl
  have hb : b < 256 := by
    simp only [bytesLE, List.mem_cons, List.not_mem_nil, or_false] at hb
    omega
  refine ⟨by omega, by omega, ?_⟩
  rw [hv]
  intro hc
  have := congrArg BitVec.toNat hc
  simp [Nat.mod_eq_of_lt hb] at this
  exact h0 this

theorem barLine_rising (y : Nat) : (barLine y).Pairwise fun a b => a.1 < b.1 := by
  refine rising_flatMap _ (7680 * y) 4 (fun x => bytesAt_rising _ _ _) _ fun x _ e he => ?_
  obtain ⟨h1, h2, -⟩ := mem_bytesAt he
  have hl : (bytesLE 4 (barWord (x / 240))).length = 4 := rfl
  omega

/-- The picture is canonical and below 8,294,400. -/
theorem mem_barPicture {e : Nat × Byte} (h : e ∈ barPicture) : e.1 < 8294400 ∧ e.2 ≠ 0 := by
  rw [barPicture, List.mem_flatMap] at h
  obtain ⟨y, hy, he⟩ := h
  have hy := List.mem_range.1 hy
  obtain ⟨-, h2, h3⟩ := mem_barLine he
  exact ⟨by omega, h3⟩

theorem barPicture_rising : barPicture.Pairwise fun a b => a.1 < b.1 :=
  rising_flatMap barLine 0 7680 barLine_rising _ fun y _ e he => by
    have := mem_barLine he
    omega

theorem State.Canon.withDram {d : Mem} (h : s.Canon) (hd : Tbl.wf dramDefault d = true) : ({ s with dram := d } : State).Canon :=
  ⟨h.1, hd, h.2.2⟩

/-- Writing the picture of the factory defaults keeps local memory canonical. -/
theorem State.Canon.defaultPicture (h : s.Canon) : s.defaultPicture.Canon := by
  unfold State.defaultPicture
  refine h.withDram ?_
  have hd := (Tbl.wf_iff dramDefault _).1 (Tbl.wf_filter _ (fun e => e.1 < 0 || 8294400 ≤ e.1) h.2.1)
  refine (Tbl.wf_iff _ _).2 ⟨List.pairwise_append.2 ⟨barPicture_rising, hd.1, fun a ha b hb => ?_⟩, fun e he => ?_⟩
  · have h1 := (mem_barPicture ha).1
    have h2 : 8294400 ≤ b.1 := by simpa using (List.mem_filter.1 hb).2
    omega
  · rcases List.mem_append.1 he with he | he
    · exact (mem_barPicture he).2
    · exact hd.2 e he

end Sys2Proof.Machine
end

