-- ==== Sys2Proof/Laws/Cores.lean ====
section
/-! SUPPORT. What an instruction of a compose core or a management core does, once it is known which instruction the core is to
issue. -/

namespace Sys2Proof.Machine

variable {s : State}

@[simp] theorem State.pending_addCycles (g : Nat) (b : Band) (n : Nat) : (s.addCycles g b n).pending = s.pending := rfl

@[simp] theorem State.part_addCycles (g : Nat) (b : Band) (n : Nat) : (s.addCycles g b n).part = s.part := rfl

@[simp] theorem State.groups_addCycles (g : Nat) (b : Band) (n : Nat) : (s.addCycles g b n).groups = s.groups := rfl

@[simp] theorem State.heads_addCycles (g : Nat) (b : Band) (n : Nat) : (s.addCycles g b n).heads = s.heads := rfl

@[simp] theorem State.pending_putCore (g k : Nat) (c : CoreSt) : (s.putCore g k c).pending = s.pending := rfl

@[simp] theorem State.part_putCore (g k : Nat) (c : CoreSt) : (s.putCore g k c).part = s.part := rfl

@[simp] theorem State.coreOf_putCore (g k : Nat) (c : CoreSt) : ((s.putCore g k c).groupOf g).coreOf k = c := by
  simp [State.putCore]

/-- An instruction whose predicate holds (R178). -/
theorem effCompose_holds {g k op : Nat} {b : Band} {o : Nat} {i : Ins} {c : CoreSt} (h : ComposeIssues s g k op b o i c)
    (hp : i.holds c.p = true) (cost : Ins → Nat) (eff : State → Band → Ins → CoreSt → State × CoreSt) :
    effCompose g k op cost eff s =
      (eff (s.addCycles g b (cost i)) b i c).1.putCore g k (eff (s.addCycles g b (cost i)) b i c).2 := by
  obtain ⟨h1, h2, h3, h4⟩ := h
  simp only [effCompose, h1, h2, h3, h4, hp]
  simp

/-- An instruction whose predicate does not hold (R178): its cycles count and the core goes on behind it. -/
theorem effCompose_skips {g k op : Nat} {b : Band} {o : Nat} {i : Ins} {c : CoreSt} (h : ComposeIssues s g k op b o i c)
    (hp : i.holds c.p = false) (cost : Ins → Nat) (eff : State → Band → Ins → CoreSt → State × CoreSt) :
    effCompose g k op cost eff s =
      (s.addCycles g b (cost i)).putCore g k (c.goto (c.pc + if op = 0x61 then i.blen + 1 else 1)) := by
  obtain ⟨h1, h2, h3, h4⟩ := h
  simp only [effCompose, h1, h2, h3, h4, hp]
  simp

/-- An instruction of a management core (R196). -/
theorem effMgmt_issues {k op w : Nat} (h : MgmtIssues s k op w) (eff : State → MgmtSt → Ins → State) :
    effMgmt k op eff s =
      if (Ins.ofNat w).holds (s.mgmtOf k).p then eff (s.issued k w) (s.mgmtAt k w) (Ins.ofNat w)
      else (s.issued k w).setMgmt k (s.mgmtAt k w).next := by
  obtain ⟨h1, h2, h3, h4, h5⟩ := h
  have hf : s.mgmtFetch k (s.mgmtOf k) = .ok (some w) := by
    revert h4
    cases s.mgmtFetch k (s.mgmtOf k) <;> simp [Except.toOption]
  simp [effMgmt, State.mgmtOn, State.issued, State.mgmtAt, h1, h2, h3, hf, h5]

end Sys2Proof.Machine
end

