-- ==== Sys2Proof/Laws/Fields.lean ====
section
/-! SUPPORT. Fields of numbers and of registers: reading a field after writing one, bit by bit. -/

namespace Sys2Proof

theorem testBit_field (x lo w j : Nat) : (field x lo w).testBit j = (decide (j < w) && x.testBit (lo + j)) := by
  rw [field, Nat.testBit_mod_two_pow, Nat.testBit_div_two_pow, Nat.add_comm]

theorem testBit_putField (x lo w v j : Nat) :
    (putField x lo w v).testBit j = if lo ≤ j ∧ j < lo + w then v.testBit (j - lo) else x.testBit j := by
  have h : putField x lo w v = 2 ^ lo * (2 ^ w * (x / 2 ^ (lo + w)) + v % 2 ^ w) + x % 2 ^ lo := by
    rw [putField, Nat.pow_add, Nat.mul_add, Nat.mul_comm (v % 2 ^ w), ← Nat.mul_assoc (2 ^ lo), Nat.mul_comm (x / _)]; omega
  rw [h, Nat.testBit_two_pow_mul_add _ (Nat.mod_lt _ (Nat.two_pow_pos _)),
    Nat.testBit_two_pow_mul_add _ (Nat.mod_lt _ (Nat.two_pow_pos _)), Nat.testBit_mod_two_pow, Nat.testBit_mod_two_pow,
    Nat.testBit_div_two_pow]
  by_cases h1 : j < lo
  · simp [h1, Nat.not_le.2 h1]
  · by_cases h2 : j < lo + w
    · have : j - lo < w := by omega
      simp [h1, this, Nat.not_lt.1 h1, h2]
    · have : ¬ j - lo < w := by omega
      have e : j - lo - w + (lo + w) = j := by omega
      simp [h1, this, h2, e]

/-- A field reads as the value put in it. -/
@[simp] theorem field_putField (x lo w v : Nat) : field (putField x lo w v) lo w = v % 2 ^ w := by
  apply Nat.eq_of_testBit_eq
  intro j
  rw [testBit_field, testBit_putField, Nat.testBit_mod_two_pow]
  by_cases h : j < w <;> simp [h]

/-- A field apart from the one put reads as before. -/
theorem field_putField_apart {x lo w v lo' w' : Nat} (h : lo' + w' ≤ lo ∨ lo + w ≤ lo') :
    field (putField x lo w v) lo' w' = field x lo' w' := by
  apply Nat.eq_of_testBit_eq
  intro j
  rw [testBit_field, testBit_field, testBit_putField]
  by_cases hj : j < w'
  · rw [if_neg (by omega)]
  · simp [hj]

theorem field_lt (x lo w : Nat) : field x lo w < 2 ^ w := Nat.mod_lt _ (Nat.two_pow_pos _)

/-- Putting a field into a 32-bit number leaves 32 bits. -/
theorem putField_lt {x lo w v : Nat} (hx : x < 2 ^ 32) (h : lo + w ≤ 32) : putField x lo w v < 2 ^ 32 := by
  refine Nat.lt_pow_two_of_testBit _ fun j hj => ?_
  rw [testBit_putField, if_neg (by omega)]
  exact Nat.testBit_lt_two_pow (Nat.lt_of_lt_of_le hx (Nat.pow_le_pow_right (by decide) hj))

theorem bit_eq_testBit (x i : Nat) : bit x i = x.testBit i := by
  rw [bit, Nat.testBit_eq_decide_div_mod_eq]
  by_cases h : x / 2 ^ i % 2 = 1 <;> simp [h]

theorem field_one (x i : Nat) : field x i 1 = ofBool (bit x i) := by
  have := Nat.mod_two_eq_zero_or_one (x / 2 ^ i)
  rcases this with h | h <;> simp [field, bit, ofBool, h]

namespace Machine

variable (s : State)

theorem State.rd_put_self {f : Fld} (v : Nat) (h : f.lo + f.width ≤ 32) :
    ((s.put f v).rd f.off).toNat = putField (s.rd f.off).toNat f.lo f.width v := by
  rw [State.put, State.rd_wr_self, BitVec.toNat_ofNat, Nat.mod_eq_of_lt (putField_lt (s.rd f.off).isLt h)]

/-- A field of a register reads as the value put in it. -/
theorem State.get_put_self {f : Fld} (v : Nat) (h : f.lo + f.width ≤ 32) : (s.put f v).get f = v % 2 ^ f.width := by
  rw [State.get, State.rd_put_self s v h, field_putField]

/-- A field of the same register apart from the one put reads as before. -/
theorem State.get_put_apart {f g : Fld} (v : Nat) (h : f.lo + f.width ≤ 32) (ho : g.off = f.off)
    (hd : g.lo + g.width ≤ f.lo ∨ f.lo + f.width ≤ g.lo) : (s.put f v).get g = s.get g := by
  rw [State.get, ho, State.rd_put_self s v h, field_putField_apart hd, ← ho]; rfl

/-- A field of another register reads as before. -/
theorem State.get_wr_ne {g : Fld} {off : Nat} (v : Word) (h : g.off ≠ off) : (s.wr off v).get g = s.get g := by
  rw [State.get, State.rd_wr_ne _ _ h]; rfl

theorem State.get_put_ne {f g : Fld} (v : Nat) (h : g.off ≠ f.off) : (s.put f v).get g = s.get g := s.get_wr_ne _ h

/-- A counter counts, wrapping. -/
theorem State.get_bump_self {f : Fld} (n : Nat) (h : f.lo + f.width ≤ 32) :
    (s.bump f n).get f = (s.get f + n) % 2 ^ f.width := s.get_put_self _ h

theorem State.flag_put_self {f : Fld} (v : Nat) (h : f.lo + f.width ≤ 32) : (s.put f v).flag f = (v % 2 ^ f.width != 0) := by
  rw [State.flag, State.get_put_self s v h]

theorem State.flag_put_ne {f g : Fld} (v : Nat) (h : g.off ≠ f.off) : (s.put f v).flag g = s.flag g := by
  rw [State.flag, State.get_put_ne s v h]; rfl

/-- A pair reads as the 64-bit value written. -/
theorem State.rd64_wr64_self (lo v : Nat) : (s.wr64 lo v).rd64 lo = v % 2 ^ 64 := by
  rw [State.rd64, State.wr64, State.rd_wr_ne _ _ (by omega), State.rd_wr_self, State.rd_wr_self]
  simp only [BitVec.toNat_ofNat]
  omega

/-- A pair apart from the one written reads as before. -/
theorem State.rd64_wr64_ne {lo lo' : Nat} (v : Nat) (h : lo' ≠ lo) (h1 : lo' ≠ lo + 4) (h2 : lo' + 4 ≠ lo) :
    (s.wr64 lo v).rd64 lo' = s.rd64 lo' := by
  rw [State.rd64, State.rd_wr64_ne s v h h1, State.rd_wr64_ne s v h2 (by omega)]; rfl

end Machine

end Sys2Proof
end

