-- ==== Sys2Proof/Laws/Events.lean ====
section
/-! SUPPORT. Events: which registers a signal may change, and the pending bit it sets. -/

namespace Sys2Proof.Machine

variable (s : State)

theorem State.rd_congr {s t : State} (hr : t.regs = s.regs) (hp : t.part = s.part) (o : Nat) : t.rd o = s.rd o := by
  rw [State.rd, State.rd, hr, hp]

@[simp] theorem State.rd_elapse (d o : Nat) : (s.elapse d).rd o = s.rd o := State.rd_congr (by simp) (by simp) o

@[simp] theorem State.rd_advanceTo (t o : Nat) : (s.advanceTo t).rd o = s.rd o := State.rd_congr (by simp) (by simp) o

@[simp] theorem State.get_elapse (d : Nat) (f : Fld) : (s.elapse d).get f = s.get f := by simp [State.get]

@[simp] theorem State.get_advanceTo (t : Nat) (f : Fld) : (s.advanceTo t).get f = s.get f := by simp [State.get]

@[simp] theorem State.rd_sendMsix (v o : Nat) : (s.sendMsix v).rd o = s.rd o := State.rd_congr (by simp) (by simp) o

theorem State.rd_evalLine {t o : Nat} (h : o ≠ Reg.icuTgtStat t) : (s.evalLine t).rd o = s.rd o := by
  unfold State.evalLine
  dsimp only
  repeat' split
  · rfl
  · rw [State.rd_sendMsix]; exact s.rd_put_ne _ h
  · exact s.rd_put_ne _ h

theorem State.rd_evalLines {o : Nat} (h : ∀ t < 8, o ≠ Reg.icuTgtStat t) : s.evalLines.rd o = s.rd o := by
  unfold State.evalLines
  split
  · rfl
  · have key : ∀ (l : List Nat) (s : State), (∀ t ∈ l, o ≠ Reg.icuTgtStat t) → (l.foldl State.evalLine s).rd o = s.rd o := by
      intro l
      induction l with
      | nil => simp
      | cons t l ih =>
        intro s hl
        rw [List.foldl_cons, ih _ fun t ht => hl t (List.mem_cons_of_mem _ ht)]
        exact s.rd_evalLine (hl t (List.mem_cons_self ..))
    exact key _ _ fun t ht => h t (List.mem_range.1 ht)

theorem State.rd_wake {o : Nat} (h : o ≠ Reg.pwrStatus) : s.wake.rd o = s.rd o := by
  unfold State.wake
  repeat' split
  · rfl
  · exact s.rd_put_ne _ h
  · rfl
  · rfl

/-- A source taken changes no register but the pending words, the interrupt status and line registers, and PWR.STATUS (a wake). -/
theorem State.rd_pend {n o : Nat} (hp : o ≠ Reg.icuPending (n / 32)) (hs : o ≠ Reg.icuStatus) (hw : o ≠ Reg.pwrStatus)
    (ht : ∀ t < 8, o ≠ Reg.icuTgtStat t) : (s.pend n).rd o = s.rd o := by
  unfold State.pend
  dsimp only
  split
  · rfl
  · rw [State.rd_evalLines _ ht]
    split
    · rw [State.rd_wake _ hw, State.rd_put_ne _ _ hs, State.rd_put_ne _ _ hp]
    · rw [State.rd_put_ne _ _ hs, State.rd_put_ne _ _ hp]

/-- A signal changes no register but those. -/
theorem State.rd_signal {n o : Nat} (hp : o ≠ Reg.icuPending (n / 32)) (hs : o ≠ Reg.icuStatus) (hw : o ≠ Reg.pwrStatus)
    (ht : ∀ t < 8, o ≠ Reg.icuTgtStat t) : (s.signal n).rd o = s.rd o := by
  unfold State.signal
  split
  · rfl
  · exact s.rd_pend hp hs hw ht

/-- An event changes no register outside the interrupt controller but its cause's and PWR.STATUS. -/
theorem State.rd_raise {f : Fld} {n o : Nat} (hn : n ≤ 1020) (hf : o ≠ f.off) (hw : o ≠ Reg.pwrStatus)
    (hi : o < 0x80000 ∨ 0x82100 ≤ o) : (s.raise f n).rd o = s.rd o := by
  rw [State.raise, State.rd_signal, State.rd_put_ne _ _ hf]
  · simp only [Reg.icuPending]; omega
  · simp only [Reg.icuStatus]; omega
  · exact hw
  · intro t ht; simp only [Reg.icuTgtStat]; omega

/-- The source taken is pending. -/
theorem State.pending_pend {n : Nat} (h : 0 < n) (h' : n ≤ 1020) :
    (s.pend n).get ⟨Reg.icuPending (n / 32), n % 32, 1⟩ = 1 := by
  have hlt : n % 32 + 1 ≤ 32 := by omega
  have e1 : Reg.icuPending (n / 32) ≠ Reg.icuStatus := by simp only [Reg.icuPending, Reg.icuStatus]; omega
  have e2 : Reg.icuPending (n / 32) ≠ Reg.pwrStatus := by simp only [Reg.icuPending, Reg.pwrStatus]; omega
  have e3 : ∀ t < 8, Reg.icuPending (n / 32) ≠ Reg.icuTgtStat t := by
    intro t ht; simp only [Reg.icuPending, Reg.icuTgtStat]; omega
  have base : ((s.put ⟨Reg.icuPending (n / 32), n % 32, 1⟩ 1).put F.icuStatusLastdb n).get ⟨Reg.icuPending (n / 32), n % 32, 1⟩ = 1 := by
    rw [State.get_put_ne _ _ e1, State.get_put_self _ _ hlt]; rfl
  unfold State.pend
  dsimp only
  rw [if_neg (by omega), State.get, State.rd_evalLines _ e3]
  split
  · rw [State.rd_wake _ e2]; exact base
  · exact base

/-- The source signalled is pending, but in Midnight, where only sources 941 to 948 signal (R405). -/
theorem State.pending_signal {n : Nat} (h : 0 < n) (h' : n ≤ 1020) (hm : s.get F.pwrStatusState ≠ 3 ∨ 941 ≤ n ∧ n ≤ 948) :
    (s.signal n).get ⟨Reg.icuPending (n / 32), n % 32, 1⟩ = 1 := by
  rw [State.signal, if_neg (by omega)]
  exact s.pending_pend h h'

/-- An event's cause bit is set, where its register is outside the interrupt controller and is not PWR.STATUS. -/
theorem State.cause_raise {f : Fld} {n : Nat} (hn : n ≤ 1020) (h1 : f.width = 1) (h2 : f.lo + 1 ≤ 32) (hw : f.off ≠ Reg.pwrStatus)
    (hi : f.off < 0x80000 ∨ 0x82100 ≤ f.off) : (s.raise f n).get f = 1 := by
  have h : ((s.put f 1).signal n).rd f.off = (s.put f 1).rd f.off := by
    apply State.rd_signal
    · simp only [Reg.icuPending]; omega
    · simp only [Reg.icuStatus]; omega
    · exact hw
    · intro t ht; simp only [Reg.icuTgtStat]; omega
  rw [State.raise, State.get, h, ← State.get, State.get_put_self _ _ (by omega)]
  simp [h1]

end Sys2Proof.Machine
end

