-- ==== Sys2Proof/Laws/Memory.lean ====
section
/-! SUPPORT. Local memory: a read after a write; and what a guarded register write does in each of its three cases. -/

namespace Sys2Proof.Machine

variable (s : State)

/-- A read of the bytes written gives them. -/
theorem State.dramRead_dramWrite (a : Nat) (bs : List Nat) : (s.dramWrite a bs).dramRead a bs.length = bs.map (· % 256) := by
  apply List.ext_getElem
  · simp [State.dramRead, Mem.readBytes]
  · intro i h1 h2
    have hi : i < (bs.map (BitVec.ofNat 8)).length := by simpa using h2
    have := Mem.get_writeBytes_in dramDefault (bs.map (BitVec.ofNat 8)) s.dram a i hi
    simp [State.dramRead, Mem.readBytes, State.dramWrite, this]

/-- A read apart from the bytes written gives what it gave. -/
theorem State.dramRead_dramWrite_apart (a b n : Nat) (bs : List Nat) (h : b + n ≤ a ∨ a + bs.length ≤ b) :
    (s.dramWrite a bs).dramRead b n = s.dramRead b n := by
  unfold State.dramRead Mem.readBytes
  rw [List.map_map, List.map_map]
  refine List.map_congr_left fun i hi => ?_
  have := List.mem_range.1 hi
  simp only [Function.comp]
  rw [s.dramWrite_out a (b + i) bs (by omega)]

/-! ## Guarded register writes (R462, R425) -/

variable {s}

theorem State.guardWrite_ok {a off : Nat} (h : s.writes a off) (eff blocked : State → State) :
    s.guardWrite a off eff blocked = eff s := by
  unfold State.guardWrite
  simp [h.1, h.2]

theorem State.guardWrite_denied {a off : Nat} (h : s.access a true off 15 ≠ .ok) (eff blocked : State → State) :
    s.guardWrite a off eff blocked = s.deny (s.access a true off 15) a true off := by
  unfold State.guardWrite
  simp [h]

theorem State.guardWrite_blocked {a off : Nat} (h : s.access a true off 15 = .ok) (hs : s.standby = true)
    (hb : standbyBlocks off = true) (eff blocked : State → State) : s.guardWrite a off eff blocked = blocked s.localWrite := by
  unfold State.guardWrite
  simp [h, hs, hb]

end Sys2Proof.Machine
end

