-- ==== Sys2Proof/WellFormed.lean ====
section
/-! DEFINITION. Well-formed commands: every operand lies in the range that the spec gives what it names. A command outside these ranges
names nothing of the block. The ranges are those of the largest part; a unit that a smaller part lacks is absent, not ill-formed
(R3). -/

namespace Sys2Proof

/-- Compose core k of group g (R28, R170), or management core k (R29). -/
def Core.wf : Core → Bool
  | .compose g k => g < 12 && k < 8
  | .composeBad g k o => g < 12 && k < 8 && o < 0x40000
  | .mgmt k => k < 4

/-- One of the thirteen agents of R448. -/
def isAgent (a : Nat) : Bool := a < 13

/-- One of the 128 heads (R28). -/
def isHead (h : Nat) : Bool := h < 128

/-- Every operand is in its range. DEDUCED, log entry 17. -/
def Instr.wf : Instr → Bool
  | .registerWrite agent write off be _ => isAgent agent && off < 0x40A0000 && be < 16 && (write || be == 15)
  | .tickBoundary => true
  | .phaseStart phase => phase < 8
  | .frameLatch head => isHead head
  | .twilightEntry head => isHead head
  | .bandLatch head => isHead head
  | .earlyFetchStart head layer => isHead head && layer < 1024
  | .bandStart group => group < 12
  | .bandComplete group => group < 12
  | .bandDeadline head => isHead head
  | .bandPacketStart head => isHead head
  | .writebackBand port _ => port < 16
  | .retimeEnd head => isHead head
  | .commit agent _ => isAgent agent
  | .commitValidationDone => true
  | .structArm agent _ => isAgent agent
  | .structValidationDone => true
  | .step agent _ => isAgent agent
  | .tphaseWrite agent _ => isAgent agent
  | .ptpMessage port _ => port < 8
  | .genlockFrameReference _ => true
  | .sourceLost source => source == 1 || source == 2
  | .holdoverEnd => true
  | .delayReqSend port => port < 8
  | .ppsOut => true
  | .ppsIn => true
  | .shutsyncPulseBegin n => n < 8
  | .shutsyncPulseEnd n => n < 8
  | .htbCfgWrite agent m _ _ => isAgent agent && m < 2
  | .syncinArm agent _ => isAgent agent
  | .syncinEdge => true
  | .mdllUnlock _ => true
  | .refLost => true
  | .htbUnlock m => m < 2
  | .restore agent _ => isAgent agent
  | .readbackArm agent head _ => isAgent agent && isHead head
  | .readbackDone head => isHead head
  | .readbackCancel agent head _ => isAgent agent && isHead head
  | .fenceSignal agent n _ => isAgent agent && n < 1024
  | .scalerBandStart sector => sector < 4
  | .scalerBandDone unit => unit < 24
  | .flattenDone head => isHead head
  | .flush agent _ => isAgent agent
  | .add core => core.wf
  | .sub core => core.wf
  | .and core => core.wf
  | .or core => core.wf
  | .xor core => core.wf
  | .shl core => core.wf
  | .shr core => core.wf
  | .sra core => core.wf
  | .mul core => core.wf
  | .addi core => core.wf
  | .movi core => core.wf
  | .movhi core => core.wf
  | .cmp core => core.wf
  | .cmpi core => core.wf
  | .plog core => core.wf
  | .lds core => core.wf
  | .sts core => core.wf
  | .sread core => core.wf
  | .vld core => core.wf
  | .vst core => core.wf
  | .vmov core => core.wf
  | .vclr core => core.wf
  | .vsplat core => core.wf
  | .fetch core _ _ => core.wf
  | .fetchDataReady core _ => core.wf
  | .swi core => core.wf
  | .wait core _ => core.wf
  | .waitConditionMet core _ => core.wf
  | .key core _ => core.wf
  | .blend core => core.wf
  | .lut core _ => core.wf
  | .mat core _ => core.wf
  | .bst core => core.wf
  | .headStageReleaseDone group _ => group < 12
  | .br core => core.wf
  | .loop core => core.wf
  | .endBand core => core.wf
  | .jal core => core.wf
  | .jr core => core.wf
  | .ld core => core.wf
  | .ldDataReturn core _ => core.wf
  | .st core => core.wf
  | .csrr core => core.wf
  | .csrw core => core.wf
  | .eret core => core.wf
  | .wfi core => core.wf
  | .fence core => core.wf
  | .ecall core => core.wf
  | .interruptException core => core.wf
  | .poseDatagram port srcIp dport _ => port < 8 && srcIp < 2 ^ 32 && dport < 2 ^ 16
  | .serialPoseFrame port _ bytes stopLow => port < 8 && (!stopLow || bytes != [])
  | .serialCharTimeout port => port < 8
  | .serialPoll port => port < 8
  | .poseSourceEnable agent source _ => isAgent agent && source < 72
  | .bltDescriptorStart => true
  | .bltCopy => true
  | .bltFill => true
  | .bltConvert => true
  | .bltBlend => true
  | .bltRowComplete => true
  | .bltDescriptorComplete => true
  | .bltResume agent _ => isAgent agent
  | .bltSkip agent _ => isAgent agent
  | .bltReset agent _ => isAgent agent
  | .dramReadRequest req _ granules => req < 35 && granules != 0
  | .dramWriteRequest req _ data => req < 35 && !data.isEmpty
  | .dramSchedule ch _ port _ => ch < 16 && port < 28
  | .dmcFreeze cause ch req cmd _ => cause < 16 && (match ch with | some c => c < 16 | none => true) && req < 35 && cmd < 16
  | .refreshDue ch => ch < 16
  | .rhWindowEnd ch => ch < 16
  | .mr4Read ch _ => ch < 16
  | .selfRefreshEntry ch => ch < 16
  | .traincapStart agent _ => isAgent agent
  | .traincapDone => true
  | .freqRequest agent _ => isAgent agent
  | .freqCaptureHoldExpiry => true
  | .freqChange => true
  | .freqDone => true
  | .freqCancel agent _ => isAgent agent
  | .linkState _ width rate => width ≤ 16 && rate < 4
  | .cxlCompletionTimeout _ => true
  | .cxlReadCompletion _ kind data => kind < 3 && data.length ≤ 64
  | .hostSnoop _ => true
  | .hostMemRead _ len => len != 0 && len ≤ 64
  | .hostMemWrite _ data => !data.isEmpty && data.length ≤ 64
  | .msixUnmask func entry => func < 8 && entry < 4
  | .dmaDescriptorStart ch => ch < 16
  | .dmaCopy ch => ch < 16
  | .dmaFill ch => ch < 16
  | .dmaNop ch => ch < 16
  | .dmaReadCompletion ch code data => ch < 16 && code < 16 && data.length ≤ 64
  | .dmaDescriptorComplete ch => ch < 16
  | .dmaHalted ch cause _ _ => ch < 16 && cause < 16
  | .dmaResume agent ch _ => isAgent agent && ch < 16
  | .dmaSkip agent ch _ => isAgent agent && ch < 16
  | .dmaReset agent _ => isAgent agent
  | .dmaResetDone => true
  | .netModeWrite agent _ => isAgent agent
  | .portLinkChange port _ _ _ => port < 8
  | .ethFrameReceive port frame _ => port < 8 && 14 ≤ frame.length
  | .videoFrameTimeout flow => flow < 256
  | .flowEnable agent flow _ => isAgent agent && flow < 256
  | .flowDisable agent flow _ => isAgent agent && flow < 256
  | .egressFrameStart port => port < 8
  | .egressFrameEnd port => port < 8
  | .shaperRateWrite agent n _ => isAgent agent && n < 32
  | .clrdebt agent n _ => isAgent agent && n < 32
  | .txsSend ctx => ctx < 32
  | .cdcContextEnable agent ctx _ => isAgent agent && ctx < 32
  | .cdcContextDisable agent ctx _ => isAgent agent && ctx < 32
  | .cdcPipePick pipe => pipe < 4
  | .cdcDecode pipe err _ _ _ used => pipe < 4 && (err == 0 || err == 3 || err == 5) && used.all (· < 16)
  | .cdcEncode pipe _ _ => pipe < 4
  | .cdcCommandComplete pipe => pipe < 4
  | .cdcResume agent ctx _ => isAgent agent && ctx < 32
  | .cdcSkip agent ctx _ => isAgent agent && ctx < 32
  | .statusPoll lane msg => lane < 16 && msg.length == 17
  | .pollAnswer lane => lane < 16
  | .credit lane msg => lane < 16 && msg.length == 17
  | .status lane msg => lane < 16 && msg.length == 17
  | .laneRxLockChange lane _ => lane < 16
  | .laneEnable agent lane _ => isAgent agent && lane < 16
  | .laneDisable agent lane _ => isAgent agent && lane < 16
  | .laneTrainingDone lane => lane < 16
  | .standbyWrite agent _ => isAgent agent
  | .doorbell agent _ => isAgent agent
  | .claim agent target => isAgent agent && target < 8
  | .complete agent target _ => isAgent agent && target < 8
  | .pendingWrite agent w _ => isAgent agent && w < 32
  | .domainRequest agent w _ => isAgent agent && w < 3
  | .domainChange => true
  | .midnightEnter agent _ => isAgent agent
  | .midnightEntryDone => true
  | .midnightWake agent _ => isAgent agent
  | .wakeTime => true
  | .gpioWake pin => pin < 16
  | .wakeRestore => true
  | .wakeComplete => true
  | .energyBucketUpdate _ => true
  | .sensorSample vals => vals.length == 16
  | .shedStep => true
  | .duskexit agent _ => isAgent agent
  | .thermalTrip sensor _ => sensor < 16
  | .mirrorWrite _ agent off _ => isAgent agent && off < 2 ^ 26
  | .mirrorCommit _ agent _ _ _ => isAgent agent
  | .mirrorResult _ _ code _ => code < 16
  | .mirrorFence _ n _ _ => n < 1024
  | .mirrorPoseRecord _ source record _ => source < 72 && record.length == 64
  | .mirrorTime _ _ => true
  | .mirrorFlatten _ head _ => isHead head
  | .mirrorHeartbeat _ _ _ => true
  | .heartbeatSend => true
  | .heartbeatMiss => true
  | .swap agent _ => isAgent agent
  | .porst => true
  | .resetPin => true
  | .swreset agent _ => isAgent agent
  | .perst => true
  | .resetRelease => true
  | .bootHeaderRead header => header.length == 64 || header.isEmpty
  | .bootImageChecked _ => true
  | .cxlConfigReady => true
  | .xspiCommand agent _ => isAgent agent
  | .xspiDone data => data.length ≤ 64
  | .coreStart agent _ => isAgent agent
  | .finjLinkEnable agent link _ => isAgent agent && link < 36
  | .finjHoldExpiry link => link < 36
  | .mirrorLaneLockChange lane _ => lane < 4
  | .mirrorTimeSend => true
  | .ppsOutFall => true
  | .mdllLock => true
  | .clockLockRegained which => which < 6
  | .aonUndervoltage _ => true

end Sys2Proof
end

