-- ==== Sys2Proof/Tests/Slice0.lean ====
section
/-! SUPPORT. Small tests: an ill-formed command for each check of WellFormed, and for each statement that has hypotheses a state and
operands that meet them, with what the command then does. Expected results are taken from the rules the tests name. -/

namespace Sys2Proof.Tests

open Sys2Proof.Machine

set_option Elab.async false

/-- The command completes, and `p` holds of the next state. -/
def after (c : Instr) (s : State) (p : State → Bool) : Bool :=
  match exec c s with
  | .next t => p t
  | _ => false

/-- The command completes and nothing changes. -/
def stays (c : Instr) (s : State) : Bool := after c s fun t => decide (t = s)

/-- Reset, with a word in a register. -/
def reg (off : Nat) (v : Word) : State := State.reset.wr off v

/-- Reset, with a field set. -/
def fld (f : Fld) (v : Nat) : State := State.reset.put f v

/-! ## Ill-formed commands, one for each check -/

theorem test_ill_formed_cores :
    ([Instr.add (.compose 12 0), .add (.compose 0 8), .add (.mgmt 4), .jal (.mgmt 9)].all fun c => !c.wf) = true := by decide

theorem test_ill_formed_accesses :
    ([Instr.registerWrite 13 true 0 15 0, .registerWrite 0 true (2 ^ 27) 15 0, .registerWrite 0 true 0 16 0,
      .registerWrite 0 false 0 3 0, .commit 13 0, .doorbell 13 0, .claim 0 8, .complete 0 8 0, .pendingWrite 0 32 0,
      .domainRequest 0 3 0, .fenceSignal 0 1024 0].all fun c => !c.wf) = true := by decide

theorem test_ill_formed_events :
    ([Instr.phaseStart 8, .frameLatch 128, .earlyFetchStart 0 1024, .bandStart 12, .writebackBand 16 true, .ptpMessage 8 [],
      .sourceLost 3, .shutsyncPulseBegin 8, .htbUnlock 2, .scalerBandStart 4, .scalerBandDone 24, .clockLockRegained 6,
      .poseDatagram 0 (2 ^ 32) 0 [], .poseDatagram 0 0 65536 [], .serialPoll 8, .poseSourceEnable 0 72 0].all fun c => !c.wf) = true := by
  decide

theorem test_ill_formed_transfers :
    ([Instr.dramReadRequest 35 0 1, .dramReadRequest 0 0 0, .dramWriteRequest 28 0 [], .dramSchedule 16 [] 0 0,
      .dramSchedule 0 [] 28 0, .dmcFreeze 16 none 0 0 0, .dmcFreeze 1 (some 16) 0 0 0, .dmcFreeze 1 none 35 0 0,
      .dmcFreeze 1 none 0 16 0, .linkState true 17 3, .linkState true 16 4, .cxlReadCompletion 0 3 [], .hostMemRead 0 65,
      .hostMemWrite 0 [], .msixUnmask 8 0, .msixUnmask 0 4, .dmaCopy 16, .dmaReadCompletion 0 16 [],
      .dmaHalted 0 16 true 0].all fun c => !c.wf) = true := by decide

/-- Where the words of a parameter block give a picture's form, and those of one of 8 by 8, 4:2:0, all of it shown. -/
def form8 : PicForm := ⟨0, 1, 2, 3, 4, 5, 0⟩

def window8 : PicWindow := ⟨6, 7, 8, 9⟩

def words8 : List Nat := [8, 8, 1, 0, 3, 0, 0, 0, 0, 0]

def pic8 : Decoded := { codedForm words8 form8 window8 with words := words8, data := [], err := 0, copied := [], used := [] }

theorem test_ill_formed_units :
    ([Instr.portLinkChange 8 true true true, .ethFrameReceive 0 [] true, .flowEnable 0 256 0, .clrdebt 0 32 0, .txsSend 32,
      .cdcPipePick 4, .cdcContextEnable 0 32 0, .cdcDecode 0 1 [] form8 window8 [], .cdcDecode 0 0 [] form8 window8 [16], .cdcEncode 4 [] [],
      .pollAnswer 16, .credit 0 [], .gpioWake 16, .sensorSample [], .thermalTrip 16 0, .mirrorWrite 0 13 0 0,
      .mirrorResult 0 none 16 0, .mirrorPoseRecord 0 72 [] 0, .mirrorPoseRecord 0 0 [] 0, .mirrorLaneLockChange 4 true,
      .bootHeaderRead [0], .xspiDone (List.replicate 65 0), .finjLinkEnable 0 36 0].all fun c => !c.wf) = true := by decide

theorem test_well_formed :
    ([Instr.registerWrite 12 true (2 ^ 26 - 4) 15 0, .add (.compose 11 7), .ecall (.mgmt 3), .linkState true 16 3,
      .bootHeaderRead [], .cdcDecode 3 5 [] form8 window8 [15]].all Instr.wf) = true := by decide

/-! ## Compose cores -/

/-- A band of head 0 in group 0. -/
def band0 : Band := ⟨0, 1, 0, 0, 0, 1000, 16, .running, HeadCfg.init, 0, [], [], false, false, false, none, [], [], []⟩

/-- Group 0 runs a band on core 0, whose next instruction is `w`, at byte 0x100 of the program store. -/
def coreSt (c : CoreSt) (b : Band) (w : Nat) : State :=
  ((State.reset.wr64 (pstore 0 0x100) w).setHead 0 { HeadSt.init with bands := [b] }).setGroup 0
    { GroupSt.init with running := some (0, 1, 0, 0), cores := [(0, c)] }

def core0 : CoreSt := { CoreSt.init with on := true, pc := 32, s := [0, 7, 3] ++ List.replicate 29 0 }

def coreAt (w : Nat) : State := coreSt core0 band0 w

/-- An instruction word: opcode, D, A, B, C, IMM. -/
def word (op d a b c imm : Nat) : Nat := op + 2 ^ 12 * d + 2 ^ 17 * a + 2 ^ 22 * b + 2 ^ 27 * c + 2 ^ 32 * imm

/-- The word is issued by core 0. -/
def issues (s : State) (op : Nat) : Bool :=
  match s.composeAt 0 0 with
  | some (b, o, i, c) => decide (ComposeIssues s 0 0 op b o i c) && i.holds c.p
  | none => false

/-- What core 0 has in s5 afterwards. -/
def s5 (c : Instr) (s : State) : Option Word64 :=
  match exec c s with
  | .next t => some (sreg ((t.groupOf 0).coreOf 0).s 5)
  | _ => none

theorem test_issue_every_opcode :
    ([1, 2, 3, 4, 5, 6, 7, 8, 9, 10, 11, 12, 13, 14, 15, 0x10, 0x11, 0x12, 0x20, 0x21, 0x22, 0x23, 0x24, 0x30, 0x31, 0x32, 0x38, 0x40,
      0x48, 0x49, 0x50, 0x60, 0x61, 0x62].all fun op => issues (coreAt (word op 5 1 2 0 0)) op) = true := by decide +kernel

theorem test_add_sub : s5 (.add (.compose 0 0)) (coreAt (word 1 5 1 2 0 0)) = some 10 ∧
    s5 (.sub (.compose 0 0)) (coreAt (word 2 5 2 1 0 0)) = some (-4) := by decide +kernel

theorem test_logic : s5 (.and (.compose 0 0)) (coreAt (word 3 5 1 2 0 0)) = some 3 ∧
    s5 (.or (.compose 0 0)) (coreAt (word 4 5 1 2 0 0)) = some 7 ∧
    s5 (.xor (.compose 0 0)) (coreAt (word 5 5 1 2 0 0)) = some 4 := by decide +kernel

theorem test_shifts : s5 (.shl (.compose 0 0)) (coreAt (word 6 5 1 2 0 0)) = some 56 ∧
    s5 (.shr (.compose 0 0)) (coreAt (word 7 5 1 2 0 0)) = some 0 ∧
    s5 (.sra (.compose 0 0)) (coreAt (word 8 5 1 2 0 0)) = some 0 := by decide +kernel

theorem test_mul_immediates : s5 (.mul (.compose 0 0)) (coreAt (word 9 5 1 2 0 0)) = some 21 ∧
    s5 (.addi (.compose 0 0)) (coreAt (word 10 5 1 0 0 0xFFFFFFFF)) = some 6 ∧
    s5 (.movi (.compose 0 0)) (coreAt (word 11 5 0 0 0 0x80000000)) = some 0xFFFFFFFF80000000 ∧
    s5 (.movhi (.compose 0 0)) (coreAt (word 12 5 1 0 0 2)) = some 0x200000007 := by decide +kernel

/-- Predicate 3 of core 0 afterwards. -/
def p3 (c : Instr) (s : State) : Bool := after c s fun t => preg ((t.groupOf 0).coreOf 0).p 3

theorem test_compares : p3 (.cmp (.compose 0 0)) (coreAt (word 13 3 1 2 3 0)) = true ∧
    p3 (.cmpi (.compose 0 0)) (coreAt (word 14 3 1 0 4 0xFFFFFFFF)) = false ∧
    p3 (.plog (.compose 0 0)) (coreAt (word 15 3 0 3 3 0)) = true := by decide +kernel

theorem test_scratch_load_and_store_complete :
    ([Instr.lds (.compose 0 0)].all fun c => after c (coreAt (word 0x10 5 1 0 0 0)) fun t => ((t.groupOf 0).coreOf 0).pc == 33) = true ∧
    after (.sts (.compose 0 0)) (coreAt (word 0x11 0 1 2 0 0x10001)) (fun t => ((t.groupOf 0).coreOf 0).pc == 33) = true ∧
    after (.vld (.compose 0 0)) (coreAt (word 0x20 5 1 0 0 0)) (fun t => ((t.groupOf 0).coreOf 0).pc == 33) = true ∧
    after (.vst (.compose 0 0)) (coreAt (word 0x21 0 1 2 0 0)) (fun t => ((t.groupOf 0).coreOf 0).pc == 33) = true := by
  decide +kernel

theorem test_sread : (s5 (.sread (.compose 0 0)) (coreAt (word 0x12 5 0 0 0 9))) = some 16 ∧
    (s5 (.sread (.compose 0 0)) (coreAt (word 0x12 5 0 0 0 6))) = some 0x3FF := by decide +kernel

theorem test_vectors : after (.vsplat (.compose 0 0)) (coreAt (word 0x24 5 1 0 0 0)) (fun t =>
    (((t.groupOf 0).coreOf 0).v.getD 5 []) == List.replicate 16 (mkPx 7 0 0 0)) = true ∧
    after (.vmov (.compose 0 0)) (coreAt (word 0x22 5 1 0 0 0)) (fun t => ((t.groupOf 0).coreOf 0).pc == 33) = true := by decide +kernel

/-- A walk entry with colour. -/
def walk0 (cfg : LayerCfg) : Walk := ⟨some 0, cfg, 0, 256, false, 0, 0, [], 0⟩

/-- Core 0 with a walk list of one layer. -/
def layerAt (cfg : LayerCfg) (w : Nat) : State := coreSt core0 { band0 with walk := [walk0 cfg] } w

theorem test_fetch_beyond_the_list :
    after (.fetch (.compose 0 0) true false) (coreAt (word 0x30 5 0 0 0 0)) (fun t => ((t.groupOf 0).coreOf 0).pc == 33) = true ∧
    after (.fetch (.compose 0 0) false false) (coreAt (word 0x30 5 0 0 0 0)) (fun t => ((t.groupOf 0).coreOf 0).wait == .fetch) = true ∧
    after (.fetchDataReady (.compose 0 0) 4) (coreSt { core0 with wait := .fetch, ins := word 0x30 5 0 0 0 0 } band0 0)
      (fun t => ((t.groupOf 0).coreOf 0).wait == .none && ((t.groupOf 0).coreOf 0).waited == 4) = true := by decide +kernel

theorem test_fetch_a_layer :
    (layerAt LayerCfg.init (word 0x30 5 0 0 0 0)).present { band0 with walk := [walk0 LayerCfg.init] } (walk0 LayerCfg.init) = true ∧
    after (.fetch (.compose 0 0) true false) (coreSt core0 { band0 with walk := [walk0 LayerCfg.init], refused := true }
      (word 0x30 5 0 0 0 0)) (fun t => ((t.groupOf 0).coreOf 0).pc == 33) = true := by decide +kernel

theorem test_key_and_blend :
    after (.key (.compose 0 0) false) (coreAt (word 0x38 5 0 0 0 0)) (fun t =>
      (((t.groupOf 0).coreOf 0).v.getD 5 []) == List.replicate 16 (mkPx 0 0 0 65535)) = true ∧
    after (.key (.compose 0 0) false) (layerAt LayerCfg.init (word 0x38 5 0 0 0 0)) (fun t =>
      (((t.groupOf 0).coreOf 0).v.getD 5 []) == List.replicate 16 (mkPx 0 0 0 65535)) = true ∧
    after (.blend (.compose 0 0)) (coreAt (word 0x40 4 0 0 0 0)) (fun t => ((t.groupOf 0).coreOf 0).v == core0.v) = true ∧
    after (.blend (.compose 0 0)) (coreAt (word 0x40 4 0 0 0 0xE00)) (fun t => ((t.groupOf 0).coreOf 0).pc == 33) = true := by
  decide +kernel

theorem test_tables : (coreAt (word 0x48 5 0 0 0 0x1000)).tableError 0 0x1000 2048 false = none ∧
    after (.lut (.compose 0 0) false) (coreAt (word 0x48 5 0 0 0 0x1000)) (fun t => ((t.groupOf 0).coreOf 0).pc == 33) = true ∧
    after (.lut (.compose 0 0) false) (coreAt (word 0x48 5 0 0 8 0)) (fun t =>
      (((t.groupOf 0).coreOf 0).v.getD 5 []) == List.replicate 16 (mkPx 0 0 0 0)) = true ∧
    after (.mat (.compose 0 0) false) (coreAt (word 0x49 5 0 0 0 0x1000)) (fun t => ((t.groupOf 0).coreOf 0).pc == 33) = true := by
  decide +kernel

theorem test_store_line :
    after (.bst (.compose 0 0)) (coreAt (word 0x50 0 1 0 0 0)) (fun t =>
      ((t.groupOf 0).coreOf 0).line == some ⟨0, [(0, Vec.zero)]⟩) = true ∧
    after (.endBand (.compose 0 0)) (coreSt { core0 with line := some ⟨0, []⟩ } band0 (word 0x62 0 0 0 0 0)) (fun t =>
      (t.groupOf 0).stageQ == [⟨0, ⟨0, []⟩, false, band0.key⟩] && !((t.groupOf 0).coreOf 0).on) = true := by decide +kernel

theorem test_branch_and_loop :
    after (.br (.compose 0 0)) (coreAt (word 0x60 0 0 0 0 5)) (fun t => ((t.groupOf 0).coreOf 0).pc == 37) = true ∧
    after (.loop (.compose 0 0)) (coreAt (word 0x61 0 0 0 0 (0xFFFD + 2 * 65536))) (fun t =>
      ((t.groupOf 0).coreOf 0).loops == [⟨33, 35, 16, 0, 1⟩] && ((t.groupOf 0).coreOf 0).pc == 33) = true ∧
    after (.loop (.compose 0 0)) (coreAt (word 0x61 0 0 0 0 (2 * 65536))) (fun t => ((t.groupOf 0).coreOf 0).pc == 35) = true ∧
    after (.endBand (.compose 0 0)) (coreAt (word 0x62 0 0 0 0 0)) (fun t => !((t.groupOf 0).coreOf 0).on) = true := by
  decide +kernel

theorem test_swi_wait : issues (coreSt core0 { band0 with swi := true } (word 0x31 0 0 0 0 0xFF)) 0x31 = true ∧
    after (.wait (.compose 0 0) false) (coreAt (word 0x32 0 0 0 0 1)) (fun t => ((t.groupOf 0).coreOf 0).wait == .unit 1) = true ∧
    (coreSt { core0 with wait := .unit 0, ins := word 0x32 0 0 0 0 0 } band0 0).waitHolds 0 0 band0 0
      { core0 with wait := .unit 0, ins := word 0x32 0 0 0 0 0 } = true := by decide +kernel

theorem test_false_predicate : after (.add (.compose 0 0)) (coreAt (word 0x301 5 1 2 0 0)) (fun t =>
    sreg ((t.groupOf 0).coreOf 0).s 5 == 0 && ((t.groupOf 0).coreOf 0).pc == 33) = true := by decide +kernel

/-! ## Management cores -/

/-- Management core 0 at 0x100 of its SRAM. -/
def mg : MgmtSt :=
  { MgmtSt.init with on := true, pc := 0x100, tvec := 0x200, s := [0, 0x80, 3, 0x40000000, 0x1000000000] ++ List.replicate 27 0 }

/-- Core 0, its next instruction, and 0x1234 at 0x80 of its SRAM and 0xFEDC at the start of the shared SRAM. -/
def mgAt (m : MgmtSt) (w : Nat) : State :=
  { State.reset with
    mgmt := [(0, m)]
    sram := Mem.writeBytes dramDefault (Mem.writeBytes dramDefault [] 0x20080 [0x34, 0x12]) 0x20100 ((bytesLE 8 w).map (BitVec.ofNat 8)) }

def mgIssues (op w : Nat) : Bool := decide (MgmtIssues (mgAt mg w) 0 op w) && (Ins.ofNat w).holds mg.p

/-- Core 0 afterwards. -/
def mgAfter (c : Instr) (s : State) (p : MgmtSt → Bool) : Bool := after c s fun t => p (t.mgmtOf 0)

theorem test_mgmt_issue_every_opcode :
    ([1, 2, 3, 4, 5, 6, 7, 8, 9, 10, 11, 12, 13, 14, 15, 0x60, 0x70, 0x71, 0x72, 0x73, 0x74, 0x75, 0x76, 0x77, 0x78, 0x79, 0x10, 0x11,
      0x12, 0x20, 0x21, 0x22, 0x23, 0x24, 0x30, 0x31, 0x32, 0x38, 0x40, 0x48, 0x49, 0x50, 0x61, 0x62].all fun op =>
      mgIssues op (word op 5 1 2 0 0)) = true := by decide +kernel

theorem test_mgmt_scalar : mgAfter (.add (.mgmt 0)) (mgAt mg (word 1 5 1 2 0 0)) (fun m => sreg m.s 5 == 0x83 && m.pc == 0x108) = true ∧
    mgAfter (.cmpi (.mgmt 0)) (mgAt mg (word 14 3 1 0 5 0xFFFFFFFF)) (fun m => preg m.p 3) = true := by decide +kernel

theorem test_mgmt_transfers :
    mgAfter (.br (.mgmt 0)) (mgAt mg (word 0x60 0 0 0 0 0xFFFFFFFF)) (fun m => m.pc == 0xF8) = true ∧
    mgAfter (.jal (.mgmt 0)) (mgAt mg (word 0x70 5 0 0 0 2)) (fun m => m.pc == 0x110 && sreg m.s 5 == 0x108) = true ∧
    mgAfter (.jr (.mgmt 0)) (mgAt mg (word 0x71 0 2 0 0 0)) (fun m => m.pc == 0) = true ∧
    mgAfter (.eret (.mgmt 0)) (mgAt { mg with epc := 0x300, pie := true } (word 0x76 0 0 0 0 0)) (fun m => m.pc == 0x300 && m.ie) = true ∧
    mgAfter (.ecall (.mgmt 0)) (mgAt mg (word 0x79 0 0 0 0 0)) (fun m => m.pc == 0x200 && m.epc == 0x100 && m.cause == 5) = true := by
  decide +kernel

theorem test_mgmt_csr :
    mgAfter (.csrr (.mgmt 0)) (mgAt mg (word 0x74 5 0 0 0 3)) (fun m => sreg m.s 5 == 0x200) = true ∧
    mgAfter (.csrr (.mgmt 0)) (mgAt mg (word 0x74 5 0 0 0 8)) (fun m => m.cause == 1 && m.pc == 0x200) = true ∧
    mgAfter (.csrw (.mgmt 0)) (mgAt mg (word 0x75 0 2 0 0 0)) (fun m => m.ie && m.pie) = true ∧
    mgAfter (.csrw (.mgmt 0)) (mgAt mg (word 0x75 0 2 0 0 5)) (fun m => m.pc == 0x108) = true ∧
    mgAfter (.csrr (.mgmt 0)) { mgAt mg (word 0x74 5 0 0 0 7) with capHi := [(cycleKey 0, 9)] } (fun m => sreg m.s 5 == 9) = true := by
  decide +kernel

/-- Core 0's interrupt line is asserted. -/
def lined (m : MgmtSt) (w : Nat) : State := (mgAt m w).put (F.icuTgtStatLine 0) 1

theorem test_mgmt_wfi :
    mgAfter (.wfi (.mgmt 0)) (mgAt mg (word 0x77 0 0 0 0 0)) (fun m => m.wait == .interrupt) = true ∧
    mgAfter (.wfi (.mgmt 0)) (lined mg (word 0x77 0 0 0 0 0)) (fun m => m.pc == 0x108) = true ∧
    mgAfter (.wfi (.mgmt 0)) (lined { mg with wait := .interrupt, ins := word 0x77 0 0 0 0 0 } 0) (fun m => m.pc == 0x108) = true := by
  decide +kernel

theorem test_mgmt_interrupts :
    mgAfter (.interruptException (.mgmt 0)) (lined { mg with ie := true } 0) (fun m => m.epc == 0x100 && m.cause == 8 && m.pie) = true ∧
    mgAfter (.interruptException (.mgmt 0)) (lined { mg with ie := true, wait := .interrupt } 0) (fun m => m.epc == 0x108) = true ∧
    mgAfter (.interruptException (.mgmt 0)) (mgAt mg (word 0x7F 0 0 0 0 0)) (fun m => m.epc == 0x100 && m.cause == 1) = true ∧
    controlOp 0x7F = false := by decide +kernel

theorem test_mgmt_loads :
    mgAfter (.ld (.mgmt 0)) (mgAt mg (word 0x72 5 1 0 1 0)) (fun m => sreg m.s 5 == 0x1234) = true ∧
    mgAfter (.ld (.mgmt 0)) (mgAt mg (word 0x72 5 2 0 1 0)) (fun m => m.cause == 2 && m.badaddr == 3) = true ∧
    mgAfter (.ld (.mgmt 0)) (mgAt mg (word 0x72 5 4 0 3 0)) (fun m => m.wait == .load) = true ∧
    mgAfter (.ldDataReturn (.mgmt 0) false) (mgAt { mg with wait := .load, ins := word 0x72 5 4 0 3 0 } 0) (fun m =>
      m.wait == .none && m.pc == 0x108) = true ∧
    mgAfter (.ldDataReturn (.mgmt 0) true) (mgAt { mg with wait := .load, ins := word 0x72 5 4 0 3 0 } 0) (fun m => m.cause == 4) = true ∧
    mgAfter (.ldDataReturn (.mgmt 0) false) (mgAt { mg with wait := .load, ins := word 0x72 5 0 0 3 0x20080 } 0) (fun m =>
      m.pc == 0x108) = true := by
  decide +kernel

theorem test_mgmt_stores :
    after (.st (.mgmt 0)) (mgAt mg (word 0x73 0 1 2 1 2)) (fun t => Tbl.get dramDefault t.sram 0x20082 == 3) = true ∧
    mgAfter (.st (.mgmt 0)) (mgAt mg (word 0x73 0 2 2 1 0)) (fun m => m.cause == 2) = true ∧
    mgAfter (.lds (.mgmt 0)) (mgAt mg (word 0x10 0 2 2 1 0)) (fun m => m.cause == 1) = true ∧
    (mgAt mg 0).sramOff (some 0) = none := by decide +kernel

/-- Core 0 may read and write no register block. -/
def denied (w : Nat) : State := ((mgAt mg w).wr (Reg.protAgBlkwr 0) 0).wr (Reg.protAgBlkrd 0) 0

theorem test_mgmt_denied :
    mgAfter (.st (.mgmt 0)) (denied (word 0x73 0 3 2 2 0x50000)) (fun m => m.cause == 3 && m.badaddr == 0x40050000) = true ∧
    mgAfter (.ld (.mgmt 0)) (denied (word 0x72 5 3 0 2 0x50000)) (fun m => m.cause == 3) = true ∧
    (mgAt mg 0).mgmtFault 0 false 0x300000 8 = some 4 ∧ (mgAt mg 0).mgmtFault 0 false 0x1000000000 8 = none := by decide +kernel

/-! ## Bands -/

/-- An enabled head of the reset geometry: 1,920 by 1,080, bands of 16 lines. -/
def hcfg : HeadCfg := { HeadCfg.init with ctl := 0x101 }

def bandQ : Band := { band0 with stage := .queued, cfg := hcfg, lines := 16 }

/-- A band of head 0 waits in group 0. -/
def queued : State :=
  (State.reset.setHead 0 { HeadSt.init with bands := [bandQ] }).setGroup 0 { GroupSt.init with queue := [(0, 1, 0, 0, 1000)] }

theorem test_band_start : queued.bandOf (0, 1, 0, 0) = some bandQ ∧
    after (.bandStart 0) queued (fun t => (t.groupOf 0).queue == [] && (t.groupOf 0).running == some (0, 1, 0, 0) &&
      ((t.groupOf 0).coreOf 7).on && ((t.groupOf 0).coreOf 7).pc == 0) = true := by decide +kernel

/-- A tick of which band 0 is to be latched. -/
def run0 (m : BandStage) : Run := ⟨1, false, hcfg, 0, [1000000], m, 0, 0, [], []⟩

def latching (m : BandStage) : State := State.reset.setHead 0 { HeadSt.init with cfg := hcfg, runs := [run0 m] }

theorem test_band_latch : (latching .queued).nextRun [run0 .queued] = some (run0 .queued) ∧
    after (.bandLatch 0) (latching .queued) (fun t => ((t.headOf 0).bands.map fun b => (b.tick, b.j, b.lines)) == [(1, 0, 16)] &&
      (t.groupOf 0).queue.length == 1) = true ∧
    after (.bandLatch 0) (latching .black) (fun t => (t.groupOf 0).queue == []) = true := by decide +kernel

/-- Group 0 runs the band, with the given cores and releases. -/
def running (cs : List (Nat × CoreSt)) (q : List Release) : State :=
  (State.reset.setHead 0 { HeadSt.init with bands := [{ bandQ with stage := .running }] }).setGroup 0
    { GroupSt.init with running := some (0, 1, 0, 0), cores := cs, stageQ := q }

theorem test_release_and_complete :
    after (.headStageReleaseDone 0 1) (running [] [⟨0, ⟨0, []⟩, false, (0, 1, 0, 0)⟩]) (fun t => (t.groupOf 0).stageQ == [] &&
      ((t.bandOf (0, 1, 0, 0)).map fun b => b.store.map Prod.fst) == some [0]) = true ∧
    after (.bandComplete 0) (running [] []) (fun t => (t.groupOf 0).running == none &&
      ((t.bandOf (0, 1, 0, 0)).map Band.stage) == some .complete) = true ∧
    stays (.bandComplete 0) (running [(0, core0)] []) = true := by decide +kernel

theorem test_band_deadline :
    after (.bandDeadline 0) queued (fun t => (t.headOf 0).bands == [] &&
      ((t.headOf 0).sent.map fun x => (x.tick, x.j)) == [(1, 0)] && t.time.devtime == 1000) = true ∧
    queued.clonesOf 0 = [] := by decide +kernel

/-- An accepted commit of head 0 for tick 1. -/
def commit1 : Commit := ⟨3, 2, 9, 0, 1, false, [0], [(0, hcfg)], [], 0, []⟩

theorem test_frame_latch :
    after (.frameLatch 0) (State.reset.setHead 0 { HeadSt.init with cfg := hcfg, latchTick := 1 }) (fun t =>
      (t.headOf 0).latchTick == 2 && (t.headOf 0).cfg == hcfg) = true ∧
    after (.frameLatch 0) { State.reset.setHead 0 { HeadSt.init with latchTick := 1 } with accepted := [commit1] } (fun t =>
      (t.headOf 0).cfg == hcfg && (t.headOf 0).order == 3 && (t.headOf 0).agent == 2) = true := by decide +kernel

/-- Head 0 runs, and has seen three ticks unchanged. -/
def idle0 : State :=
  (State.reset.setHead 0 { HeadSt.init with cfg := { hcfg with ctl := 0x03000121 }, idle := 3 }).put (F.headStatusState 0) 1

theorem test_head_events :
    after (.twilightEntry 0) idle0 (fun t => t.get (F.headStatusState 0) == 3 && t.get (F.headEventTwilight 0) == 1) = true ∧
    stays (.twilightEntry 0) (latching .queued) = true ∧
    after (.retimeEnd 0) (State.reset.setHead 0 { HeadSt.init with retimeEnd := some 500 }) (fun t =>
      (t.headOf 0).resume && t.time.devtime == 500) = true := by decide +kernel

def shown0 : Shown := ⟨7, LayerCfg.init, LayerCfg.init, 0, 256, false, false, none⟩

/-- A head of four columns with a layer shown in its next band. -/
def early0 : State :=
  let c : HeadCfg := { hcfg with htiming := BitVec.ofNat 32 (2200 + 65536 * 4) }
  State.reset.setHead 0 { HeadSt.init with cfg := c, runs := [{ run0 .queued with cfg := c, shown := [shown0] }] }

theorem test_early_fetch : (early0.earlyPlan 0 7).isSome = true ∧ stays (.earlyFetchStart 0 8) early0 = true ∧
    after (.earlyFetchStart 0 7) early0 (fun t =>
      (t.headOf 0).early.map (fun e => (e.tick, e.mem.map EarlyMem.layer)) == some (1, [7])) = true := by decide +kernel

/-- A scaler band of head 0. -/
def sband (h : Nat) : ScalerBand := ⟨h, 1, 0, 0, 0, 1000, walk0 LayerCfg.init, hcfg, false⟩

theorem test_scaler_bands :
    after (.scalerBandDone 0) (State.reset.setUnit 0 (some (sband 0))) (fun t => (t.unitOf 0).isNone &&
      t.get (F.sclCountBands 0) == 1) = true ∧
    after (.scalerBandDone 0) (queued.setUnit 0 (some (sband 0))) (fun t => (t.unitOf 0).isNone) = true ∧
    queued.scalerTarget (sband 0) = some (0, bandQ) := by decide +kernel

theorem test_time_ticks :
    stays .tickBoundary { State.reset with clk := { ClkSt.init with dead := true } } = true ∧
    after .tickBoundary State.reset (fun t => t.time.ticknum == 1 && t.time.nextTick == 2) = true ∧
    after .tickBoundary { State.reset with time := { TimeSt.init with tphasePend := some 5 } } (fun t =>
      t.time.tphase == 5 && t.time.tphasePend == none) = true ∧
    stays (.phaseStart 1) State.reset = true ∧
    after (.phaseStart 0) (latching .queued) (fun t => (t.headOf 0).subPhase == 0) = true := by decide +kernel

theorem test_tick_control : (decide (State.reset.writes 0 Reg.tickTctl) && decide (State.reset.writes 0 Reg.tickTphase)) = true ∧
    after (.step 0 1) (fld F.tickTstatFault 1) (fun t => t.flag F.tickTctlStep) = true ∧ stays (.step 0 1) State.reset = true ∧
    stays (.structArm 0 0) State.reset = true ∧
    after (.structArm 0 2) (fld F.tickTstructStatBusy 1) (fun t => t.flag F.tickTstructStatOverrun) = true ∧
    after (.structArm 0 2) State.reset (fun t => t.time.armed.isSome && t.flag F.tickTstructStatPending) = true ∧
    after (.tphaseWrite 0 9) (fld F.tickTstatActive 3) (fun t => t.time.tphasePend == some 9) = true ∧
    stays (.tphaseWrite 0 9) (fld F.tickTstatActive 2) = true := by decide +kernel

/-- Agent 2's commits name head 1. -/
def naming (h : Nat) : State := reg (bank 2 (Reg.tickCmask 0)) (BitVec.ofNat 32 (2 ^ h))

theorem test_commits : (decide (State.reset.writes 2 Reg.tickCommit)) = true ∧ (naming 1).cmask 2 = [1] ∧
    after (.commit 2 7) (naming 1) (fun t => t.commits == 1 && t.busy.isSome) = true ∧
    after (.commit 2 7) { naming 1 with busy := some commit1 } (fun t => t.flag (bankFld 2 F.tickCstatOverrun) &&
      t.flag (F.headEventCommitOverrun 1)) = true ∧
    after (.commit 2 7) { State.reset with busy := some commit1 } (fun t => t.flag (bankFld 2 F.tickCstatOverrun)) = true ∧
    after (.commit 2 7) State.reset (fun t => t.get (bankFld 2 F.tickCstatSeq) == 7 && t.busy == none) = true := by decide +kernel

theorem test_validations : stays .commitValidationDone State.reset = true ∧ stays .structValidationDone State.reset = true ∧
    after .commitValidationDone { State.reset with busy := some { commit1 with heads := [], mask := [] } } (fun t =>
      t.busy == none && t.get (bankFld 2 F.tickCstatSeq) == 9) = true ∧
    after .structValidationDone { fld F.tickTstructStatBusy 1 with time := { TimeSt.init with
      armed := some ⟨TickStruct.init, 0, 1, false, false⟩ } } (fun t => !t.flag F.tickTstructStatBusy &&
        t.time.armed == some ⟨TickStruct.init, 0, 1, false, true⟩) = true := by decide +kernel

theorem test_time_sources : stays (.genlockFrameReference true) State.reset = true ∧
    after (.genlockFrameReference false) (fld F.tickGlcfgType 1) (fun t => t.time.gl.missed == 1) = true ∧
    after (.genlockFrameReference true) (fld F.tickGlcfgType 1) (fun t => t.time.gl.last == some 0 && t.flag F.tickGlstatPresent) = true ∧
    stays (.sourceLost 1) State.reset = true ∧ stays (.sourceLost 2) State.reset = true ∧
    after (.sourceLost 1) { (fld F.tickTstatActive 1).put F.tickTstatState 2 with time := { TimeSt.init with
      ptp := { PtpClock.init with master := some [1] } } } (fun t => t.get F.tickTstatActive == 3 && t.get F.tickTstatState == 3) = true ∧
    after (.sourceLost 2) { (fld F.tickTstatActive 2).put F.tickTstatState 1 with time := { TimeSt.init with
      gl := ⟨some 4, 0, 0, 0, false, false⟩ } } (fun t => t.get F.tickTstatActive == 3 && t.get F.tickTstatState == 0) = true ∧
    after .holdoverEnd { fld F.tickTstatState 3 with time := { TimeSt.init with holdEnd := some 700 } } (fun t =>
      t.get F.tickTstatState == 0 && t.time.devtime == 700) = true ∧ stays .holdoverEnd State.reset = true := by decide +kernel

/-- Port 4 carries PTP. -/
def ptpOn : State := (fld F.tickPtpcfgPorts 16).put F.tickPtpcfgDomain 0

/-- An Announce: version 2, domain 0, 64 bytes, of the clock `id`, `far` steps away. -/
def announce (id far : Byte) : List Byte :=
  [0x0B, 0x02] ++ List.replicate 25 0 ++ [id] ++ List.replicate 34 0 ++ [far, 0]

/-- Some clock's Announce is not the device's own, whatever the device's identity. -/
theorem witness_announce : ∃ id, announceTakes ((announce id 0).map BitVec.toNat) = true := by
  by_cases h : ofBytesBE ((List.range 8).map fun i => (Config.deviceByte i).toNat) = 0
  · exact ⟨1, by simp only [announceTakes, h]; decide⟩
  · have e : ptpField ((announce 0 0).map BitVec.toNat) 20 8 = 0 := by decide
    have f : ptpField ((announce 0 0).map BitVec.toNat) 61 2 = 0 := by decide
    exact ⟨0, by unfold announceTakes; rw [e, f]; simpa using fun g => h g.symm⟩

theorem test_ptp : ptpOn.ptpPort 4 = true ∧ stays (.ptpMessage 0 (announce 0 0)) State.reset = true ∧
    after (.ptpMessage 4 (announce 0 255)) ptpOn (fun t => t.time.ptp.master == none && t.time.ptp.foreign.isEmpty) = true ∧
    after (.ptpMessage 4 [0x01]) ptpOn (fun t => t.fresh == 42) = true ∧ stays (.delayReqSend 4) ptpOn = true := by decide +kernel

theorem test_pulses : after .ppsOut { State.reset with time := { TimeSt.init with devtime := 1500000000 } } (fun t =>
      t.time.pps && t.time.devtime == 2000000000) = true ∧
    after .ppsOutFall { State.reset with time := { TimeSt.init with pps := true, devtime := 2000000000 } } (fun t =>
      !t.time.pps && t.time.devtime == 2001000000) = true ∧ stays .ppsOutFall State.reset = true ∧
    after .ppsIn { State.reset with time := { TimeSt.init with devtime := 0x500000006 } } (fun t =>
      t.rd Reg.tickPpsinLo == 6 && t.rd (Reg.tickPpsinLo + 4) == 5) = true ∧
    after (.shutsyncPulseBegin 0) { State.reset with time := { TimeSt.init with shut := [{ ShutOut.init with cfg := 1 }] } } (fun t =>
      (t.time.shut.map ShutOut.began) == [0] && (t.time.shut.map ShutOut.activeUntil) == [some 1000]) = true ∧
    after (.shutsyncPulseEnd 0) { State.reset with time := { TimeSt.init with shut := [{ ShutOut.init with activeUntil := some 1000 }] } }
      (fun t => t.time.shut == [ShutOut.init] && t.time.devtime == 1000) = true := by decide +kernel

theorem test_clocks :
    stays (.htbCfgWrite 0 0 false 23) State.reset = true ∧ stays (.htbCfgWrite 0 0 false 41) State.reset = true ∧
    after (.htbCfgWrite 0 0 false 24) (latching .queued) (fun t => (t.headOf 0).retimeEnd.isSome) = true ∧
    stays (.htbCfgWrite 0 0 true (State.reset.rd (Reg.clkHtbFrac 0))) State.reset = true ∧
    after (.syncinArm 0 1) State.reset (fun t => t.flag F.clkSyncinArm) = true ∧
    after .syncinEdge ((fld F.clkStatusRef100 1).put F.clkSyncinArm 1) (fun t => !t.flag F.clkSyncinArm &&
      t.get F.clkSyncinCount == 1) = true ∧
    stays .syncinEdge (fld F.clkStatusRef100 0) = true := by decide +kernel

theorem test_lost_and_regained :
    after (.mdllUnlock true) State.reset (fun t => t.flag F.clkStatusFallback && t.flag F.pwrStatusDuskClk) = true ∧
    after .refLost State.reset (fun t => t.flag F.clkStatusFallback && t.flag F.pwrStatusDusk) = true ∧
    after (.htbUnlock 1) (fld F.clkStatusHtbbLock 1) (fun t => t.flag F.pwrStatusDuskClk && !t.flag F.clkStatusHtbbLock) = true ∧
    stays (.htbUnlock 0) State.reset = true ∧
    after .mdllLock State.reset (fun t => t.boot.stage == 1 && t.flag F.clkStatusSmdllLock) = true ∧
    stays .mdllLock { State.reset with boot := { BootSt.init with stage := 1 } } = true ∧
    after (.clockLockRegained 0) State.reset (fun t => t.flag F.clkStatusRef100) = true ∧
    after (.clockLockRegained 5) (fld (F.clkHtbCfgEn 1) 1) (fun t => t.flag F.clkStatusHtbbLock) = true ∧
    after (.restore 0 4) (((((fld F.pwrStatusDuskClk 1).put F.clkStatusRef100 1).put F.clkStatusCmdllLock 1).put
      F.clkStatusSmdllLock 1).put F.clkStatusFallback 1) (fun t => !t.flag F.clkStatusFallback && !t.flag F.pwrStatusDuskClk) = true := by
  decide +kernel

/-! ## Networks and pose -/

/-- Port 0 is up. -/
def up0 : State := (fld (F.netPortCfgEn 0) 1).put (F.netPortStatLink 0) 1

theorem test_net_mode_and_links : stays (.netModeWrite 0 1) (fld (F.netPortCfgEn 7) 1) = true ∧
    after (.netModeWrite 0 1) State.reset (fun t => t.get F.netCfgMode == 1) = true ∧
    after (.portLinkChange 7 true true true) State.reset (fun t => t.flag (F.netPortStatLink 7) && t.flag (F.netPortStatTrained 7) &&
      t.get ⟨Reg.icuPending (740 / 32), 740 % 32, 1⟩ == 1) = true ∧
    after (.portLinkChange 0 true false false) up0 (fun t => t.icu == up0.icu) = true := by decide +kernel

theorem test_flows : (decide (State.reset.writes 0 (Reg.netFlowCtl 255)) && !State.reset.flowNamed 255) = true ∧
    after (.flowEnable 0 255 1) State.reset (fun t => t.flag (F.netFlowStatCfgerr 255)) = true ∧
    after (.flowDisable 0 255 0) (fld (F.netFlowCtlEn 255) 1) (fun t => !t.flag (F.netFlowCtlEn 255)) = true := by decide +kernel

/-- A frame of 60 bytes. -/
def frame60 : TxFrame := ⟨List.replicate 60 0, none, false, false⟩

theorem test_egress :
    after (.egressFrameStart 0) { up0 with net := { NetSt.init with classes := [(3, ⟨[frame60], 0, 0⟩)] } } (fun t =>
      ((t.sendingOf 0).map Sending.cls) == some 3 && (t.classOf 3).fifo == []) = true ∧
    stays (.egressFrameStart 0) State.reset = true ∧ stays (.egressFrameEnd 0) State.reset = true ∧
    after (.egressFrameEnd 0) { up0 with net := { NetSt.init with ports := [(0, some ⟨3, frame60, 0, 0⟩)] } } (fun t =>
      (t.sendingOf 0).isNone && t.out.head? == some (.eth 0 frame60.bytes)) = true := by decide +kernel

theorem test_shapers :
    after (.shaperRateWrite 0 31 5) State.reset (fun t => t.rd (Reg.tspShaperRate 31) == 5) = true ∧
    after (.clrdebt 0 0 1) { State.reset with net := { NetSt.init with classes := [(0, ⟨[], -9, 0⟩)] } } (fun t =>
      (t.classOf 0).credit == 0) = true ∧ stays (.txsSend 0) State.reset = true ∧
    after (.txsSend 2) { State.reset with net := { NetSt.init with txq := [(2, 0, [1])] } } (fun t => t.net.txq == []) = true := by
  decide +kernel

/-- A frame of 60 bytes of a type. -/
def etherFrame (hi lo : Byte) : List Byte := List.replicate 12 0 ++ [hi, lo] ++ List.replicate 46 0

theorem test_received_frames : stays (.ethFrameReceive 0 (etherFrame 8 6) true) State.reset = true ∧
    after (.ethFrameReceive 0 (etherFrame 8 6) false) up0 (fun t => t.get (F.netPortFcserrCount 0) == 1) = true ∧
    after (.ethFrameReceive 0 (List.replicate 12 0 ++ [0x88, 8, 0, 1] ++ List.replicate 44 0) true) up0 (fun t => t.get (F.netPortPauseCount 0) == 1) = true ∧
    after (.ethFrameReceive 0 (etherFrame 8 6) true) up0 (fun t => t.get (F.netPortDropCount 0) == 1) = true ∧
    stays (.videoFrameTimeout 3) State.reset = true ∧
    after (.videoFrameTimeout 3) { State.reset with net := { NetSt.init with flows := [(3, { FlowSt.init with
      frame := some ⟨7, none, 0, 0, []⟩ })] } } (fun t => (t.flowOf 3).frame == none && (t.flowOf 3).closed == [7]) = true := by
  decide +kernel

/-- A record of source 2, sequence 0x0102, at the origin, with quaternion w = 1. -/
def record2 : List Byte :=
  [2, 0, 2, 1] ++ List.replicate 24 0 ++ [0, 0, 0x80, 0x3F] ++ List.replicate 32 0

def poseOn (i : Nat) : State := (fld F.poseCtlEn 1).put (F.poseSrcCfgEn i) 1

theorem test_pose_datagrams : stays (.poseDatagram 0 0 1 record2) State.reset = true ∧
    after (.poseDatagram 0 0 0x1234 record2) (((poseOn 2).put F.poseNetcfgUdpport 0x1234).put F.poseNetcfgPorts 1) (fun t =>
      t.flag (F.poseSrcStatValid 2) && t.get (F.poseSrcStatSeq 2) == 0x102 && t.get (F.poseSrcCountAccept 2) == 1) = true ∧
    after (.poseDatagram 0 0 0x1234 ([2, 0, 2, 1] ++ List.replicate 60 0)) (((poseOn 2).put F.poseNetcfgUdpport 0x1234).put
      F.poseNetcfgPorts 1) (fun t => t.get (F.poseSrcBadMalf 2) == 1) = true := by decide +kernel

def serial0 : State := (poseOn 64).put (F.poseSerCfgEn 0) 1

theorem test_serial : stays (.serialPoll 0) State.reset = true ∧ stays (.serialCharTimeout 0) serial0 = true ∧
    after (.serialPoseFrame 0 [] [0xA5, 0x5A, 1, 2] false) serial0 (fun t => t.serPart 0 == [0xA5, 0x5A, 1, 2]) = true ∧
    after (.serialPoseFrame 0 [] [0xA5, 0x5A, 1] true) serial0 (fun t => t.get (F.poseSerStatFramerr 0) == 1) = true ∧
    after (.serialPoseFrame 0 [] [1] true) serial0 (fun t => t.get (F.poseSerStatSyncloss 0) == 1) = true ∧
    after (.serialPoseFrame 0 [] (0xA5 :: 0x5A :: 64 :: record2.tail) false) serial0 (fun t => t.flag (F.poseSrcStatValid 64)) = true ∧
    after (.serialPoll 0) (serial0.put (F.poseSerCfgPoll 0) 1) (fun t => t.out == [.serial 0 [0xA5, 0xC3]]) = true ∧
    after (.serialCharTimeout 0) { serial0 with pose := { PoseSt.init with partRx := [(0, [1])] } } (fun t =>
      Tbl.get (fun _ => []) t.pose.partRx 0 == []) = true := by decide +kernel

/-- One sample of each bit is wrong; then two of the stop bit's. -/
theorem test_serial_samples : after (.serialPoseFrame 0 [⟨0x1A5, 0x1A5, 0x05A⟩] [0x5A] false) serial0 (fun t => t.serPart 0 == [0xA5, 0x5A]) = true ∧
    after (.serialPoseFrame 0 [⟨0x0A5, 0x1A5, 0x0A5⟩] [] false) serial0 (fun t => t.get (F.poseSerStatSyncloss 0) == 1) = true := by decide +kernel

theorem test_pose_source :
    after (.poseSourceEnable 0 71 1) (fld (F.poseSrcStatSeq 71) 9) (fun t => t.get (F.poseSrcStatSeq 71) == 0 &&
      t.flag (F.poseSrcCfgEn 71)) = true ∧
    after (.poseSourceEnable 0 71 1) ((fld (F.poseSrcStatSeq 71) 9).put (F.poseSrcCfgEn 71) 1) (fun t =>
      t.get (F.poseSrcStatSeq 71) == 9) = true := by decide +kernel

/-! ## The blitter -/

/-- FILL of one row of four bytes at 0x100 with 0x5A, IRQ set; the check word was computed apart, as was the one of the bad one. -/
def fillDesc : List Nat :=
  [0x81, 0, 0, 0, 4, 0, 0, 0, 1] ++ List.replicate 20 0 ++ [1] ++ List.replicate 6 0 ++ [0x5A] ++ List.replicate 23 0 ++
    [0x48, 0xDB, 0x25, 0xB2]

/-- The blitter's ring at local address 0 holds the descriptor. -/
def bltSt (d : List Nat) : State :=
  { ((fld F.bltCtlEn 1).put F.bltTailidxIndex 1) with dram := Mem.writeBytes dramDefault [] 0 (d.map (BitVec.ofNat 8)) }

theorem test_blt_start : stays .bltDescriptorStart State.reset = true ∧ bltCheck fillDesc = 0 ∧
    after .bltDescriptorStart (bltSt fillDesc) (fun t => t.blt.desc == some fillDesc && t.flag F.bltStatusBusy) = true ∧
    after .bltDescriptorStart (bltSt (0x80 :: fillDesc.tail)) (fun t => t.flag F.bltStatusHalted && t.get F.bltStatusErrcode == 1) = true := by
  decide +kernel

/-- The FILL is in progress, and its operation has begun or has not. -/
def bltRun (begun : Bool) : State :=
  { (bltSt fillDesc).put F.bltStatusBusy 1 with blt := { BltSt.init with desc := some fillDesc, running := begun } }

theorem test_blt_rows : stays .bltRowComplete State.reset = true ∧ stays .bltCopy (bltRun false) = true ∧
    after .bltFill (bltRun false) (fun t => t.dram == (bltRun false).dram && t.blt.running) = true ∧
    after .bltRowComplete (bltRun true) (fun t => t.dramRead 0x100 5 == [0x5A, 0x5A, 0x5A, 0x5A, 0] && t.get F.bltRowsRows == 1) = true ∧ stays .bltDescriptorComplete (bltRun true) = true ∧
    after .bltDescriptorComplete ((bltRun true).put F.bltRowsRows 1) (fun t => t.blt.desc == none && t.flag F.bltEventBltDone &&
      t.get F.bltHeadidxIndex == 1) = true := by decide +kernel

/-- The blitter has halted with code 2. -/
def bltHalted : State := (fld F.bltStatusHalted 1).put F.bltStatusErrcode 2

theorem test_blt_controls :
    after (.bltReset 0 8) (bltHalted.put F.bltTailidxIndex 5) (fun t => !t.flag F.bltStatusHalted && t.get F.bltHeadidxIndex == 5) = true ∧
    after (.bltResume 0 2) bltHalted (fun t => !t.flag F.bltStatusHalted && t.get F.bltHeadidxIndex == 0) = true ∧
    after (.bltSkip 0 4) bltHalted (fun t => t.get F.bltStatusErrcode == 0 && t.get F.bltHeadidxIndex == 1) = true := by decide +kernel

/-! ## Local memory -/

/-- The controller is frozen. -/
def frozen0 : State := (State.reset.put F.dmcStatusFrozen 1)

theorem test_dram_requests : frozen0.frozen = true ∧ stays (.dramReadRequest 0 0 1) frozen0 = true ∧
    State.reset.localDead 0x40 64 = false ∧ (realTime 27 && !realTime 28) = true ∧
    after (.dramReadRequest 0 0x41 1) State.reset (fun t => (t.chanOf (t.channelOf 0x40)).reads.map DmcReq.addr == [0x40]) = true ∧
    stays (.dramWriteRequest 0 0 [1]) State.reset = true ∧
    after (.dramWriteRequest 28 7 [1, 2]) State.reset (fun t => t.dramRead 6 4 == [0, 1, 2, 0]) = true := by decide +kernel

/-- Channel 0 holds one read, of requester 3. -/
def reading0 : State :=
  { State.reset with dmc := { DmcSt.init with chans := [(0, { DmcCh.init with reads := [⟨3, 0x40, 2, 5, 0, 0, [9]⟩] })] } }

theorem test_dram_schedule : stays (.dramSchedule 0 [] 0 0) frozen0 = true ∧
    after (.dramSchedule 0 [] 0 0) reading0 (fun t => t.dmc.reply == some (3, 0x40, [9], false) && (t.chanOf 0).reads == []) = true := by
  decide +kernel

theorem test_freeze : stays (.dmcFreeze 1 none 0 0 0) frozen0 = true ∧
    after (.dmcFreeze 2 (some 15) 3 1 0x40) { reading0 with dmc := { reading0.dmc with capture := some (0, 3) } } (fun t =>
      t.frozen && t.get F.dmcFreezeCause == 2 && (t.chanOf 0).reads == [] && t.dmc.capture == none && t.flag F.pwrStatusDuskFrz) = true := by
  decide +kernel

/-- Channel 0 in a given state. -/
def chan0 (c : DmcCh) : State := { State.reset with dmc := { DmcSt.init with chans := [(0, c)] } }

theorem test_refresh : stays (.refreshDue 0) frozen0 = true ∧ State.reset.chanRuns 0 = true ∧
    after (.refreshDue 0) State.reset (fun t => (t.chanOf 0).pair == 1 && t.get (F.dmcChStatusOwed 0) == 0) = true ∧
    after (.refreshDue 0) ((chan0 { DmcCh.init with reads := [⟨3, 0x40, 0, 5, 0, 0, [9]⟩] }).put (F.dmcChStatusOwed 0)
      (State.reset.refreshLimit 0)) (fun t => (t.chanOf 0).pair == 1) = true ∧
    after (.rhWindowEnd 0) (chan0 { DmcCh.init with acts := [(1, 2)] }) (fun t => (t.chanOf 0).acts == []) = true ∧
    after (.mr4Read 0 false) State.reset (fun t => !t.flag (F.dmcChStatusHot 0) && !(t.chanOf 0).burst) = true ∧
    after (.mr4Read 0 true) (fld (F.dmcChStatusOwed 0) 8) (fun t => t.flag (F.dmcChStatusHot 0) && t.flag F.dmcStatusHot &&
      (t.chanOf 0).burst) = true ∧
    after (.selfRefreshEntry 0) (fld F.dmcCtlSren 1) (fun t => t.flag (F.dmcChStatusSelfref 0) != t.flag (F.dmcChStatusSrdeny 0)) = true := by
  decide +kernel

def capturing (n k : Nat) : State := { State.reset with dmc := { DmcSt.init with capture := some (n, k) } }
def changing (cap : Option (Nat × Nat)) (begun : Bool) : State :=
  { State.reset with dmc := { DmcSt.init with capture := cap, change := some (1, 0, begun) } }

theorem test_captures : after (.traincapStart 0 0) State.reset (fun t => t.dmc == DmcSt.init) = true ∧
    after (.traincapStart 0 1) State.reset (fun t => t.flag F.dmcTraincapBusy && (t.dmc.capture.map Prod.fst) == some 0) = true ∧
    after (.traincapStart 0 1) (changing none false) (fun t => t.flag F.dmcTraincapAborted) = true ∧
    stays .traincapDone State.reset = true ∧
    after .traincapDone (capturing 0 0) (fun t => t.flag F.dmcTraincapDone && t.get F.dmcTraincapPts == 0) = true := by decide +kernel

theorem test_set_points :
    after (.freqRequest 0 3) State.reset (fun t => t.flag (F.dmcChEventFreqReject 0) || t.dmc.change.isSome) = true ∧
    after (.freqCancel 0 4) (changing none false) (fun t => t.dmc.change == none) = true ∧
    after (.freqCancel 0 4) (changing none true) (fun t => t.dmc.change == some (1, 0, true)) = true ∧
    stays .freqCaptureHoldExpiry State.reset = true ∧ stays .freqChange (changing (some (0, 3)) false) = true ∧
    after .freqChange (changing none false) (fun t => t.dmc.change == some (1, 0, true)) = true ∧
    after .freqDone (changing none true) (fun t => t.get F.dmcStatusFsp == 1 && t.dmc.change == none) = true := by decide +kernel

/-! ## CXL and DMA -/

/-- The link is up. -/
def linked : State := (fld F.cxlLinkL0 1).put F.cxlLinkWidth 16

theorem test_link : stays (.linkState true 16 0) linked = true ∧
    after (.linkState false 16 3) linked (fun t => !t.flag F.cxlLinkL0 && t.get F.cxlLinkWidth == 0 && t.flag F.cxlEventLinkState) = true := by
  decide +kernel

/-- A read of 0x4000 with tag 5 is outstanding. -/
def cxlRead5 : State :=
  { linked with cxl := { CxlSt.init with reads := [⟨5, 0x4000, .fetch, true, 0, 9, 0, (0, 1, 0, 0), false, 0, 0⟩] } }

theorem test_cxl_reads : stays (.cxlReadCompletion 5 0 []) linked = true ∧ stays (.cxlCompletionTimeout 5) linked = true ∧
    after (.cxlReadCompletion 5 0 [1, 2]) cxlRead5 (fun t => t.hostByte 0x4001 == 2 && !t.hostBad.contains 0x100) = true ∧
    after (.cxlReadCompletion 5 1 []) cxlRead5 (fun t => t.hostBad.contains 0x100 && t.get F.cxlRderrLayer == 9) = true ∧
    after (.cxlCompletionTimeout 5) cxlRead5 (fun t => t.hostBad.contains 0x100 && t.flag F.cxlEventCxlRderr) = true := by decide +kernel

/-- The window decodes local memory from 2^28 on. -/
def window : State := { State.reset with cxl := { CxlSt.init with hdmBase := 1, hdmSize := 1 } }

theorem test_host_memory : after (.hostSnoop 3) State.reset (fun t => t.out == [.snoopMiss 3]) = true ∧
    after (.hostMemRead 3 4) window (fun t => t.out == [.unsupported 3]) = true ∧ window.hdmLocal (2 ^ 28 + 8) 4 = some 8 ∧
    after (.hostMemWrite (2 ^ 28 + 8) [1, 2]) window (fun t => t.dramRead 7 4 == [0, 1, 2, 0]) = true ∧
    after (.hostMemRead (2 ^ 28 + 8) 2) { window with dram := [(9, 7)] } (fun t => t.out == [.completion (2 ^ 28 + 8) [0, 7] false]) = true ∧
    after (.msixUnmask 7 3) State.reset (fun t => t.icu.unmasked.contains (7, 3)) = true ∧
    after (.msixUnmask 0 1) { linked with pcie := [(0x4000050, 0x80000000)], icu := { linked.icu with msixPend := [(0, 1)] } } (fun t => t.out == [.msix 0 1]) = true := by
  decide +kernel

/-- Window 0 grants the first MiB of local memory to no agent. -/
def refusing : State := window.wr (Reg.protWinCfg 0) 1

theorem test_host_memory_refused : refusing.granted 4 true 0 8 2 = window.granted 4 true 0 8 2 ∨
    after (.hostMemWrite (2 ^ 28 + 8) [1, 2]) refusing (fun t => t.dram == [] && t.flag F.protViolValid) = true := by decide +kernel

/-- FILL of three bytes at 0x200 with 0x77, COPY of four from 0x104 to 0x200, and NOP, each with its event; check words computed apart. -/
def dmaFillDesc : List Nat :=
  [0x11, 0, 0, 0, 3] ++ List.replicate 12 0 ++ [2] ++ List.replicate 6 0 ++ [0x77] ++ List.replicate 35 0 ++ [0x2A, 0x55, 0x7C, 0xEC]
def dmaNopDesc : List Nat := 0x12 :: List.replicate 59 0 ++ [0xE0, 0x48, 0x43, 0xF3]
def dmaCopyDesc : List Nat :=
  [0x10, 0, 0, 0, 4, 0, 0, 0, 4, 1] ++ List.replicate 7 0 ++ [2] ++ List.replicate 42 0 ++ [0x4B, 0xBE, 0xD6, 0xE8]

/-- Channel 15's ring at local address 0 holds a descriptor. -/
def dmaSt (d : List Nat) : State :=
  { ((fld (F.dmaChCfgEn 15) 1).put (F.dmaChTailidxIndex 15) 1) with dram := Mem.writeBytes dramDefault [] 0 (d.map (BitVec.ofNat 8)) }

theorem test_dma_start : (dmaCheck dmaFillDesc, dmaCheck dmaNopDesc, dmaCheck dmaCopyDesc) = (0, 0, 0) ∧
    stays (.dmaDescriptorStart 15) State.reset = true ∧
    after (.dmaDescriptorStart 15) (dmaSt dmaFillDesc) (fun t => (t.dmaCh 15).desc == some dmaFillDesc && t.flag (F.dmaChStatusBusy 15)) = true ∧
    after (.dmaDescriptorStart 15) (dmaSt (0 :: dmaFillDesc.tail)) (fun t => t.flag (F.dmaChStatusHalted 15) &&
      t.get (F.dmaChStatusErrcode 15) == 1) = true := by decide +kernel

/-- Channel 15 runs a descriptor. -/
def dmaRun (d : List Nat) (begun : Bool) (issued written : Nat) (reads : List (Nat × Nat × Nat × Nat)) : State :=
  { dmaSt d with dma := ⟨[(15, ⟨some d, 0, begun, issued, written, none⟩)], reads, 0, 0⟩ }

theorem test_dma_operations :
    after (.dmaFill 15) (dmaRun dmaFillDesc false 0 0 []) (fun t => t.dramRead 0x1FF 5 == [0, 0x77, 0, 0, 0] &&
      (t.dmaCh 15).written == 1) = true ∧
    after (.dmaNop 15) (dmaRun dmaNopDesc false 0 0 []) (fun t => (t.dmaCh 15).begun) = true ∧
    after (.dmaCopy 15) (dmaRun dmaCopyDesc false 0 0 []) (fun t => t.dma.reads == [(15, 0x100, 0, 0)] && (t.dmaCh 15).issued == 1) = true ∧
    after (.dmaReadCompletion 15 0 []) { dmaRun dmaCopyDesc true 1 0 [(15, 0x100, 0, 0)] with dram := [(0x105, 9)] } (fun t =>
      t.dramRead 0x200 3 == [0, 9, 0]) = true ∧ stays (.dmaReadCompletion 15 0 []) State.reset = true := by decide +kernel

theorem test_dma_ends : (dmaRun dmaNopDesc true 0 1 []).dmaDone 15 dmaNopDesc = true ∧
    after (.dmaDescriptorComplete 15) (dmaRun dmaNopDesc true 0 1 []) (fun t => (t.dmaCh 15).desc == none &&
      t.get (F.dmaChHeadidxIndex 15) == 1 && t.flag (F.dmaChEventDmaDone 15)) = true ∧
    stays (.dmaHalted 15 4 true 5) State.reset = true ∧ stays (.dmaHalted 15 7 true 5) (dmaRun dmaNopDesc true 0 0 []) = true ∧
    after (.dmaHalted 15 4 true 5) (dmaRun dmaNopDesc true 0 0 []) (fun t => t.flag F.dmaStatusHalted && t.get F.dmaErrCh == 15 &&
      t.get F.dmaErrCause == 4) = true ∧
    after (.dmaResume 0 15 4) (fld (F.dmaChStatusHalted 15) 1) (fun t => !t.flag (F.dmaChStatusHalted 15)) = true ∧
    after (.dmaSkip 0 15 8) (fld (F.dmaChStatusHalted 15) 1) (fun t => t.get (F.dmaChHeadidxIndex 15) == 1) = true ∧
    after (.dmaReset 0 1) (dmaRun dmaNopDesc true 0 0 []) (fun t => t.flag F.dmaCtlReset && (t.dmaCh 15).desc == none) = true ∧
    after .dmaResetDone ((fld F.dmaCtlReset 1).put F.dmaStatusHalted 1) (fun t => !t.flag F.dmaCtlReset && !t.flag F.dmaStatusHalted) = true ∧
    stays .dmaResetDone State.reset = true := by decide +kernel

/-! ## Codec -/

/-- An enabled context of 64 by 64 pictures with one surface; `enc` an encoder in VBR. -/
def ctx0 (enc : Bool) (cmd : Option (List Nat)) (coded : Bool) : CdcCtx :=
  { CdcCtx.init with cmd := cmd, coded := coded, full := 1000000000000
                     eff := [if enc then 0x10F003 else 0x10F001, 0x00400040] ++ List.replicate 12 0 ++ [0x10000] ++ List.replicate 4 0 ++
                       [1, 0, 0x10000, 0] }

/-- DECODE with its event. -/
def decDesc : List Nat := 4 :: List.replicate 59 0 ++ [0xAC, 0xE2, 0x9, 0x89]

def cdcSt (x : CdcCtx) (p : Option Nat) : State :=
  { (((fld (F.cdcCtxCfgEn 31) 1).put (F.cdcCtxCmdtailIndex 31) 1).put (F.cdcCtxCfgPipes 31) 15).put F.cdcCtlPipeen 15 with
    cdc := { CdcSt.init with ctxs := [(31, x)], pipes := [p, none, none, none] }
    dram := Mem.writeBytes dramDefault [] 0 (decDesc.map (BitVec.ofNat 8)) }

theorem test_cdc_contexts : (decide (State.reset.writes 0 (Reg.cdcCtxCfg 31))) = true ∧
    after (.cdcContextEnable 0 31 1) State.reset (fun t => t.flag (F.cdcCtxStatusCfgerr 31)) = true ∧
    after (.cdcContextDisable 0 31 0) (fld (F.cdcCtxCfgEn 31) 1) (fun t => !t.flag (F.cdcCtxCfgEn 31)) = true ∧
    stays (.cdcPipePick 0) State.reset = true ∧ cmdCheck (ctx0 false none false) decDesc = 0 ∧
    (cdcSt (ctx0 false none false) none).pickCtx 0 = some (31, false) ∧
    after (.cdcPipePick 0) (cdcSt (ctx0 false none false) none) (fun t => t.cdc.pipes.getD 0 none == some 31 &&
      t.flag (F.cdcCtxStatusRunning 31)) = true ∧
    after (.cdcPipePick 0) (cdcSt (ctx0 true none false) none) (fun t => t.flag (F.cdcCtxStatusHalted 31) &&
      t.get (F.cdcCtxStatusErrcode 31) == 2) = true := by decide +kernel

theorem test_cdc_commands : stays (.cdcCommandComplete 3) State.reset = true ∧
    after (.cdcCommandComplete 0) (cdcSt (ctx0 false (some decDesc) true) (some 31)) (fun t => t.get (F.cdcCtxCmdheadIndex 31) == 1 &&
      t.flag (F.cdcCtxEventPicDone 31) && t.cdc.pipes.getD 0 none == none) = true ∧
    after (.cdcResume 0 31 0x200) (fld (F.cdcCtxStatusHalted 31) 1) (fun t => !t.flag (F.cdcCtxStatusHalted 31)) = true ∧
    after (.cdcSkip 0 31 0x400) (fld (F.cdcCtxStatusHalted 31) 1) (fun t => t.get (F.cdcCtxCmdheadIndex 31) == 1) = true ∧
    stays (.cdcDecode 0 0 [] form8 window8 []) State.reset = true ∧ stays (.cdcEncode 0 [] []) State.reset = true ∧
    after (.cdcDecode 0 3 [] form8 window8 []) (cdcSt (ctx0 false (some decDesc) false) (some 31)) (fun t =>
      t.get (F.cdcCtxStatusErrcode 31) == 3) = true ∧
    (ctx0 true none false).encoder = true ∧ (ctx0 true none false).vbr = true := by decide +kernel

theorem test_cdc_pictures :
    (cdcSt (ctx0 false (some decDesc) false) (some 31)).streamError 31 decDesc = none ∧
    (cdcSt (ctx0 true (some decDesc) false) (some 31)).encodeError 31 decDesc = none := by decide +kernel

/-! ## The Wall Link -/

/-- Lane 0 sends and is locked. -/
def lane0 : State := ((((fld (F.wlkLaneCfgEn 0) 1).put (F.wlkLaneStatTrained 0) 1).put (F.wlkLaneStatRxlock 0) 1).put
  F.clkStatusRef100 1)

/-- A return of 15 bytes with its check word, which was computed apart. -/
def ret (kind lo hi : Byte) (crc : List Byte) : List Byte := [kind, lo, hi] ++ List.replicate 12 0 ++ crc

theorem test_returns : lane0.laneSends 0 = true ∧ stays (.statusPoll 0 []) State.reset = true ∧
    after (.statusPoll 0 (ret 1 2 3 [0, 0])) lane0 (fun t => t.get (F.wlkLaneCtrlerrBad 0) == 1 && t.flag (F.wlkLaneEventRxCrc 0)) = true ∧
    after (.statusPoll 0 (ret 1 2 3 [0x58, 0xD9])) lane0 (fun t => ((t.laneOf 0).poll.map fun e => Nat.beq e.1 0x302 && e.2 == 0) == some true) = true ∧
    after (.credit 0 (ret 2 5 0 [0xDE, 0x85])) lane0 (fun t => t.get (F.wlkLaneCreditSlota 0 0) == 5 && (t.laneOf 0).tracking) = true ∧
    after (.status 0 (ret 3 7 9 [0xD9, 0x93])) lane0 (fun t => t.get (F.wlkLaneStatHubstate 0) == 3 &&
      t.get (F.wlkLaneHubstatData 0 0) == 0x907) = true ∧
    stays (.pollAnswer 0) lane0 = true ∧
    after (.pollAnswer 0) (lane0.setLane 0 { lane0.laneOf 0 with poll := some (0x302, 0) }) (fun t => (t.laneOf 0).poll == none &&
      t.get (F.wlkLanePollTag 0) == 0x302 && t.out.length == 1) = true ∧
    stays (.laneRxLockChange 0 true) lane0 = true ∧
    after (.laneRxLockChange 0 true) (lane0.put (F.wlkLaneStatRxlock 0) 0) (fun t => t.flag (F.wlkLaneEventLaneState 0)) = true ∧
    lane0.domOn 29 = true := by decide +kernel

theorem test_lanes : after (.laneEnable 0 15 1) State.reset (fun t => t.flag (F.wlkLaneCfgEn 15) &&
      (t.flag (F.wlkLaneStatTrained 15) || t.flag (F.wlkLaneCfgMedia 15))) = true ∧
    after (.laneDisable 0 0 0) lane0 (fun t => !t.flag (F.wlkLaneStatTrained 0) && !t.laneSends 0) = true ∧
    after (.laneTrainingDone 0) ((fld (F.wlkLaneCfgEn 0) 1).setLane 0 { LaneSt.init with media := true }) (fun t => t.flag (F.wlkLaneStatTrained 0)) = true ∧
    stays (.laneTrainingDone 0) State.reset = true ∧
    after (.standbyWrite 0 1) State.reset (fun t => t.wlk.changes.map Prod.snd == [true]) = true := by decide +kernel

/-- Head 0 has sent a band of one line of two pixels. -/
def sent0 : Sent := ⟨1, 0, 0, 1000, 0, hcfg, [[1, 2]], false, none, true, false⟩

theorem test_packets : stays (.bandPacketStart 0) State.reset = true ∧
    after (.bandPacketStart 0) (State.reset.setHead 0 { HeadSt.init with sent := [sent0] }) (fun t => t.out == []) = true ∧
    after (.bandPacketStart 0) (lane0.setHead 0 { HeadSt.init with sent := [sent0] }) (fun t =>
      (t.headOf 0).sent.head?.map Sent.started != some false && t.out.length != 0) = true ∧
    after (.readbackArm 0 0 1) State.reset (fun t => t.flag (F.headRbctlArm 0)) = true ∧
    after (.readbackCancel 0 0 2) (fld (F.headRbctlArm 0) 1) (fun t => !t.flag (F.headRbctlArm 0)) = true ∧
    stays (.readbackDone 0) State.reset = true ∧
    after (.readbackDone 0) (State.reset.setHead 0 { HeadSt.init with capture := some (3, [1]) }) (fun t =>
      t.flag (F.headRbctlDone 0) && t.get (F.headRbctlTicklo 0) == 3) = true := by decide +kernel

/-- Writeback port 15 takes head 0's bands to local memory. -/
def wb15 : State :=
  let s := State.reset.setHead 0 { HeadSt.init with cfg := hcfg, sent := [{ sent0 with started := true }] }
  { s with wb := [(15, ⟨⟨0x1001, 0, 0, 0, 0⟩, 0, false, none, none, []⟩)] }

theorem test_writeback : stays (.writebackBand 15 true) State.reset = true ∧ (wb15.wbOf 15).cfg.en = true ∧
    after (.writebackBand 15 false) wb15 (fun t => t.flag (F.fltWbStatusWbDone 15) && t.flag (F.fltWbStatusIncomplete 15)) = true := by
  decide +kernel

/-! ## Interrupts -/

/-- Source 1020 goes to target 7 with priority 15, enabled and pending. -/
def pend1020 : State :=
  (((fld (F.icuSrcCfgTmask 1020) 128).put (F.icuSrcCfgPrio 1020) 15).wr (Reg.icuEnable 31) 0x10000000).wr (Reg.icuPending 31) 0x10000000

theorem test_icu : after (.doorbell 0 1020) State.reset (fun t => t.rd (Reg.icuPending 31) == 0x10000000) = true ∧
    after (.doorbell 0 1021) State.reset (fun t => t.get F.icuStatusDbign == 1) = true ∧ pend1020.best 7 = some (1020, 15) ∧
    after (.claim 0 7) pend1020 (fun t => t.rd (Reg.icuPending 31) == 0 && Tbl.get (fun _ => 0) t.icu.serv 127 == 1020) = true ∧
    after (.claim 0 7) State.reset (fun t => t.lastRead == 0 && t.get (F.icuTgtStatSpur 7) == 1) = true ∧
    after (.complete 0 7 1020) { State.reset with icu := { IcuSt.init with serv := [(127, 1020)] } } (fun t => t.icu.serv == []) = true ∧
    after (.complete 0 7 1020) State.reset (fun t => t.get (F.icuTgtStatBadcomp 7) == 1) = true ∧
    after (.pendingWrite 0 31 0xFFFFFFFF) State.reset (fun t => t.rd (Reg.icuPending 31) == sourceBits 31) = true := by decide +kernel

/-! ## Power -/

theorem test_domains : after (.domainRequest 0 0 0xFFFFFFFE) State.reset (fun t => t.flag F.pwrStatusDombusy) = true ∧
    stays .domainChange State.reset = true ∧
    after .domainChange ((State.reset.put ⟨Reg.pwrDomctl 2, 71 % 32, 1⟩ 0).put F.pwrStatusDombusy 1) (fun t => !t.domOn 71) = true ∧
    after .domainChange (State.reset.put ⟨Reg.pwrDomctl 2, 73 % 32, 1⟩ 0) (fun t => t.domOn 73 && t.get F.pwrRefuseReason == 1 &&
      t.get F.pwrRefuseDomain == 73) = true := by decide +kernel

/-- The power state, with what it was entered with. -/
def power (st : Nat) (restored : Bool) : State :=
  { fld F.pwrStatusState st with pwr := { PwrSt.init with restored := restored } }

theorem test_midnight : after (.midnightEnter 0 1) State.reset (fun t => t.get F.pwrStatusState == 2) = true ∧
    after (.midnightEnter 0 1) (fld F.bltStatusBusy 1) (fun t => t.get F.pwrMidnightRefuse == 2 && t.flag F.pwrEventMidnightRefused) = true ∧
    after (.midnightWake 0 2) (power 3 false) (fun t => t.get F.pwrStatusState == 4) = true ∧
    after (.midnightWake 0 2) (power 2 false) (fun t => t.pwr.wakePend && t.get F.pwrStatusState == 2) = true ∧
    stays (.midnightWake 0 2) State.reset = true ∧ stays .midnightEntryDone State.reset = true ∧
    after .midnightEntryDone (power 2 false) (fun t => t.get F.pwrStatusState == 3 && t.domOn 69 && !t.domOn 73) = true := by
  decide +kernel

theorem test_wake : after .wakeTime ((((power 3 false).put F.pwrWakecfgTime 1).wr64 Reg.pwrWaketimeLo 50)) (fun t =>
      t.get F.pwrStatusState == 4 && t.now == 50) = true ∧ stays .wakeTime State.reset = true ∧
    after (.gpioWake 15) ((power 3 false).put F.pwrWakecfgGpio 0x8000) (fun t => t.get F.pwrStatusState == 4) = true ∧
    stays (.gpioWake 15) State.reset = true ∧ stays .wakeRestore State.reset = true ∧ stays .wakeComplete State.reset = true ∧
    after .wakeRestore (power 4 false) (fun t => t.pwr.restored && (t.mgmtOf 3).on) = true ∧
    after .wakeComplete (power 4 true) (fun t => t.get F.pwrStatusState == 0 && t.flag F.pwrEventMidnightWake) = true := by decide +kernel

theorem test_energy : after (.energyBucketUpdate 0x1000) (fld F.pwrStatusState 1) (fun t => t.get F.pwrPestW16 == 0xFFF) = true ∧
    after (.sensorSample (List.replicate 16 200)) State.reset (fun t => t.get (F.thmSensValue 15) == 200) = true ∧
    after (.sensorSample (-321 :: List.replicate 15 200)) State.reset (fun t => t.get F.thmSensfaultFault == 1) = true := by decide +kernel

theorem test_heat : after .shedStep (fld F.thmStatusStage 2) (fun t => t.pwr.shedL == 1) = true ∧ stays .shedStep State.reset = true ∧
    after .shedStep { State.reset with pwr := { PwrSt.init with shedL := 8 } } (fun t => t.pwr.shedL == 7) = true ∧
    after (.duskexit 0 1) ((fld F.pwrStatusDuskThm 1).put F.pwrStatusDusk 1) (fun t => !t.flag F.pwrStatusDuskThm && !t.inDusk) = true ∧
    stays (.duskexit 0 0) State.reset = true ∧ stays (.thermalTrip 15 999) State.reset = true ∧
    after (.thermalTrip 15 1000) State.reset (fun t => t.pwr.tripped && t.get F.thmTriprecTj == 1000 && !t.domOn 1) = true := by
  decide +kernel

/-! ## The redundant pair -/

/-- A standby of a pair, with mirror lane 0 locked; a primary. -/
def standby0 : State :=
  let s := (((fld F.mirCtlEn 1).put F.mirCtlRole 1).put F.mirCfgLanes 1).put F.mirStatLock 1
  { s with mir := { s.mir with inSeq := 7, heard := true } }

def primary0 : State := { (fld F.mirCtlEn 1).put F.mirCtlRole 0 with mir := { MirSt.init with peerOn := true } }

theorem test_unpaired : State.reset.paired = false ∧
    ([Instr.mirrorWrite 0 0 0 0, .mirrorCommit 0 0 false 0 0, .mirrorResult 0 none 0 0, .mirrorFence 0 0 0 0,
      .mirrorPoseRecord 0 0 (List.replicate 64 0) 0, .mirrorTime 0 0, .mirrorFlatten 0 0 true, .mirrorHeartbeat 0 0 0,
      .heartbeatSend, .heartbeatMiss, .mirrorTimeSend, .swap 12 0, .mirrorLaneLockChange 0 true].all fun c => stays c State.reset) = true := by
  decide +kernel

theorem test_standby : standby0.standby = true ∧ standby0.mirrorLanes = [0] ∧ standby0.mirrorInject 0 = (standby0, none) ∧
    mirrored (Reg.layerCtl 1023) = true ∧
    after (.mirrorWrite 7 2 (Reg.layerCtl 1023) 1) standby0 (fun t => t.flag (F.layerCtlEn 1023) && t.mir.inSeq == 8) = true ∧
    after (.mirrorWrite 7 2 (Reg.tickCmask 0) 1) standby0 (fun t => t.cmask 2 == [0]) = true ∧
    after (.mirrorCommit 7 2 false 9 0) (standby0.wr (bank 2 (Reg.tickCmask 0)) 1) (fun t => t.mir.waiting.length == 1 && t.commits == 1) = true ∧
    after (.mirrorCommit 7 2 true 9 0) standby0 (fun t => t.time.armed.isSome) = true ∧
    after (.mirrorResult 7 none 0 0) standby0 (fun t => t.mir.inSeq == 8) = true ∧
    after (.mirrorResult 7 (some (2, 9)) 5 0) { standby0 with mir := { standby0.mir with waiting := [⟨some commit1, 0, 2⟩] } } (fun t =>
      t.get F.mirDivergePcode == 5 && t.flag F.mirEventMirDiverge) = true := by decide +kernel

theorem test_standby_takes : after (.mirrorFence 7 1023 5 0) standby0 (fun t => t.get (F.layerFenceValue 1023) == 5) = true ∧
    after (.mirrorPoseRecord 7 0 (List.replicate 64 0) 0) standby0 (fun t => (t.poseSrc 0).recs.length == 1) = true ∧
    after (.mirrorTime 7 1000) standby0 (fun t => t.mir.locked && t.now == 1000 + t.get F.mirStatOwd) = true ∧
    after (.mirrorFlatten 7 3 true) standby0 (fun t => t.mir.flat == [3]) = true ∧
    after (.mirrorHeartbeat 7 0 0) standby0 (fun t => t.flag F.mirStatPeer) = true := by decide +kernel

theorem test_pair : after .heartbeatSend primary0 (fun t => t.mir.outSeq == 1 && t.now == 100000) = true ∧
    after .heartbeatMiss (fld F.mirCtlEn 1) (fun t => t.get F.mirStatMissed == 1) = true ∧
    after .heartbeatMiss ((standby0.put F.mirStatMissed 2).put F.mirStatSync 1) (fun t => t.flag F.mirEventMirPeerlost &&
      t.mir.takeTick.isSome) = true ∧
    after (.swap 0 5) primary0 (fun t => t.flag F.mirEventSwapIgn) = true ∧
    after (.swap 0 5) ((primary0.put F.mirStatSync 1).put F.mirStatPeer 1) (fun t => t.mir.swapTick.isSome) = true ∧
    after (.swap 12 0) standby0 (fun t => t.flag F.mirCtlSwap) = true ∧
    after .mirrorTimeSend primary0 (fun t => t.mir.outSeq == 1) = true ∧
    after (.mirrorLaneLockChange 0 false) standby0 (fun t => t.get F.mirStatLock == 0 && t.flag F.mirEventMirLink) = true := by decide +kernel

/-! ## Dawn, resets, fault injection -/

theorem test_resets : after .porst (fld F.thmTriprecTripped 1) (fun t => t.pins.porst && t.rd Reg.bootRstcause == 1 &&
      !t.flag F.thmTriprecTripped) = true ∧
    after .resetPin (fld F.thmTriprecTripped 1) (fun t => t.pins.reset && t.rd Reg.bootRstcause == 2 && t.flag F.thmTriprecTripped) = true ∧
    stays .resetRelease State.reset = true ∧
    after .resetRelease { State.reset with pins := ⟨true, true, false, false⟩ } (fun t => t.rd Reg.bootRstcause == 1 && !t.pins.reset) = true ∧
    after (.aonUndervoltage true) State.reset (fun t => t.pins.undervolt) = true ∧ stays (.aonUndervoltage false) State.reset = true ∧
    after (.swreset 0 1) State.reset (fun t => t.rd Reg.bootRstcause == 4) = true ∧
    stays .perst { State.reset with pins := ⟨true, false, false, false⟩ } = true ∧
    after .perst linked (fun t => t.flag F.cxlEventLinkState && !t.flag F.cxlLinkL0 && t.pins.perst) = true := by decide +kernel

/-- The boot unit at a stage. -/
def booting (n : Nat) : State := { State.reset with boot := { BootSt.init with stage := n } }

theorem test_boot : after .cxlConfigReady State.reset (fun t => t.boot.cfgReady) = true ∧ stays (.bootHeaderRead []) State.reset = true ∧
    after (.bootHeaderRead []) (booting 1) (fun t => t.get F.bootStatusCause == 1 && t.boot.stage == 2) = true ∧
    stays (.bootImageChecked []) State.reset = true ∧
    ((booting 2).put F.bootStatusCause 1).get F.bootStatusCause = 1 ∧
    after (.xspiCommand 0 0x80000000) State.reset (fun t => t.flag F.bootXcmdBusy && t.out.length == 1) = true ∧
    stays (.xspiCommand 0 0x80000000) (fld F.bootXcmdBusy 1) = true ∧ stays (.xspiDone []) State.reset = true ∧
    after (.xspiDone (List.replicate 64 7)) ((fld F.bootXcmdBusy 1).put F.bootXcmdLen 64) (fun t => t.rd (Reg.bootXbuf 15) == 0x07070707 &&
      t.flag F.bootEventXspiDone) = true ∧
    after (.coreStart 0 8) State.reset (fun t => (t.mgmtOf 3).on) = true := by decide +kernel

theorem test_fences : after (.fenceSignal 0 1023 5) State.reset (fun t => t.get (F.layerFenceValue 1023) == 5) = true ∧
    after (.flush 0 2) { State.reset with surfaces := [⟨0, 1, [], (1920, 1080), 0, 1, true, false, false, 0, 16⟩] } (fun t =>
      t.surfaces.all fun x => !x.valid) = true ∧
    after (.finjLinkEnable 0 35 1) State.reset (fun t => Tbl.get (fun _ => 0) t.finj.gen 35 == 1) = true ∧
    stays (.finjHoldExpiry 35) State.reset = true := by decide +kernel

/-! ## Registers -/

theorem test_accesses : State.reset.writes 12 (Reg.layerAddrHi 5) ∨ State.reset.writes 0 (Reg.layerAddrHi 5) := by decide +kernel

theorem test_register_writes :
    after (.registerWrite 0 true (Reg.layerCtl 5) 15 1) State.reset (fun t => t.flag (F.layerCtlEn 5)) = true ∧
    after (.registerWrite 0 true (Reg.layerAddrLo 5) 15 9) State.reset (fun t => t.heldLo.length == 1) = true ∧
    after (.registerWrite 0 false Reg.tickTctl 15 0) State.reset (fun t => t.out == []) = true ∧
    after (.registerWrite 0 false 0x3FFFFFC 15 0) State.reset (fun t => t.lastRead == 0 && t.get F.topBadaccKind == 1) = true ∧
    after (.registerWrite 0 true (Reg.layerCtl 5) 7 1) State.reset (fun t => t.get F.topBadaccKind == 2 && !t.flag (F.layerCtlEn 5)) = true ∧
    after (.fenceSignal 9 0 5) State.reset (fun t => t.get (F.layerFenceValue 0) == 0) = true := by decide +kernel

theorem test_standby_writes : standbyBlocks (Reg.layerFence 5) = true ∧ standby0.access 0 true (Reg.layerFence 5) 15 = .ok ∧
    after (.fenceSignal 0 5 9) standby0 (fun t => t.get (F.layerFenceValue 5) == 0) = true := by decide +kernel

theorem test_step : (match step { State.reset with pending := [.ppsIn, .refLost] } with
      | .next t => t.pending == [.refLost]
      | _ => false) = true ∧
    (match step State.reset with
      | .next t => t.now == 1 && t.pending == []
      | _ => false) = true := by decide +kernel

/-! ## Further witnesses: forms and clauses that the tests above leave out -/

/-- Core 0 went on to the next instruction. -/
def went (c : Instr) (s : State) : Bool := after c s fun t => ((t.groupOf 0).coreOf 0).pc == 33 && ((t.groupOf 0).coreOf 0).wait == .none

/-- Layer 0 in key mode, and its key record at 0x200 of the program store, which the phase table names. -/
def keyed (w : Nat) : State :=
  let s := layerAt { LayerCfg.init with zblend := BitVec.ofNat 32 (4 * 2 ^ 11) } w
  ((s.wr64 (pstore 0 0) (0x200 * 2 ^ 32 + 2 ^ 50)).wr64 (pstore 0 0x200) (0x3C00 * 2 ^ 48)).wr64 (pstore 0 0x208) 0x10000

theorem witness_key : (keyed (word 0x38 5 0 0 0 0)).keyAt 0 band0 0 = some 0x200 ∧
    (value16 ((keyed 0).keyRec 0 0x200).hi).le (value16 ((keyed 0).keyRec 0 0x200).lo) = false ∧
    went (.key (.compose 0 0) false) (keyed (word 0x38 5 0 0 0 0)) = true := by decide +kernel

/-- A walk list whose one entry is a surface, a FILL layer or an encoded one. -/
def walking (w : Walk) (i : Nat) : State := coreSt core0 { band0 with walk := [w] } i

theorem witness_blend :
    ([{ walk0 LayerCfg.init with layer := none }, { walk0 LayerCfg.init with fill := true }, walk0 LayerCfg.init,
      walk0 { LayerCfg.init with zblend := 0x400 }].all fun w => went (.blend (.compose 0 0)) (walking w (word 0x40 4 0 0 0 0))) = true ∧
    ([1, 6, 9, 14].all fun n => went (.blend (.compose 0 0)) (coreAt (word 0x40 4 0 0 0 (n * 256)))) = true := by decide +kernel

theorem witness_luts : ([1, 2, 12].all fun n => (coreAt (word 0x48 5 0 0 n 0x1000)).tableError 0 0x1000 8192 false == none &&
    went (.lut (.compose 0 0) false) (coreAt (word 0x48 5 0 0 n 0x1000))) = true := by decide +kernel

/-- Core 0 stores, with `n` releases of its own before the head stage and a line open. -/
def storing (n : Nat) (l : Option StoreLine) : State :=
  let s := coreSt { core0 with line := l } band0 (word 0x50 0 1 0 0 0)
  s.setGroup 0 { s.groupOf 0 with stageQ := List.replicate n ⟨0, ⟨9, []⟩, false, band0.key⟩ }

theorem witness_store_lines : (storing 2 none).linesHeld 0 0 = 2 ∧ went (.bst (.compose 0 0)) (storing 1 none) = true ∧
    went (.bst (.compose 0 0)) (storing 2 (some ⟨0, []⟩)) = true ∧
    after (.bst (.compose 0 0)) (storing 2 none) (fun t => ((t.groupOf 0).coreOf 0).wait == .store) = true ∧
    after (.bst (.compose 0 0)) (storing 0 (some ⟨7, []⟩)) (fun t => (t.groupOf 0).stageQ.head? == some ⟨0, ⟨7, []⟩, false, band0.key⟩) = true := by
  decide +kernel

/-- The word that core 0 is to execute is in error. -/
def badWord (w : Nat) : State := (coreAt w).setGroup 0 { (coreAt w).groupOf 0 with badWords := [0x100] }

theorem witness_bad_word : after (.add (.compose 0 0)) (badWord (word 1 5 1 2 0 0)) (fun t => t.get (F.grpPaddrOffset 0) == 0x100 &&
      t.flag (F.grpEventPstoreParity 0) && !((t.groupOf 0).coreOf 0).on) = true ∧
    after (.add (.composeBad 0 0 0x100)) (coreAt (word 1 5 1 2 0 0)) (fun t => t.flag (F.grpEventPstoreParity 0)) = true ∧
    stays (.jal (.compose 0 0)) (coreAt 0) = true := by decide +kernel

theorem witness_swi : after (.swi (.compose 0 0)) (walking (walk0 { LayerCfg.init with ctl := 2 }) (word 0x31 0 0 0 0 0)) (fun t =>
    (t.scalerQ 0).length == 1) = true ∧
    went (.wait (.compose 0 0) true) (coreAt (word 0x32 0 0 0 0 1)) = true ∧
    went (.waitConditionMet (.compose 0 0) 3) (coreSt { core0 with wait := .unit 1, ins := word 0x32 0 0 0 0 1 } band0 0) = true := by
  decide +kernel

theorem witness_fetch : ((layerAt LayerCfg.init 0).present band0 (walk0 LayerCfg.init) &&
      ((layerAt LayerCfg.init 0).fetchNeeds core0 0 { band0 with walk := [walk0 LayerCfg.init] } (Ins.ofNat (word 0x30 5 0 0 0 0))).isEmpty &&
      went (.fetch (.compose 0 0) true false) (layerAt LayerCfg.init (word 0x30 5 0 0 0 0))) = true := by decide +kernel

/-- Head 0's surface is in rebuild, from band `n`. -/
def rebuilding (n : Nat) : State :=
  { State.reset.setHead 0 { HeadSt.init with cfg := hcfg } with
    surfaces := [⟨0, 1, [], (1920, 1080), 0x1000, 8, false, false, true, n, hcfg.bandLines⟩] }

theorem witness_rebuild : after (.bandStart 0) (rebuilding 0) (fun t => (t.groupOf 0).rebuild.isSome) = true ∧
    after (.bandComplete 0) ((rebuilding 0).setGroup 0 { GroupSt.init with rebuild := some { bandQ with surface := some 0x1000 } }) (fun t =>
      (t.groupOf 0).rebuild.isNone && (t.surfaces.map Surface.nextBand) == [1]) = true ∧
    after (.flattenDone 0) (rebuilding 68) (fun t => (t.surfaces.map Surface.valid) == [true] && t.flag F.fltStatFlattenDone) = true := by
  decide +kernel

theorem witness_release_gone : after (.headStageReleaseDone 0 1) (State.reset.setGroup 0 { GroupSt.init with
      stageQ := [⟨0, ⟨0, []⟩, false, (0, 1, 0, 0)⟩] }) (fun t => (t.groupOf 0).stageQ == []) = true ∧
    stays (.headStageReleaseDone 0 1) State.reset = true := by decide +kernel

/-- Head 0 has one band, of two columns, at a stage. -/
def banded (m : BandStage) : State :=
  let c : HeadCfg := { hcfg with htiming := BitVec.ofNat 32 (2200 + 65536 * 2) }
  State.reset.setHead 0 { HeadSt.init with bands := [{ bandQ with stage := m, cfg := c, lines := 1 }] }

theorem witness_deadlines : ([(BandStage.black, 1), (.safeFill, 2), (.complete, 0), (.running, 0)].all fun e =>
      after (.bandDeadline 0) (banded e.1) fun t => (t.headOf 0).bands == [] && (t.headOf 0).sent.length == 1 &&
        ((banded e.1).headOf 0).bands.map (fun b => b.sends.1) == [e.2]) = true ∧
    after (.bandDeadline 0) (banded .running) (fun t => t.get (F.headCountLatecnt 0) == 1 && t.flag (F.headEventBandLate 0)) = true ∧
    stays (.bandDeadline 0) State.reset = true ∧ stays (.frameLatch 127) { State.reset with part := .tx4064 } = true := by
  decide +kernel

theorem witness_scaler_start : after (.scalerBandStart 0) ((State.reset.setUnit 0 (some (sband 0))).setScalerQ 0 [sband 0]) (fun t =>
    t.scalerQ 0 == [] && t.unitOf 1 == some (sband 0)) = true := by decide +kernel

/-- The layer that `early0` shows, in host memory. -/
def earlyHost : State :=
  let c : LayerCfg := { LayerCfg.init with src := 1 }
  early0.setHead 0 { early0.headOf 0 with runs := (early0.headOf 0).runs.map fun r => { r with shown := [{ shown0 with own := c, cfg := c }] } }

theorem witness_early_host : ((earlyHost.earlyPlan 0 7).map fun e => e.2.host) = some true ∧
    after (.earlyFetchStart 0 7) earlyHost (fun t => (t.headOf 0).early.map (fun e => e.tick) == some 1) = true := by decide +kernel

/-- A validated structure awaits tick 1. -/
def armed1 : State :=
  (fld F.tickTstructStatPending 1).put F.tickTctlStructArm 1
theorem witness_armed : after .tickBoundary { armed1 with time := { TimeSt.init with armed := some ⟨TickStruct.init, 0, 1, false, true⟩ } }
    (fun t => t.time.armed == none && !t.flag F.tickTctlStructArm && !t.flag F.tickTstructStatPending) = true := by decide +kernel

theorem witness_commits : (reg (bank 2 (Reg.tickCmask 3)) (BitVec.ofNat 32 (2 ^ 31))).cmask 2 = [127] ∧
    (let s := { reg (bank 2 (Reg.tickCmask 3)) (BitVec.ofNat 32 (2 ^ 31)) with part := .tx4064 }
     after (.commit 2 7) s (fun t => t.commits == 0 && t.busy == none && t.get (bankFld 2 F.tickCstatSeq) == 7)) = true := by decide +kernel

/-- A master that has been heard before is followed, whatever its identity. -/
theorem witness_announce_heard : ∃ id, announceTakes ((announce id 0).map BitVec.toNat) = true ∧
    (let s : State := { ptpOn with time := { TimeSt.init with ptp := { PtpClock.init with
        foreign := [(ptpField ((announce id 0).map BitVec.toNat) 20 10, 4, 0)] } } }
     s.time.ptp.foreign.any fun f => f.1 == ptpField ((announce id 0).map BitVec.toNat) 20 10 && f.2.1 == 4 && s.now ≤ f.2.2 + 4 * pow2ns 0) = true := by
  obtain ⟨id, h⟩ := witness_announce
  exact ⟨id, h, by simp [State.now, TimeSt.init]⟩

theorem witness_delay_req : after (.delayReqSend 0) { up0.put F.tickPtpcfgPorts 1 with time := { TimeSt.init with ptp := { PtpClock.init with
    master := some [1], reqDue := some 0 } } } (fun t => t.time.ptp.reqDue == none && t.time.ptp.reqSeq == 1 && (t.sendingOf 0).isSome) = true := by
  decide +kernel

theorem witness_clocks : after .syncinEdge (((fld F.clkStatusRef100 1).put F.clkSyncinArm 1).put F.clkSyncinTarget 7) (fun t =>
      (t.clk.divReset.map Option.isSome) == [true, true, true]) = true ∧
    after .syncinEdge { ((fld F.clkStatusRef100 1).put F.clkSyncinArm 1).put F.clkSyncinTarget 4 with time := { TimeSt.init with ticked := true } }
      (fun t => t.flag F.clkSyncinIgnored) = true ∧
    (State.reset.writes 0 (Reg.clkHtbCfg 1) ∧ State.reset.writes 0 (Reg.clkHtbFrac 1) ∧ State.reset.writes 0 Reg.clkSyncin ∧
      State.reset.writes 0 Reg.clkCtl) ∧
    after (.htbCfgWrite 0 1 true 5) State.reset (fun t => t.rd (Reg.clkHtbFrac 1) == 5) = true ∧
    after (.restore 0 0) State.reset (fun t => !t.flag F.clkStatusFallback) = true ∧
    after (.restore 0 0) (fld F.clkStatusFallback 1) (fun t => t.flag F.clkStatusFallback) = true := by decide +kernel

theorem witness_flows : after (.flowEnable 0 255 7) State.reset (fun t => t.flag (F.netFlowCtlEn 255) && (t.flowOf 255).kind == 3) = true ∧
    after (.flowEnable 0 7 1) { State.reset with part := .tx4128, heads := [(0, { HeadSt.init with
      layers := [(3, { LayerCfg.init with ctl := 0x3, src := BitVec.ofNat 32 (2 + 7 * 65536) })] })] } (fun t => t.dram == []) = true := by
  decide +kernel

/-- A datagram of 18 bytes to 0.0.0.0, port 0x1000. -/
def udpFrame (lo hi : Byte) : List Byte :=
  List.replicate 12 0 ++ [8, 0, 0x45, 0, 0, 46, 0, 0, 0, 0, 64, 17, 0x7A, 0xC0] ++ List.replicate 8 0 ++ [0, 0, hi, lo, 0, 26, 0, 0] ++ List.replicate 18 0

/-- Port 0 is up, and link `k`'s injector acts on every unit. -/
def injected (s : State) (k act : Nat) : State :=
  (((s.put F.finjCtlEn 1).put (F.finjLinkCfgEn k) 1).put (F.finjLinkCfgRate k) 0xFFFF).put (F.finjLinkCfgAction k) act

theorem witness_frames : (match parseFrame ((udpFrame 0 0x10).map BitVec.toNat) true with | .udp u => u.dport == 0x1000 | _ => false) = true ∧
    after (.ethFrameReceive 0 (udpFrame 0 0x10) true) up0 (fun t => t.get (F.netPortDropCount 0) == 1) = true ∧
    after (.ethFrameReceive 0 (udpFrame 0x3F 1) true) (up0.put F.tickPtpcfgPorts 1) (fun t => t.get (F.netPortDropCount 0) == 0) = true := by
  decide +kernel

theorem witness_flow_frame : ((((up0.put (F.netFlowCtlEn 3) 1).put (F.netFlowCtlPorts 3) 1).put (F.netFlowUdpDport 3) 0x1000).flowFor 0
    ⟨none, 0, 0, 0, 0x1000, []⟩ false) = some 3 := by decide +kernel

theorem witness_injected_frames : (injected up0 16 0).injecting 16 = true ∧
    after (.ethFrameReceive 0 (udpFrame 0 0x10) true) (injected up0 16 0) (fun t => t.get (F.netPortDropCount 0) == 0) = true ∧
    after (.ethFrameReceive 0 (udpFrame 0 0x10) true) (injected up0 16 3) (fun t => t.finj.held.length == 1) = true := by decide +kernel

theorem witness_txs : ((fld (F.tspTxsEn 2) 1).put (F.tspTmpl0Hlen 0) 42).templateOk 0 = true ∧
    after (.txsSend 2) { ((fld (F.tspTxsEn 2) 1).put (F.tspTmpl0Hlen 0) 42).put (F.tspTxsMaxpay 2) 1400 with net := { NetSt.init with
      txq := [(2, 0, [0, 0, 0, 1, 0x26, 1, 5])] } } (fun t => Tbl.get (fun _ => 0) t.net.rtpSeq 2 == 1) = true := by decide +kernel

theorem witness_timeout : after (.videoFrameTimeout 3) { (fld (F.netFlowCtlLosspol 3) 1) with net := { NetSt.init with flows := [(3, { FlowSt.init with
      frame := some ⟨7, some 1, 0, 0, []⟩ })] } } (fun t => (t.flowOf 3).frame == none && t.get F.netEvstatFlow == 3 &&
        t.flag F.netEvstatFlowLoss) = true := by decide +kernel

/-- Source 2 holds sequence 0x102. -/
def posed (run : Nat) : State :=
  let s := (((poseOn 2).put F.poseNetcfgUdpport 0x1234).put F.poseNetcfgPorts 1).put (F.poseSrcStatValid 2) 1
  { s.put (F.poseSrcStatSeq 2) 0x102 with pose := { PoseSt.init with srcs := [(2, { PoseSrc.init with oosRun := run })] } }

theorem witness_pose_order : after (.poseDatagram 0 0 0x1234 record2) (posed 15) (fun t => t.get (F.poseSrcCountOos 2) == 1 &&
      (t.poseSrc 2).oosRun == 16) = true ∧
    after (.poseDatagram 0 0 0x1234 record2) (posed 16) (fun t => t.get (F.poseSrcBadResync 2) == 1 &&
      t.get (F.poseSrcCountAccept 2) == 1) = true ∧
    after (.poseDatagram 0 0 0x1234 (record2 ++ [1])) (posed 0) (fun t => t.get (F.poseSrcBadMalf 0) == 1) = true ∧
    after (.poseDatagram 0 0 0x1234 (64 :: record2.tail)) (posed 0) (fun t => t.get (F.poseSrcBadMalf 0) == 1) = true := by decide +kernel

/-- Window 1 grants the first 64 KiB of host memory to agents 0 to 4. -/
def hostWin (s : State) : State := (s.wr (Reg.protWinCfg 1) 0xF807F).wr (Reg.protWinSize 1) 1

/-- The blitter's ring is in host memory. -/
def bltHostRing : State := hostWin ((bltSt fillDesc).put F.bltCtlRingmem 1)

theorem witness_blt : bltHostRing.bltAccess false 1 0 64 = none ∧
    after .bltDescriptorStart bltHostRing (fun t => t.blt.desc == none && !t.flag F.bltStatusHalted && t.cxl.reads.length == 1) = true ∧
    after .bltDescriptorStart ((bltSt fillDesc).wr (Reg.protWinCfg 0) 0) (fun t => t.flag F.bltStatusHalted && t.get F.bltStatusErrcode == 5) = true ∧
    after .bltRowComplete ((bltRun true).wr (Reg.protWinCfg 0) 0) (fun t => t.flag F.bltStatusHalted && t.dram == (bltRun false).dram) = true ∧
    after .bltRowComplete ((bltRun true).put F.bltWatermarkRows 1) (fun t => t.flag F.bltEventBltWatermark) = true := by decide +kernel

theorem witness_dram : after (.dramReadRequest 28 0x40 1) frozen0 (fun t => t.dmc.reply == some (28, 0x40, List.replicate 64 0, true)) = true ∧
    (portSector 0 = some (State.reset.regionOf 0x40) ∧ portSector 0 ≠ some (State.reset.regionOf (State.reset.regionSize))) ∧
    after (.dramReadRequest 0 State.reset.regionSize 1) State.reset (fun t =>
      (t.xbarOf (t.regionOf State.reset.regionSize)).waiting.length == 1) = true ∧
    after (.dramSchedule 0 [] 0 0) (chan0 { DmcCh.init with writes := [⟨28, 0x40, 2, 5, 0, 3, []⟩] }) (fun t => (t.chanOf 0).writes == []) = true ∧
    after (.dramSchedule 0 [] 28 0) ((chan0 { DmcCh.init with burst := true }).put (F.dmcChStatusOwed 0) 6) (fun t =>
      (t.chanOf 0).pair == 1 && t.get (F.dmcChStatusOwed 0) == 5 && (t.chanOf 0).burst) = true ∧
    stays (.dramSchedule 0 [] 28 0) State.reset = true := by decide +kernel

/-- Thirty-two writes wait in channel 0. -/
def fullCh : State := chan0 { DmcCh.init with writes := (List.range 32).map fun n => ⟨28, 0x100000 + 64 * n, 2, 5, n, 3, []⟩ }

theorem witness_full_queue : State.reset.channelOf 0x40 < 16 ∧
    (let n := State.reset.channelOf 0x40
     let s := { State.reset with dmc := { DmcSt.init with chans := [(n, (fullCh.chanOf 0))] } }
     after (.dramWriteRequest 28 0x41 [1]) s (fun t => t.dram == [] && (t.chanOf n).writes.length == 33)) = true := by decide +kernel

theorem witness_refresh : after (.refreshDue 0) ((chan0 { DmcCh.init with burst := true }).put (F.dmcChStatusOwed 0) 5) (fun t =>
      t.get (F.dmcChStatusOwed 0) == 6 && (t.chanOf 0).pair == 0) = true ∧
    (let c : DmcCh := { DmcCh.init with reads := [⟨3, 0x40, 0, 5, 0, 0, [9]⟩, ⟨3, 0x40, 8, 5, 0, 0, [9]⟩] }
     c.pairFree = false ∧ after (.refreshDue 0) (chan0 c) (fun t => t.get (F.dmcChStatusOwed 0) == 1 && (t.chanOf 0).pair == 0) = true) ∧
    after (.mr4Read 0 false) (fld (F.dmcChStatusHot 0) 1) (fun t => !t.flag (F.dmcChStatusHot 0) && t.flag (F.dmcChEventTempHigh 0)) = true ∧
    stays (.selfRefreshEntry 0) ((fld F.dmcCtlSren 0)) = true ∧
    after (.selfRefreshEntry 0) ((fld F.dmcCtlSren 1).put F.tickLatminUs 1) (fun t => !t.flag (F.dmcChStatusSelfref 0)) = true := by decide +kernel

theorem witness_set_points : after (.freqRequest 0 2) State.reset (fun t => t.dmc.change == some (0, 0, false)) = true ∧
    after (.freqRequest 0 3) (fld F.dmcCtlDlyvalid1 0) (fun t => t.flag (F.dmcChEventFreqReject 0)) = true ∧
    ((changing (some (0, 64)) false).dmc.change = some (1, 0, false) ∧ (changing (some (0, 64)) false).dmc.capture = some (0, 64)) ∧
    State.reset.freqReady = true := by decide +kernel

/-- Layer reads apart, what else may be outstanding. -/
def cxlWrite5 (u : CxlUse) : State := { linked with cxl := { CxlSt.init with writes := [⟨5, 0x4000, u, 0, 0⟩] } }

theorem witness_cxl : cxlTrains 8 2 = true ∧ cxlTrains 5 2 = false ∧ stays (.linkState true 5 2) State.reset = true ∧
    after (.linkState true 8 2) State.reset (fun t => t.get F.cxlLinkWidth == 8 && t.flag F.cxlEventCxlDegraded) = true ∧
    after (.cxlReadCompletion 5 0 []) (cxlWrite5 (.writeback 3)) (fun t => t.cxl.writes == []) = true ∧
    after (.cxlCompletionTimeout 5) (cxlWrite5 (.writeback 3)) (fun t => t.get F.cxlRderrKind == 1 && t.flag F.cxlEventCxlRderr) = true ∧
    after (.cxlReadCompletion 5 2 []) { cxlWrite5 .blitter with blt := { BltSt.init with desc := some fillDesc } } (fun t =>
      t.get F.cxlRderrKind == 2 && t.flag F.bltStatusHalted && t.get F.bltStatusErrcode == 6) = true ∧
    after (.cxlCompletionTimeout 7) { linked with dma := ⟨[], [(15, 0x1000, 7, 3)], 0, 0⟩ } (fun t => t.flag F.dmaStatusHalted &&
      t.get F.dmaErrCause == 2 && t.get F.dmaErrCh == 15) = true ∧
    after (.cxlCompletionTimeout 0) { State.reset with dma := ⟨[], [(15, 0x1000, 7, 3)], 0, 0⟩ } (fun t => t.get F.dmaErrCause == 5 &&
      t.get F.dmaErrCh == 15) = true := by decide +kernel

/-- A layer's reference record is being read with tag 5. -/
def record5 : State :=
  { linked with
    layers := [(9, { LayerRt.init with refFrom := some 0x4000 })]
    cxl := { CxlSt.init with reads := [⟨5, 0x4000, .record, true, 0, 9, 0, (0, 1, 0, 0), false, 0, 0⟩] } }

theorem witness_record : after (.cxlReadCompletion 5 0 [7]) record5 (fun t => (t.layerRt 9).refFrom == none &&
    ((t.layerRt 9).ref.map fun r => r.head?) == some (some 7)) = true := by decide +kernel

theorem witness_host_memory : window.granted 4 false 0 8 4 = true ∧ window.localDead 8 4 = false ∧ window.meetsFlatten 8 4 = false ∧
    after (.hostMemRead (2 ^ 28 + 8) 2) ((window.put F.dmcStatusFrozen 1)) (fun t => t.flag F.cxlEventHdmPoison &&
      t.out == [.completion (2 ^ 28 + 8) [0, 0] true]) = true ∧
    after (.hostMemWrite (2 ^ 28 + 8) [1]) (window.wr (Reg.protWinCfg 0) 0) (fun t => t.dram == [] && t.get F.protViolAgent == 4) = true := by decide +kernel

theorem witness_dma_start : after (.dmaDescriptorStart 15) ((dmaSt dmaFillDesc).put (F.dmaChCfgRingmem 15) 1) (fun t =>
      t.dma.reads == [(15, 0, 0, 1)]) = true ∧
    after (.dmaDescriptorStart 15) ((dmaSt dmaFillDesc).wr (Reg.protWinCfg 0) 0) (fun t => t.get (F.dmaChStatusErrcode 15) == 4) = true ∧
    after (.dmaDescriptorStart 15) ((dmaSt dmaFillDesc).put F.dmcStatusFrozen 1) (fun t => t.get F.dmaErrCause == 4 && t.flag F.dmaStatusHalted) = true ∧
    (∀ k < 16, k ≠ 15 → (dmaRun dmaFillDesc false 0 0 []).dmaWants k = false) := by decide +kernel

/-- FILL as above, to host memory. -/
def dmaHostFill : List Nat := 0x19 :: dmaFillDesc.tail

theorem witness_dma_host : dmaDstMem dmaHostFill = 1 ∧
    after (.dmaFill 15) { dmaRun dmaHostFill false 0 0 [] with regs := (hostWin ((dmaSt dmaFillDesc).put F.cxlLinkL0 1)).regs } (fun t =>
      t.out.length == 2 && (t.dmaCh 15).flushed == some false && t.dram == (dmaSt dmaHostFill).dram) = true ∧
    stays (.dmaReadCompletion 15 0 []) (dmaRun dmaCopyDesc true 1 0 [(15, 0x100, 0, 3)]) = true ∧
    after (.dmaReadCompletion 15 0 [1, 2, 3, 4, 5, 6, 7, 8]) { dmaRun dmaCopyDesc true 1 0 [(15, 0x100, 0, 3)] with
      regs := ((dmaSt dmaFillDesc).put F.cxlLinkL0 1).regs } (fun t => t.dramRead 0x200 4 == [5, 6, 7, 8]) = true ∧
    after (.dmaReadCompletion 15 2 []) { dmaRun dmaCopyDesc true 1 0 [(15, 0x100, 0, 3)] with
      regs := ((dmaSt dmaFillDesc).put F.cxlLinkL0 1).regs } (fun t => t.get F.dmaErrCause == 2 && t.flag F.dmaStatusHalted) = true ∧
    after (.dmaReadCompletion 15 0 (dmaFillDesc.map (BitVec.ofNat 8))) { ((dmaSt dmaFillDesc).put F.cxlLinkL0 1).put (F.dmaChCfgRingmem 15) 1 with
      dma := ⟨[], [(15, 0, 0, 1)], 0, 0⟩ } (fun t => t.flag (F.dmaChStatusBusy 15)) = true ∧
    after (.dmaReadCompletion 15 0 []) { dmaRun dmaHostFill true 0 1 [(15, 0x202, 0, 2)] with
      regs := ((dmaSt dmaFillDesc).put F.cxlLinkL0 1).regs, dma := ⟨[(15, ⟨some dmaHostFill, 0, true, 0, 1, some false⟩)], [(15, 0x202, 0, 2)], 0, 0⟩ }
      (fun t => t.dmaDone 15 dmaHostFill) = true := by decide +kernel

theorem witness_contexts : after (.cdcContextEnable 0 31 0x2F001) (reg (Reg.cdcCtxCfg 31 + 4) 0x00400040) (fun t =>
      t.flag (F.cdcCtxCfgEn 31) && (t.ctxOf 31).nout == 2 && (t.ctxOf 31).prev == 1) = true ∧
    after (.cdcPipePick 1) (cdcSt (ctx0 false none false) none) (fun t => t.cdc.pipes.getD 0 none == some 31) = true ∧
    stays (.cdcResume 0 31 0x200) State.reset = true := by decide +kernel

/-- DECODE with a parameter block of ten words at 0x1000, which holds `words8`. -/
def decDesc8 : List Nat := (decDesc.set 9 0x10).set 16 40

def decoding8 : State :=
  let s := cdcSt (ctx0 false (some decDesc8) false) (some 31)
  { s with dram := Mem.writeBytes dramDefault s.dram 0x1000 ((words8.flatMap (bytesLE 4)).map (BitVec.ofNat 8)) }

theorem witness_pictures : pictureOutside pic8 (ctx0 false none false) = false ∧
    (decoding8.decoded (decoding8.ctxOf 31) decDesc8 0 [] form8 window8 []).toCodedForm = pic8.toCodedForm ∧
    after (.cdcDecode 0 5 [] form8 window8 []) decoding8 (fun t => t.get (F.cdcCtxStatusErrcode 31) == 5) = true ∧
    ((ctx0 true (some decDesc) false).input decDesc).granules.any (fun g => ((ctx0 true (some decDesc) false).got.lookup g).isNone) = false := by
  decide +kernel

theorem witness_returns : after (.status 0 (ret 9 0 0 [0, 0])) lane0 (fun t => t.get (F.wlkLaneCtrlerrBad 0) == 1) = true ∧
    stays (.credit 0 (ret 1 2 3 [0x58, 0xD9])) (lane0.put (F.wlkLaneStatTrained 0) 0) = true ∧
    after (.laneDisable 0 0 1) lane0 (fun t => t.flag (F.wlkLaneCfgEn 0)) = true ∧
    after (.laneEnable 0 3 0) State.reset (fun t => !t.flag (F.wlkLaneCfgEn 3)) = true := by decide +kernel

/-- The first band of a sub-frame of one line of 16 pixels, and its port with a pitch. -/
def wbAt (last : Bool) : State :=
  let s := hostWin (State.reset.setHead 0 { HeadSt.init with cfg := hcfg, sent := [{ sent0 with cfg := { hcfg with htiming := 0x00100898 }, started := true, last := last }] })
  { s with wb := [(15, ⟨⟨0x1001, 0, 0, 256, 0⟩, 0, false, none, none, []⟩)] }

theorem witness_writeback : (wbAt true).windowGrants 0 true 0 0 16 = true ∧ (wbAt true).localDead 0 16 = false ∧
    after (.writebackBand 15 true) (wbAt true) (fun t => t.flag (F.fltWbStatusWbDone 15) && !t.flag (F.fltWbStatusIncomplete 15)) = true ∧
    after (.writebackBand 15 true) (wbAt false) (fun t => (t.wbOf 15).due == some (1, 0, 0)) = true := by decide +kernel

theorem witness_packets : after (.bandPacketStart 0) ((lane0.put (F.headRbctlArm 0) 1).setHead 0 { HeadSt.init with sent := [sent0] }) (fun t =>
      ((t.headOf 0).capture.map Prod.fst) == some 1) = true ∧
    after (.bandPacketStart 0) ((injected lane0 0 0).setHead 0 { HeadSt.init with sent := [sent0] }) (fun t => (t.headOf 0).capture == none) = true ∧
    after (.readbackArm 0 127 3) State.reset (fun t => !t.flag (F.headRbctlArm 127)) = true := by decide +kernel

theorem witness_absent_domain : State.reset.part.domainPresent 83 = true ∧
    (let s := { State.reset with part := .tx4032 }
     s.part.domainPresent 12 = false ∧ after (.domainRequest 0 0 0xFFFFFFFF) s (fun t => t.get ⟨Reg.icuPending 29, 22, 1⟩ == 1) = true) ∧
    after .domainChange ((State.reset.put ⟨Reg.pwrDomctl 1, 61 % 32, 1⟩ 0)) (fun t => t.domOn 61) = true ∧
    after .domainChange (State.reset.put ⟨Reg.pwrDomctl 1, 61 % 32, 1⟩ 0) (fun t => t.flag F.pwrStatusDombusy) = true := by decide +kernel

theorem witness_midnight : after .midnightEntryDone { power 2 false with pwr := { PwrSt.init with wakePend := true } } (fun t =>
      t.get F.pwrStatusState == 4) = true ∧
    after (.gpioWake 15) ((power 2 false).put F.pwrWakecfgGpio 0x8000) (fun t => t.pwr.wakePend) = true ∧
    after (.midnightEnter 0 2) (power 3 false) (fun t => t.get F.pwrStatusState == 4) = true ∧
    stays (.midnightEnter 0 0) State.reset = true ∧
    after .wakeRestore ((power 4 false).put F.pwrWakevecAddr 0x1000) (fun t => (t.mgmtOf 0).pc == 0x1000) = true := by decide +kernel

theorem witness_energy : after (.energyBucketUpdate 0x1000) { fld F.pwrStatusState 1 with pwr := { PwrSt.init with energy := 0 } } (fun t =>
      t.get F.pwrNoonExitcause == 1) = true ∧
    after (.energyBucketUpdate 0) { fld F.pwrStatusState 1 with pwr := { PwrSt.init with noonPend := some false, bucketAt := 1500 } } (fun t =>
      t.get F.pwrStatusState == 0 && t.flag F.pwrEventNoonChange) = true ∧
    after (.sensorSample (List.replicate 4 1201 ++ List.replicate 12 (-320))) State.reset (fun t => t.get F.thmStatusStage == 3) = true := by
  decide +kernel

theorem witness_mirror_order : stays (.mirrorFence 6 0 5 0) standby0 = true ∧
    after (.mirrorFence 9 0 5 0) (standby0.put F.mirStatSync 1) (fun t => t.mir.inSeq == 10 && !t.flag F.mirStatSync &&
      t.flag F.mirEventMirDesync) = true ∧
    (((standby0.put F.mirCtlRole 0).paired && !(standby0.put F.mirCtlRole 0).standby) = true ∧
      after (.mirrorFence 7 0 5 0) (standby0.put F.mirCtlRole 0) (fun t => t.get (F.layerFenceValue 0) == 0 && t.mir.inSeq == 8) = true) := by decide +kernel

theorem witness_mirror_drop : ∃ u p code, (injected standby0 24 0).mirrorInject 0 = (u, some (p, 0, code)) ∧ u.finj.held = [] := by
  have l : (injected standby0 24 0).mirrorLanes = [0] := by decide +kernel
  have i : (([0] : List Nat).any fun n => (injected standby0 24 0).injecting (24 + n) &&
      (injected standby0 24 0).get (F.finjLinkCfgDir (24 + n)) == 0) = true := by decide +kernel
  have d : (injected standby0 24 0).tick.get (F.finjLinkCfgDir 24) = 0 := by decide +kernel
  refine ⟨((injected standby0 24 0).tick.inject 24).1, 24, finjDraw 0 / 65536, ?_, by decide +kernel⟩
  simp only [State.mirrorInject, l, i, if_true, List.length_singleton, Nat.mod_one, List.getD_cons_zero, Nat.add_zero, d]
  exact Prod.ext rfl (by decide +kernel)

theorem witness_mirror_pairs : (rwPairLo (Reg.layerAddrLo 5) && mirrored (Reg.layerAddrLo 5)) = true ∧
    after (.mirrorWrite 7 2 (Reg.layerAddrLo 5) 0x1000) standby0 (fun t => t.heldLo.length == 1 && t.regs == standby0.regs) = true ∧
    after (.mirrorWrite 7 2 (Reg.layerAddrHi 5) 1) { standby0 with heldLo := halfSet [] (halfKey 2 (Reg.layerAddrLo 5)) 0x1000 } (fun t =>
      t.rd (Reg.layerAddrLo 5) == 0x1000 && t.rd (Reg.layerAddrHi 5) == 1) = true ∧
    stays (.mirrorWrite 7 2 (Reg.icuPending 0) 1) { standby0 with mir := { standby0.mir with inSeq := 9 } } = true := by decide +kernel

theorem witness_mirror_results : after (.mirrorResult 7 (some (2, 9)) 0 0) { standby0 with mir := { standby0.mir with
      waiting := [⟨some commit1, 0, 2⟩] } } (fun t => t.accepted == [commit1] && t.mir.waiting == []) = true ∧
    after (.mirrorPoseRecord 7 0 (List.replicate 64 0) 0) { standby0 with time := { TimeSt.init with devtime := 0x100000 } } (fun t =>
      t.flag F.mirEventMirPlate) = true ∧
    after (.mirrorTime 7 0) { standby0 with mir := { standby0.mir with locked := true } } (fun t => t.now == 0) = true ∧
    after (.mirrorCommit 7 2 false 9 0) standby0 (fun t => t.mir.waiting == []) = true := by decide +kernel

theorem witness_beats : after .heartbeatMiss (primary0.put F.mirStatMissed 3) (fun t => t.get F.mirStatMissed == 3) = true ∧
    after .heartbeatMiss ((standby0.put F.mirStatMissed 2).put F.mirStatSync 0) (fun t => t.mir.takeTick == none) = true ∧
    after (.swap 0 1) State.reset (fun t => t.flag F.mirCtlEn && t.flag F.mirStatSync) = true ∧
    after (.swap 0 0) primary0 (fun t => !t.flag F.mirCtlEn) = true ∧
    stays (.swap 12 0) { primary0 with mir := { primary0.mir with swapTick := some 5 } } = true ∧
    stays (.mirrorLaneLockChange 3 true) standby0 = true := by decide +kernel

/-- Head 0 transmits, and is the reference of the pair's heartbeats; the last one has been answered. -/
def beating : State :=
  (primary0.setHead 0 { HeadSt.init with cfg := hcfg }).put (F.headStatusState 0) 1

theorem witness_settled : ({ beating with mir := { beating.mir with hbDone := true } }).beatSettled = true ∧
    beating.transmitting 0 = true ∧ stays .heartbeatSend beating = true := by decide +kernel

theorem witness_resets : after .resetPin { State.reset with pins := ⟨true, false, false, false⟩ } (fun t => t.pins.reset && t.pins.porst) = true ∧
    after .resetRelease { State.reset with pins := ⟨false, true, false, false⟩ } (fun t => t.rd Reg.bootRstcause == 2) = true ∧
    after (.aonUndervoltage false) { State.reset with pins := ⟨false, false, false, true⟩ } (fun t => t.rd Reg.bootRstcause == 1) = true := by
  decide +kernel

/-- An image of 128 bytes with a header of its own, whose check word is the given one. -/
def imageHdr (check : List Nat) : List Nat := [0x54, 0x58, 0x43, 0x49, 0, 0, 1, 0, 128, 0, 0, 0, 0, 0, 0, 0, 1, 0, 0, 0] ++ List.replicate 40 0 ++ check

theorem witness_image : headerCause (imageHdr [0, 0, 0, 0]) = 0 ∧
    after (.bootHeaderRead ((imageHdr [0, 0, 0, 0]).map (BitVec.ofNat 8))) (booting 1) (fun t => t.get F.bootStatusCause == 0 &&
      t.rd Reg.bootImglen == 0 && hdrLength t.boot.header == 128) = true := by decide +kernel

theorem witness_flash : after (.xspiCommand 0 0) State.reset (fun t => !t.flag F.bootXcmdBusy && t.out == []) = true ∧
    after (.coreStart 0 0) State.reset (fun t => !(t.mgmtOf 3).on) = true := by decide +kernel

/-- A received frame, or a pose frame, is held on its link. -/
def holding (k : Nat) (c : Instr) : State := { State.reset with finj := { gen := [], held := [(k, 0, c)], heldMsg := [] } }

theorem witness_held : (holding 16 (.ethFrameReceive 0 [] true)).heldSince 16 = some 0 ∧
    after (.finjHoldExpiry 16) (holding 16 (.ethFrameReceive 0 (etherFrame 8 6) true)) (fun t => t.finj.held == []) = true ∧
    after (.finjHoldExpiry 28) (holding 28 (.serialPoseFrame 0 [] (64 :: record2.tail) false)) (fun t => t.finj.held == []) = true ∧
    after (.finjLinkEnable 0 35 0) (fld (F.finjLinkCfgEn 35) 1) (fun t => !t.flag (F.finjLinkCfgEn 35)) = true := by decide +kernel

/-- The configuration space of function 0, which agent 4 reaches. -/
theorem witness_accesses : pcieFunc pcieBase = 0 ∧
    after (.registerWrite 4 false pcieBase 15 0) { State.reset with boot := { BootSt.init with cfgReady := true } } (fun t => t.out == []) = true ∧
    stays (.registerWrite 4 false pcieBase 15 0) State.reset = true ∧
    after (.registerWrite 5 false pcieBase 15 0) State.reset (fun t => t.out.length == 1) = true ∧
    after (.registerWrite 0 false (Reg.icuTgtClaim 7) 15 0) pend1020 (fun t => t.rd (Reg.icuPending 31) == 0) = true ∧
    (State.reset.access 0 false Reg.netIbuf 15 = .ok ∧ State.reset.access 0 false (Reg.wlkLaneFec 15) 15 = .ok) ∧
    after (.registerWrite 0 true (Reg.layerAddrHi 5) 15 1) { State.reset with heldLo := halfSet [] (halfKey 0 (Reg.layerAddrLo 5)) 0x1000 } (fun t =>
      t.rd (Reg.layerAddrLo 5) == 0x1000 && t.heldLo == []) = true ∧
    after (.registerWrite 0 false (Reg.tickPpsinLo + 4) 15 0) { State.reset with capHi := halfSet [] (halfKey 0 (Reg.tickPpsinLo + 4)) 6 } (fun t =>
      t.capHi == []) = true := by decide +kernel

theorem witness_exceptions : (mgAt mg 0).place 0 0x40050000 4 = .reg 0x50000 ∧ (mgAt mg 0).place 0 0x300000 8 = .none ∧
    (mgAt mg 0).place 0 0x1000000000 8 = .dram 0 ∧
    mgAfter (.ld (.mgmt 0)) (mgAt mg (word 0x72 5 3 0 0 0x50000)) (fun m => m.cause == 4) = true ∧
    mgAfter (.ld (.mgmt 0)) (mgAt mg (word 0x72 5 3 0 3 0x50004)) (fun m => m.cause == 2) = true ∧
    mgAfter (.st (.mgmt 0)) ((mgAt mg (word 0x73 0 4 2 3 0)).wr (Reg.protWinCfg 0) 0) (fun m => m.cause == 3 && m.badaddr == 0x1000000000) = true ∧
    mgAfter (.ld (.mgmt 0)) ((mgAt mg (word 0x72 5 4 0 3 0)).wr (Reg.protWinCfg 0) 0) (fun m => m.cause == 3) = true := by decide +kernel

/-! ## Clocks that stand, device in reset, Midnight and trip -/

/-- The clock has died; RESET_N is low. -/
def stopped : State := { State.reset with clk := { State.reset.clk with dead := true } }

def inReset : State := { State.reset with pins := ⟨false, true, false, false⟩ }

theorem witness_still : stopped.still = true ∧ inReset.still = true ∧ inReset.held = true ∧
    ([Instr.tickBoundary, .ppsOut, .ppsOutFall, .shutsyncPulseBegin 0, .shutsyncPulseEnd 7].all fun c => stays c stopped) = true ∧
    ([Instr.mdllLock, .cxlConfigReady, .perst].all fun c => stays c inReset) = true ∧
    stays (.bootHeaderRead []) { booting 1 with pins := ⟨false, false, false, true⟩ } = true ∧
    stays (.bootImageChecked []) { booting 2 with pins := ⟨true, false, false, false⟩ } = true := by decide +kernel

theorem witness_unreached : after (.registerWrite 5 false 0 15 0) State.reset (fun t => t.out.length == 1 && t.lastRead == 0) = true ∧
    after (.registerWrite 4 true 0x3FFFFFC 15 0) { State.reset with boot := { BootSt.init with cfgReady := true } } (fun t =>
      t.get F.topBadaccKind == 1) = true := by decide +kernel

/-- Midnight or wake after a trip. -/
def tripped (st : Nat) (restored : Bool) : State := { power st restored with pwr := { (power st restored).pwr with tripped := true } }

theorem witness_tripped : stays .midnightEntryDone (tripped 2 false) = true ∧ stays .wakeRestore (tripped 4 false) = true ∧
    stays .wakeComplete (tripped 4 true) = true ∧ stays .domainChange (tripped 0 false) = true ∧
    stays (.gpioWake 0) ((tripped 3 false).put F.pwrWakecfgGpio 1) = true ∧ stays (.midnightWake 0 2) (tripped 3 false) = true := by
  decide +kernel

theorem witness_domain_signal : after .domainChange (fld F.pwrStatusDombusy 1) (fun t => !t.flag F.pwrStatusDombusy &&
      t.flag F.pwrEventPwrDomain) = true ∧
    after .midnightEntryDone ((power 2 false).put (F.icuTgtStatLine 7) 1) (fun t => !t.flag (F.icuTgtStatLine 7)) = true ∧
    (power 4 false).frozen = false := by decide +kernel

/-- Work is queued, Noon is enabled and the bucket is full. -/
def noonReady : State := (fld F.fltStatPending 1).put F.pwrNoonEn 1

theorem witness_noon : noonReady.noonFails = 0 ∧
    after (.energyBucketUpdate 0) noonReady (fun t => t.pwr.noonPend == some true && t.noonFails == 0) = true ∧
    after (.energyBucketUpdate 0) (fld F.pwrStatusState 1) (fun t => t.get F.pwrNoonExitcause == 3 && t.pwr.noonPend == some false) = true := by
  decide +kernel

/-! ## Lanes and the pair -/

theorem witness_lane_forms : after (.laneEnable 0 3 7) State.reset (fun t => (t.laneOf 3).media && (t.laneOf 3).precode &&
      !t.flag (F.wlkLaneStatTrained 3)) = true ∧
    after (.laneEnable 0 0 7) lane0 (fun t => t.flag (F.wlkLaneCfgMedia 0) && !(t.laneOf 0).media) = true ∧
    after (.laneDisable 0 3 6) State.reset (fun t => (t.laneOf 3).media && !t.flag (F.wlkLaneCfgEn 3)) = true ∧
    slotCell 0x22 6 = 9 := by decide +kernel

theorem witness_pair_starts : after (.mirrorFence 40 0 5 0) { standby0 with mir := { standby0.mir with heard := false } } (fun t =>
      t.mir.inSeq == 41 && t.flag F.mirStatSync == standby0.flag F.mirStatSync) = true ∧
    after (.mirrorFence 3 0 5 0) { standby0 with mir := { standby0.mir with lost := true } } (fun t => t.mir.inSeq == 4 &&
      t.flag F.mirEventMirDesync) = true ∧
    after (.mirrorWrite 7 2 (Reg.headCtl 127) 1) (standby0.put ⟨Reg.pwrDomstat 0, 28, 1⟩ 0) (fun t => t.get F.pwrOffaccDomain == 28 &&
      !t.flag (F.headCtlEn 127)) = true ∧
    after (.mirrorFlatten 7 0 true) { standby0 with surfaces := [⟨0, 1, [], (1920, 1080), 0, 1, true, false, false, 0, 16⟩] } (fun t =>
      t.surfaces.all Surface.inUse) = true ∧
    after (.mirrorCommit 7 2 false 9 0) (standby0.wr (bank 2 (Reg.tickCmask 0)) 1) (fun t => t.mir.waiting.length == 1) = true := by
  decide +kernel

theorem witness_peer_swaps : after (.swap 12 9) { standby0 with mir := { standby0.mir with swapTick := some 5 } } (fun t =>
      t.mir.inSeq == 8 && t.mir.swapTick.isSome && t.flag F.mirCtlSwap) = true ∧
    after (.swap 12 9) { standby0 with mir := { standby0.mir with takeTick := some 5 } } (fun t => t.mir.inSeq == 8 &&
      t.mir.swapTick == none) = true ∧
    after (.swap 0 3) State.reset (fun t => t.flag F.wlkCtlStandby && !t.flag F.mirStatSync) = true ∧
    after (.swap 0 0) { primary0 with mir := { primary0.mir with swapTick := some 5 } } (fun t => t.mir.swapTick == none) = true ∧
    primary0.pairedPrimary = true := by decide +kernel

/-! ## The other units -/

theorem witness_blt_rows : stays .bltRowComplete (bltRun false) = true ∧ (bltRun true).bltMissing fillDesc 0 = [] ∧ bltDstMem fillDesc = 0 ∧
    (bltRun true).writing .blitter = false ∧ (bltRun true).bltReadError 0 (fun _ => false) fillDesc 0 = none := by decide +kernel

theorem witness_dma_reset : stays .dmaResetDone { fld F.dmaCtlReset 1 with dma := { DmaSt.init with reads := [(0, 0, 0, 0)] } } = true ∧
    stays (.traincapStart 0 0x100000) frozen0 = true ∧
    after (.traincapStart 0 1) frozen0 (fun t => !t.flag F.dmcTraincapBusy) = true := by decide +kernel

/-- Port 0 has begun a frame, and a thousand bit-times and more have passed. -/
def serialLate : State :=
  { serial0.elapse 1000000 with pose := { PoseSt.init with partRx := [(0, [0xA5, 0x5A])] } }

theorem witness_serial_late : after (.serialPoseFrame 0 [] [7] false) serialLate (fun t => t.flag (F.poseSerStatSyncloss 0) &&
      t.serPart 0 == []) = true := by decide +kernel

theorem witness_no_pixels : State.reset.net.pixDue = [] ∧ State.reset.portUp 0 = false := by decide +kernel

end Sys2Proof.Tests
end

/-! ## Every command completes (O54) -/

section
namespace Sys2Proof.Machine

/-- Every arm of `exec` ends in `State.done`: it refuses nothing and faults nowhere. -/
theorem exec_eq_done (c : Instr) (s : State) : ∃ u, exec c s = s.done u := by
  cases c <;> exact ⟨_, rfl⟩

/-- A command completes, on a state with the queue and the part it began with. -/
theorem exec_gives_same_queue (c : Instr) (s : State) :
    Gives (exec c s) fun t => t.pending = s.pending ∧ t.part = s.part := by
  obtain ⟨u, hu⟩ := exec_eq_done c s
  exact ⟨_, hu, rfl, rfl⟩

/-- Settles O54: a command ends in `State.done`, and an idle step only lets a nanosecond pass. -/
theorem everyStepCompletesAndKeepsTheQueue : Obligations.EveryStepCompletesAndKeepsTheQueue := by
  refine ⟨fun s => ?_, exec_gives_same_queue⟩
  unfold step
  split
  · next hq => exact ⟨s.idle, rfl, by simp [State.idle, hq]⟩
  · next c cs hq => simpa [hq] using exec_gives_same_queue c { s with pending := cs }

end Sys2Proof.Machine
end

/-! ## Laws of tables, registers and completed commands -/

section
namespace Sys2Proof.Machine

/-- A key that a filter keeps reads as before, one that it drops as unlisted. -/
theorem Tbl.get_filter {α : Type} (d : Nat → α) (keep : Nat → Bool) (t : Tbl α) (k : Nat) :
    Tbl.get d (t.filter fun e => keep e.1) k = if keep k then Tbl.get d t k else d k := by
  induction t with
  | nil => simp [Tbl.get]
  | cons e t ih =>
    by_cases he : k = e.1
    · subst he
      cases hk : keep e.1 <;> simp_all [Tbl.get]
    · cases hk : keep e.1 <;> simp [hk, Tbl.get, he, ih]

/-- Element `k` of an array sits at its place. -/
theorem slot_mul {stride n k : Nat} (base : Nat) (hk : k < n) (hs : 0 < stride) : slot (base + stride * k) base stride n = some k := by
  have : stride * k < stride * n := Nat.mul_lt_mul_of_pos_left hk hs
  rw [slot, if_pos ⟨by omega, by omega, by simp⟩]
  simp [Nat.mul_div_cancel_left k hs]

theorem slot_below {off base : Nat} (stride n : Nat) (h : off < base) : slot off base stride n = none :=
  if_neg fun hc => by omega

theorem slot_above {off base stride n : Nat} (h : base + stride * n ≤ off) : slot off base stride n = none :=
  if_neg fun hc => by omega

/-- A half set under a key is the one found there. -/
@[simp] theorem halfAt_halfSet_self (l : List (Nat × Word)) (key : Nat) (v : Word) : halfAt (halfSet l key v) key = some v := by
  simp [halfAt, halfSet]

/-- A half taken away is no longer found. -/
@[simp] theorem halfAt_filter_ne (l : List (Nat × Word)) (key : Nat) : halfAt (l.filter fun e => e.1 != key) key = none := by
  simp [halfAt]

variable (s : State)

/-- A field depends on its register alone. -/
theorem State.get_congr {s t : State} {f : Fld} (h : t.rd f.off = s.rd f.off) : t.get f = s.get f := by
  rw [State.get, State.get, h]

/-- A store leaves every other register. -/
theorem State.rd_storeAt_ne {key off o : Nat} (v : Word) (h : o ≠ key) : (s.storeAt key off v).rd o = s.rd o := by
  unfold State.storeAt
  split
  · rfl
  · exact s.rd_wr_ne _ h

theorem State.rd_store_ne {off o : Nat} (v : Word) (h : o ≠ off) : (s.store off v).rd o = s.rd o := s.rd_storeAt_ne v h

/-- What a store leaves in its register depends on the register alone. -/
theorem State.rd_store_congr {s t : State} {off : Nat} (v : Word) (h : t.rd off = s.rd off) :
    (t.store off v).rd off = (s.store off v).rd off := by
  unfold State.store State.storeAt
  split
  · exact h
  · simp [h]

/-- What every step of a fold leaves alone, the fold leaves alone. -/
theorem State.foldl_keeps {α : Type} (f : State → α → State)
    (hf : ∀ s a, (f s a).pending = s.pending ∧ (f s a).part = s.part) (l : List α) :
    (l.foldl f s).pending = s.pending ∧ (l.foldl f s).part = s.part := by
  induction l generalizing s with
  | nil => exact ⟨rfl, rfl⟩
  | cons a l ih => exact ⟨(ih _).1.trans (hf s a).1, (ih _).2.trans (hf s a).2⟩

/-- A command that ends in `State.done` gives the state it ends on. -/
theorem State.done_gives {s t : State} {P : State → Prop} (hq : t.pending = s.pending) (hp : t.part = s.part) (h : P t) :
    Gives (s.done t) P :=
  ⟨t, State.done_eq hq hp, h⟩

end Sys2Proof.Machine
end

/-! ## What an access to local memory and a fetch leave alone -/

section
namespace Sys2Proof.Machine

variable (s : State)

@[simp] theorem State.setChan_keeps (n : Nat) (c : DmcCh) :
    (s.setChan n c).pending = s.pending ∧ (s.setChan n c).part = s.part := ⟨rfl, rfl⟩

@[simp] theorem State.setXbar_keeps (r : Nat) (x : XbarSt) :
    (s.setXbar r x).pending = s.pending ∧ (s.setXbar r x).part = s.part := ⟨rfl, rfl⟩

@[simp] theorem State.setPort_keeps (p : Nat) (x : Nat × Nat) :
    (s.setPort p x).pending = s.pending ∧ (s.setPort p x).part = s.part := ⟨rfl, rfl⟩

@[simp] theorem State.reply_keeps (req a : Nat) (data : List Nat) (poison : Bool) :
    (s.reply req a data poison).pending = s.pending ∧ (s.reply req a data poison).part = s.part := ⟨rfl, rfl⟩

@[simp] theorem State.exitSelfref_keeps (n : Nat) :
    (s.exitSelfref n).pending = s.pending ∧ (s.exitSelfref n).part = s.part := by
  unfold State.exitSelfref State.setSelfref
  split <;> simp

@[simp] theorem State.touchChan_keeps (n : Nat) :
    (s.touchChan n).pending = s.pending ∧ (s.touchChan n).part = s.part := by
  simp [State.touchChan]

@[simp] theorem State.countAct_keeps (n : Nat) (r : DmcReq) :
    (s.countAct n r).1.pending = s.pending ∧ (s.countAct n r).1.part = s.part := by
  unfold State.countAct
  dsimp only
  split
  · simp
  · split <;> simp

@[simp] theorem State.rowAccess_keeps (n : Nat) (r : DmcReq) :
    (s.rowAccess n r).pending = s.pending ∧ (s.rowAccess n r).part = s.part := by
  unfold State.rowAccess
  simp only [State.setChan_keeps]
  split <;> simp

@[simp] theorem State.checkAccess_keeps (req a : Nat) :
    (s.checkAccess req a).pending = s.pending ∧ (s.checkAccess req a).part = s.part := by
  unfold State.checkAccess
  split
  · dsimp only
    split <;> simp
  · simp

@[simp] theorem State.corrected_keeps (n a : Nat) (ce : List Nat) :
    (s.corrected n a ce).pending = s.pending ∧ (s.corrected n a ce).part = s.part := by
  unfold State.corrected
  split
  · exact ⟨rfl, rfl⟩
  · exact s.foldl_keeps _ (fun s w => by simp [State.eccCe]) _

@[simp] theorem State.portPanic_keeps (p : Nat) :
    (s.portPanic p).pending = s.pending ∧ (s.portPanic p).part = s.part := by
  unfold State.portPanic
  extract_lets x was now
  split <;> simp

@[simp] theorem State.deliver_keeps (req : Nat) :
    (s.deliver req).pending = s.pending ∧ (s.deliver req).part = s.part := by
  unfold State.deliver
  split <;> simp

@[simp] theorem State.enterRead_keeps (n req a : Nat) :
    (s.enterRead n req a).pending = s.pending ∧ (s.enterRead n req a).part = s.part := by
  unfold State.enterRead
  dsimp only
  split <;> simp

@[simp] theorem State.readArrive_keeps (req a : Nat) :
    (s.readArrive req a).pending = s.pending ∧ (s.readArrive req a).part = s.part := by
  unfold State.readArrive
  dsimp only
  split <;> simp

@[simp] theorem State.xbarSlot_keeps (r : Nat) :
    (s.xbarSlot r).pending = s.pending ∧ (s.xbarSlot r).part = s.part := by
  unfold State.xbarSlot
  dsimp only
  split <;> simp

@[simp] theorem State.xbarRun_keeps (r k : Nat) :
    (s.xbarRun r k).pending = s.pending ∧ (s.xbarRun r k).part = s.part := by
  induction k generalizing s with
  | zero => exact ⟨rfl, rfl⟩
  | succ k ih =>
    unfold State.xbarRun
    dsimp only
    split
    · exact ⟨rfl, rfl⟩
    · simp [ih]

@[simp] theorem State.granuleAccess_keeps (req a : Nat) (whole : Bool) :
    (s.granuleAccess req a whole).pending = s.pending ∧ (s.granuleAccess req a whole).part = s.part := by
  unfold State.granuleAccess State.xbarSettle
  dsimp only
  split
  · exact ⟨rfl, rfl⟩
  · split <;> simp

@[simp] theorem State.useLocal_keeps (req a n : Nat) :
    (s.useLocal req a n).pending = s.pending ∧ (s.useLocal req a n).part = s.part := by
  unfold State.useLocal
  split
  · exact ⟨rfl, rfl⟩
  · exact s.foldl_keeps _ (fun s i => by simp) _

@[simp] theorem State.offAccess_keeps (d : Nat) :
    (s.offAccess d).pending = s.pending ∧ (s.offAccess d).part = s.part := by
  simp [State.offAccess]

/-- A fetch reads the management SRAMs and local memory; it leaves the queue and the part. -/
@[simp] theorem State.fetched_keeps (k : Nat) (m : MgmtSt) :
    (s.fetched k m).pending = s.pending ∧ (s.fetched k m).part = s.part := by
  unfold State.fetched
  split
  · next hp =>
    simp only [State.mgmtLoad, hp]
    split <;> simp
  · next hp =>
    simp only [State.mgmtLoad, hp]
    split <;> simp
  · exact ⟨rfl, rfl⟩

@[simp] theorem State.issued_keeps (k w : Nat) :
    (s.issued k w).pending = s.pending ∧ (s.issued k w).part = s.part := s.fetched_keeps _ _

end Sys2Proof.Machine
end

/-! ## Control and status registers of the management cores (O11) -/

section
namespace Sys2Proof.Machine

variable {s : State} {k w : Nat}

/-- Numbers from 8 on name no control register. -/
theorem State.csrRead_illegal (u : State) (k : Nat) (m : MgmtSt) {n : Nat} (h : 8 ≤ n) : u.csrRead k m n = (u, none) := by
  obtain ⟨j, rfl⟩ := Nat.exists_eq_add_of_le' h
  rfl

theorem MgmtSt.csrWrite_illegal (m : MgmtSt) {n : Nat} (v : Word64) (h : 8 ≤ n) : m.csrWrite n v = none := by
  obtain ⟨j, rfl⟩ := Nat.exists_eq_add_of_le' h
  simp [MgmtSt.csrWrite]

/-- STATUS holds IE in bit 0 and PIE in bit 1 (R197). -/
theorem status_bits (ie pie : Bool) : ofBool ie + 2 * ofBool pie = (if ie then 1 else 0) + (if pie then 2 else 0) := by
  cases ie <;> cases pie <;> rfl

theorem State.csrRead_status (u : State) (k : Nat) (m : MgmtSt) :
    u.csrRead k m 0 = (u, some ((if m.ie then 1 else 0) + (if m.pie then 2 else 0))) :=
  congrArg (fun n => (u, some n)) (status_bits m.ie m.pie)

theorem MgmtSt.csrWrite_status (m : MgmtSt) (v : Word64) :
    m.csrWrite 0 v = some { m with ie := v.toNat % 2 == 1, pie := v.toNat / 2 % 2 == 1 } := by
  rw [MgmtSt.csrWrite, bit, bit, Nat.pow_zero, Nat.div_one, Nat.pow_one]

/-- An instruction of the control profile alone that core k executes completes on what its effect gives. -/
theorem done_effMgmt {op : Nat} (h : MgmtIssues s k op w) (hp : (Ins.ofNat w).holds (s.mgmtOf k).p = true)
    (eff : State → MgmtSt → Ins → State) {r : State} {m : MgmtSt}
    (he : eff (s.issued k w) (s.mgmtAt k w) (Ins.ofNat w) = r.setMgmt k m)
    (hq : r.pending = s.pending ∧ r.part = s.part) :
    s.done (effMgmt k op eff s) = .next (r.setMgmt k m) := by
  rw [effMgmt_issues h, if_pos hp, he]
  exact State.done_eq (by simp [hq]) (by simp [hq])

/-- CSRR of a number that names a register: its value in sD. -/
theorem exec_csrr_of_some (h : MgmtIssues s k 0x74 w) (hp : (Ins.ofNat w).holds (s.mgmtOf k).p = true) {r : State} {v : Nat}
    (hr : (s.issued k w).csrRead k (s.mgmtAt k w) (Ins.ofNat w).imm = (r, some v))
    (hq : r.pending = s.pending ∧ r.part = s.part) :
    exec (.csrr (.mgmt k)) s =
      .next (r.setMgmt k ((s.mgmtAt k w).setS (Ins.ofNat w).d (BitVec.ofNat 64 v)).next) :=
  done_effMgmt h hp (effCsrr k) (by simp only [effCsrr, hr]) hq

theorem exec_csrr_of_none (h : MgmtIssues s k 0x74 w) (hp : (Ins.ofNat w).holds (s.mgmtOf k).p = true) (hn : 8 ≤ (Ins.ofNat w).imm) :
    exec (.csrr (.mgmt k)) s = .next ((s.issued k w).setMgmt k ((s.mgmtAt k w).trap 1 (s.mgmtOf k).pc)) :=
  done_effMgmt h hp (effCsrr k) (by simp only [effCsrr, State.csrRead_illegal _ _ _ hn]; rfl) (s.issued_keeps k w)

/-- CSRW of a number that names a register: what `csrWrite` makes of the core. -/
theorem exec_csrw_of_some (h : MgmtIssues s k 0x75 w) (hp : (Ins.ofNat w).holds (s.mgmtOf k).p = true) {m : MgmtSt}
    (hm : (s.mgmtAt k w).csrWrite (Ins.ofNat w).imm (sreg (s.mgmtAt k w).s (Ins.ofNat w).a) = some m) :
    exec (.csrw (.mgmt k)) s = .next ((s.issued k w).setMgmt k m.next) :=
  done_effMgmt h hp (effCsrw k) (by simp only [effCsrw, hm]) (s.issued_keeps k w)

theorem exec_csrw_of_none (h : MgmtIssues s k 0x75 w) (hp : (Ins.ofNat w).holds (s.mgmtOf k).p = true) (hn : 8 ≤ (Ins.ofNat w).imm) :
    exec (.csrw (.mgmt k)) s = .next ((s.issued k w).setMgmt k ((s.mgmtAt k w).trap 1 (s.mgmtOf k).pc)) :=
  done_effMgmt h hp (effCsrw k) (by simp only [effCsrw, MgmtSt.csrWrite_illegal _ _ hn]; rfl) (s.issued_keeps k w)

end Sys2Proof.Machine
end

section
namespace Sys2Proof.Machine

/-- Settles O11: CSRR gives what `csrRead` reads and CSRW what `csrWrite` leaves, number by number. -/
theorem controlRegistersReadAndWrite : Obligations.ControlRegistersReadAndWrite := by
  intro s k w hp
  have hq := s.issued_keeps k w
  refine ⟨fun h => ?_, fun h => ?_⟩
  · have reads {v : Nat} := exec_csrr_of_some h hp (r := s.issued k w) (v := v) (hq := hq)
    refine ⟨fun hn => reads (by rw [hn]; exact State.csrRead_status _ k _), fun hn => reads (by rw [hn]; rfl), fun hn => reads (by rw [hn]; rfl),
      fun hn => reads (by rw [hn]; rfl), fun hn => reads (by rw [hn]; rfl), fun hn => reads (by rw [hn]; rfl),
      fun hn => ?lo, fun hi hn hc => ?hi, exec_csrr_of_none h hp⟩
    case lo => exact ⟨_, exec_csrr_of_some h hp (by rw [hn]; rfl) (by exact hq), by simp; rfl, by simp [State.cycles]⟩
    case hi => exact ⟨_, exec_csrr_of_some h hp (by rw [hn]; rfl) (by exact hq), by simp [hc]; rfl, by simp⟩
  · have writes {m : MgmtSt} := exec_csrw_of_some h hp (m := m)
    exact ⟨fun hn => writes (by rw [hn]; exact MgmtSt.csrWrite_status _ _), fun hn => writes (by rw [hn]; rfl), fun hn => writes (by rw [hn]; rfl),
      fun hn => writes (by rw [hn]; rfl), fun hn => writes (by rw [hn]; rfl), fun hn => writes (by rw [hn]; rfl),
      fun hn => writes (by rw [hn]; rfl), fun hn => writes (by rw [hn]; rfl), exec_csrw_of_none h hp⟩

end Sys2Proof.Machine
end

/-! ## Register accesses (O57) -/

section
namespace Sys2Proof.Machine

variable (s : State)

/-! ### Layer registers -/

theorem blockOf_layer {off : Nat} (h : 0x200000 ≤ off) (h' : off < 0x240000) : blockOf off = some 9 := by
  unfold blockOf
  dsimp only
  iterate 9 rw [if_neg (by omega)]
  rw [if_pos (by omega), if_pos (by omega)]

theorem State.writeWord_layer {off : Nat} (a : Nat) (v : Word) (h : 0x200000 ≤ off) (h' : off < 0x240000) :
    s.writeWord a off v = s.store off v := by
  have hs : slot off (Reg.layerFence 0) 4 1024 = none := slot_below _ _ h'
  simp only [State.writeWord, blockOf_layer h h', State.writeLayer, hs]

theorem lowHalf_layer {off : Nat} (v : Word) (h : 0x200000 ≤ off) : lowHalf off v = v := by
  have hs : slot off (Reg.protWinBaseLo 0) 0x10 16 = none := slot_above (by simp only [Reg.protWinBaseLo]; omega)
  simp [lowHalf, loIn, hs]

/-- The low half of a layer's pair is a layer register. -/
theorem rwPairLo_layer {off : Nat} (h4 : off % 4 = 0) (h : 0x200000 ≤ off) (hp : rwPairLo (off - 4) = true) : 0x200004 ≤ off := by
  refine Nat.le_of_not_lt fun hlt => ?_
  obtain rfl : off = 0x200000 := by omega
  exact absurd hp (by decide)

/-- Layer registers are no pair of a codec context. -/
theorem State.pairLocked_layer {off : Nat} (h : off < 0x240000) : s.pairLocked off = false := by
  have : ¬ 0x901000 ≤ off := by omega
  simp [State.pairLocked, this]

/-! ### A write that has passed the checks -/

theorem State.pairedPrimary_congr {s t : State} (hp : t.part = s.part) (hr : t.rd Reg.mirCtl = s.rd Reg.mirCtl) (hm : t.mir = s.mir) :
    t.pairedPrimary = s.pairedPrimary := by
  simp only [State.pairedPrimary, State.paired, State.flag, hp, hm, State.get_congr (f := F.mirCtlEn) hr,
    State.get_congr (f := F.mirCtlRole) hr]

/-- Storing a layer register leaves the roles of the pair. -/
theorem State.pairedPrimary_store {off : Nat} (v : Word) (h : off < 0x240000) : (s.store off v).pairedPrimary = s.pairedPrimary :=
  State.pairedPrimary_congr (by simp) (s.rd_store_ne v (by simp only [Reg.mirCtl]; omega)) (by simp)

theorem State.takeWrite_of_not_primary {a off : Nat} {v : Word} (h : (s.writePair a off v).pairedPrimary = false) :
    s.takeWrite a off v = s.writePair a off v := by
  simp [State.takeWrite, State.forward, h]

/-- A write of an agent that passes the checks of R462 and R425 is taken. -/
theorem State.busWrite_writes {a off : Nat} (v : Word) (h : s.writes a off) : s.busWrite a off 15 v = s.takeWrite a off v := by
  unfold State.busWrite
  simp [h.1, h.2]

theorem State.busWrite_denied {a off be : Nat} (v : Word) (h : s.access a true off be ≠ .ok) :
    s.busWrite a off be v = s.deny (s.access a true off be) a true off := by
  unfold State.busWrite
  simp [h]

/-- A word that is no half of a pair takes effect at once (R9). -/
theorem State.writePair_single {a off : Nat} (v : Word) (h : rwPairLo off = false) (h' : rwPairLo (off - 4) = false) :
    s.writePair a off v = s.writeWord a off v := by
  simp [State.writePair, State.pairWrite, h, h']

/-- A low half is held for its high half (R9). -/
theorem State.writePair_low {a off : Nat} (v : Word) (h : rwPairLo off = true) (hl : s.pairLocked off = false) :
    s.writePair a off v = { s with heldLo := halfSet s.heldLo (halfKey a off) v } := by
  simp [State.writePair, State.pairWrite, h, hl]

/-- A high half puts the low half that is held and itself into effect (R9). -/
theorem State.writePair_high {a off : Nat} {l : Word} (v : Word) (h : rwPairLo off = false) (h' : rwPairLo (off - 4) = true)
    (h4 : 4 ≤ off) (hl : halfAt s.heldLo (halfKey a (off - 4)) = some l) :
    s.writePair a off v =
      (({ s with heldLo := s.heldLo.filter fun e => e.1 != halfKey a (off - 4) } : State).writeWord a (off - 4)
        (lowHalf (off - 4) l)).writeWord a off v := by
  simp [State.writePair, State.pairWrite, h, h', h4, hl]

/-! ### A read that has passed the checks -/

theorem State.busRead_ok {a off : Nat} (h : s.access a false off 15 = .ok) : s.busRead a off = s.readWord a off := by
  simp [State.busRead, h]

theorem State.busRead_denied {a off : Nat} (h : s.access a false off 15 ≠ .ok) :
    s.busRead a off = (s.deny (s.access a false off 15) a false off, 0) := by
  simp [State.busRead, h]

/-- A read of CLAIM is a claim (R384). -/
theorem State.readWord_claim {k : Nat} (a : Nat) (hk : k < 8) : s.readWord a (Reg.icuTgtClaim k) = s.claimRead k := by
  have hs : slot (Reg.icuTgtClaim k) (Reg.icuTgtClaim 0) 0x20 8 = some k := slot_mul _ hk (by decide)
  simp [State.readWord, hs]

/-- A word that is no half of a read-only pair, and no counter that time moves, is read as it stands. -/
theorem State.readWord_single {a off : Nat} (hc : slot off (Reg.icuTgtClaim 0) 0x20 8 = none) (h : roPairLo off = false)
    (h' : ¬ (4 ≤ off ∧ roPairLo (off - 4) = true)) (hi : off ≠ Reg.netIbuf) (hf : slot off (Reg.wlkLaneFec 0) 0x40 16 = none) :
    s.readWord a off = (s.tick, readable off (s.live a off) s.fresh) := by
  simp [State.readWord, hc, h, h', hi, hf]

/-- A read of the ingest buffer's fill sees it drained until now. -/
theorem State.readWord_ibuf (a : Nat) :
    s.readWord a Reg.netIbuf = (s.drain.tick, readable Reg.netIbuf (s.drain.live a Reg.netIbuf) s.drain.fresh) := by
  have hc : slot Reg.netIbuf (Reg.icuTgtClaim 0) 0x20 8 = none := by decide
  have h : roPairLo Reg.netIbuf = false := by decide
  have h' : roPairLo (Reg.netIbuf - 4) = false := by decide
  simp [State.readWord, hc, h, h']

/-- A read of a lane's codeword counters sees them counted until now. -/
theorem State.readWord_fec (a : Nat) {k : Nat} (hk : k < 16) :
    s.readWord a (Reg.wlkLaneFec k) = ((s.countFec k 0).tick,
      readable (Reg.wlkLaneFec k) ((s.countFec k 0).live a (Reg.wlkLaneFec k)) (s.countFec k 0).fresh) := by
  have hs : slot (Reg.wlkLaneFec k) (Reg.wlkLaneFec 0) 0x40 16 = some k := slot_mul _ hk (by decide)
  have hc : slot (Reg.wlkLaneFec k) (Reg.icuTgtClaim 0) 0x20 8 = none := slot_above (by simp only [Reg.wlkLaneFec, Reg.icuTgtClaim]; omega)
  have hi : Reg.wlkLaneFec k ≠ Reg.netIbuf := by simp only [Reg.wlkLaneFec, Reg.netIbuf]; omega
  have hp : ∀ k < 16, roPairLo (Reg.wlkLaneFec k) = false ∧ roPairLo (Reg.wlkLaneFec k - 4) = false := by decide
  simp [State.readWord, hs, hc, hi, hp k hk]

/-- A read of the low half of a read-only pair captures the high half (R9). -/
theorem State.readWord_low {a off : Nat} (hc : slot off (Reg.icuTgtClaim 0) 0x20 8 = none) (h : roPairLo off = true) :
    s.readWord a off = (({ s with capHi := halfSet s.capHi (halfKey a (off + 4)) (s.live a (off + 4)) } : State).tick,
      readable off (s.live a off) s.fresh) := by
  simp [State.readWord, hc, h]

/-- A read of the high half gives the half captured, which is then gone (R9). -/
theorem State.readWord_high {a off : Nat} (hc : slot off (Reg.icuTgtClaim 0) 0x20 8 = none) (h : roPairLo off = false) (h4 : 4 ≤ off)
    (h' : roPairLo (off - 4) = true) :
    s.readWord a off = (({ s with capHi := s.capHi.filter fun e => e.1 != halfKey a off } : State).tick,
      readable off ((halfAt s.capHi (halfKey a off)).getD (s.live a off)) s.fresh) := by
  simp [State.readWord, hc, h, h4, h']

/-! ### The command -/

variable {s} {a off : Nat}

/-- Past BAR0 a request goes to the functions' own spaces. -/
theorem exec_registerWrite_past (h4 : off % 4 = 0) (h : pcieBase ≤ off) (write : Bool) (be : Nat) (v : Word) :
    exec (.registerWrite a write off be v) s = s.done (effPcie a write off v s) := by
  have : off / 4 * 4 = off := by omega
  simp [exec, execRegisterWrite, effAccess, h4, h, this]

theorem exec_registerWrite_write (h4 : off % 4 = 0) (h : off < pcieBase) (be : Nat) (v : Word) :
    exec (.registerWrite a true off be v) s = s.done (s.busWrite a off be v) := by
  simp [exec, execRegisterWrite, effAccess, h4, Nat.not_le.2 h]

theorem exec_registerWrite_read (h4 : off % 4 = 0) (h : off < pcieBase) (be : Nat) (v : Word) :
    exec (.registerWrite a false off be v) s = s.done { (s.busRead a off).1 with lastRead := (s.busRead a off).2 } := by
  simp [exec, execRegisterWrite, effAccess, h4, Nat.not_le.2 h]

/-- A request that no function of its agent answers is unsupported (R271). -/
theorem effPcie_foreign (write : Bool) (v : Word) (h : ¬ (off < pcieEnd ∧ a = 4 + pcieFunc off)) :
    effPcie a write off v s = s.emit (.unsupported off) := by
  have : a ≠ 4 + pcieFunc off ∨ pcieEnd ≤ off := by omega
  simp [effPcie, this]

theorem effPcie_own (write : Bool) (v : Word) (h : off < pcieEnd) (ha : a = 4 + pcieFunc off) :
    (s.boot.cfgReady = false → effPcie a write off v s = s) ∧
    (s.boot.cfgReady = true → effPcie a false off v s = { s with lastRead := BitVec.ofNat 32 (s.pcieRead off) }) := by
  have hown : (a != 4 + pcieFunc off || decide (pcieEnd ≤ off)) = false := by simp [ha, Nat.not_le.2 h]
  constructor <;> intro hc <;> simp [effPcie, hown, hc]

/-- A read that passes the checks is answered with what `readWord` gives. -/
theorem exec_read_gives (h4 : off % 4 = 0) (h : off < pcieBase) (hok : s.access a false off 15 = .ok) (be : Nat) (v : Word)
    {u : State} {x : Word} (hr : s.readWord a off = (u, x)) :
    exec (.registerWrite a false off be v) s = s.done { u with lastRead := x } := by
  rw [exec_registerWrite_read h4 h, s.busRead_ok hok, hr]

/-- A read of CLAIM is the CLAIM command. -/
theorem exec_read_claim {k : Nat} (hk : k < 8) (hok : s.access a false (Reg.icuTgtClaim k) 15 = .ok) (be : Nat) (v : Word) :
    exec (.registerWrite a false (Reg.icuTgtClaim k) be v) s = exec (.claim a k) s := by
  have he : effClaim a k s = { (s.claimRead k).1 with lastRead := (s.claimRead k).2 } := by
    rw [effClaim, if_neg (Nat.not_le.2 hk)]
    exact if_neg fun hno => hno hok
  rw [exec_registerWrite_read (by simp only [Reg.icuTgtClaim]; omega) (by simp only [Reg.icuTgtClaim, pcieBase]; omega), s.busRead_ok hok,
    s.readWord_claim a hk]
  exact congrArg s.done he.symm

/-- A layer register that is no half of a pair is stored at once. -/
theorem State.busWrite_layer (v : Word) (h : 0x200000 ≤ off) (h' : off < 0x240000) (hp : s.pairedPrimary = false) (hw : s.writes a off)
    (h1 : rwPairLo off = false) (h2 : rwPairLo (off - 4) = false) : s.busWrite a off 15 v = s.store off v := by
  have he : s.writePair a off v = s.store off v := by rw [s.writePair_single v h1 h2, s.writeWord_layer a v h h']
  rw [s.busWrite_writes v hw, s.takeWrite_of_not_primary (by rw [he, s.pairedPrimary_store v h', hp]), he]

/-- The low half of a layer's pair is held. -/
theorem State.busWrite_layer_low (v : Word) (h' : off < 0x240000) (hp : s.pairedPrimary = false) (hw : s.writes a off)
    (h1 : rwPairLo off = true) : s.busWrite a off 15 v = { s with heldLo := halfSet s.heldLo (halfKey a off) v } := by
  have he := s.writePair_low v h1 (s.pairLocked_layer h') (a := a)
  rw [s.busWrite_writes v hw, s.takeWrite_of_not_primary (by rw [he]; exact hp), he]

/-- The high half of a layer's pair stores both halves. -/
theorem State.busWrite_layer_high {l : Word} (v : Word) (h4 : off % 4 = 0) (h : 0x200000 ≤ off) (h' : off < 0x240000)
    (hp : s.pairedPrimary = false) (hw : s.writes a off) (h1 : rwPairLo off = false) (h2 : rwPairLo (off - 4) = true)
    (hl : halfAt s.heldLo (halfKey a (off - 4)) = some l) :
    s.busWrite a off 15 v =
      (({ s with heldLo := s.heldLo.filter fun e => e.1 != halfKey a (off - 4) } : State).store (off - 4) l).store off v := by
  have hlo := rwPairLo_layer h4 h h2
  have he := s.writePair_high v h1 h2 (by omega) hl
  rw [lowHalf_layer l (by omega), State.writeWord_layer _ a l (by omega) (by omega), State.writeWord_layer _ a v h h'] at he
  rw [s.busWrite_writes v hw, s.takeWrite_of_not_primary, he]
  rw [he, State.pairedPrimary_store _ v h', State.pairedPrimary_store _ l (by omega)]
  exact hp

end Sys2Proof.Machine
end

section
namespace Sys2Proof.Machine

/-- Settles O57: past BAR0 by `effPcie`, a read by what `readWord` gives for its kind of word, a layer register's write by its half of a
pair. -/
theorem registerAccesses : Obligations.RegisterAccesses := by
  intro s a off be v l h4
  refine ⟨fun h hown write => ?_, fun ⟨h, hend, ha⟩ hcfg write => ?_, fun ⟨h, hend, ha⟩ hcfg => ?_, fun hlt => ?_⟩
  · rw [exec_registerWrite_past h4 h, effPcie_foreign write v fun hc => hown ⟨h, hc⟩]
    exact State.done_eq (by simp) (by simp)
  · rw [exec_registerWrite_past h4 h, (effPcie_own write v hend ha).1 hcfg]
    exact State.done_eq rfl rfl
  · rw [exec_registerWrite_past h4 h, (effPcie_own false v hend ha).2 hcfg]
    exact State.done_eq rfl rfl
  · refine ⟨fun hno => ?_, fun hno => ?_, fun k hk hoff hok => ?_, fun hok hoff => ?_, fun k hk hok hoff => ?_,
      fun hok hc hi hf => ?_, fun ⟨h, h', hp, hw⟩ h1 h2 => ?_, fun ⟨h, h', hp, hw⟩ h1 => ?_,
      fun ⟨h, h', hp, hw⟩ h1 h2 hl => ?_⟩
    · rw [exec_registerWrite_write h4 hlt, s.busWrite_denied v hno]
      exact State.done_eq (by simp) (by simp)
    · rw [exec_registerWrite_read h4 hlt, s.busRead_denied hno]
      exact State.done_eq (by simp) (by simp)
    · subst hoff
      exact exec_read_claim hk hok be v
    · subst hoff
      exact ⟨_, exec_read_gives h4 hlt hok be v (s.readWord_ibuf a), rfl⟩
    · subst hoff
      exact ⟨_, exec_read_gives h4 hlt hok be v (s.readWord_fec a hk), rfl⟩
    · cases hlo : roPairLo off
      case true =>
        exact ⟨_, exec_read_gives h4 hlt hok be v (s.readWord_low hc hlo), rfl, rfl, by simp, by simp, by simp⟩
      case false =>
        by_cases hhi : 4 ≤ off ∧ roPairLo (off - 4) = true
        · obtain ⟨hge, hhi⟩ := hhi
          exact ⟨_, exec_read_gives h4 hlt hok be v (s.readWord_high hc hlo hge hhi), rfl, rfl, by simp [hhi], by simp,
            fun _ _ _ hl => by simp [hl]⟩
        · exact ⟨_, exec_read_gives h4 hlt hok be v (s.readWord_single hc hlo hhi hi hf), rfl, rfl, fun _ _ => rfl, by simp,
            fun hge _ hhi' => absurd ⟨hge, hhi'⟩ hhi⟩
    · rw [exec_registerWrite_write h4 hlt, State.busWrite_layer v h h' hp hw h1 h2]
      exact State.done_eq (by simp) (by simp)
    · rw [exec_registerWrite_write h4 hlt, State.busWrite_layer_low v h' hp hw h1]
      exact State.done_eq rfl rfl
    · have hne : off ≠ off - 4 := by have := rwPairLo_layer h4 h h2; omega
      rw [exec_registerWrite_write h4 hlt, State.busWrite_layer_high v h4 h h' hp hw h1 h2 hl]
      refine State.done_gives (by simp) (by simp) ⟨?_, ?_, ?_⟩
      · exact State.rd_store_congr v (State.rd_store_ne _ l hne)
      · exact (State.rd_store_ne _ v hne.symm).trans (State.rd_store_congr l rfl)
      · simp

end Sys2Proof.Machine
end

/-! ## Power domains (O45) -/

section
namespace Sys2Proof.Machine

variable (s : State)

/-! ### What a signal leaves of the power unit's registers and of the pending words -/

theorem State.rd_signal_low (n : Nat) {o : Nat} (ho : o < 0x80000) (hw : o ≠ Reg.pwrStatus) : (s.signal n).rd o = s.rd o := by
  apply s.rd_signal _ _ hw
  · intro t _; simp only [Reg.icuTgtStat]; omega
  · simp only [Reg.icuPending]; omega
  · simp only [Reg.icuStatus]; omega

theorem State.rd_raise_low {f : Fld} (n : Nat) {o : Nat} (hf : o ≠ f.off) (ho : o < 0x80000) (hw : o ≠ Reg.pwrStatus) :
    (s.raise f n).rd o = s.rd o := by
  rw [State.raise, State.rd_signal_low _ n ho hw, s.rd_put_ne _ hf]

/-- A wake changes no field of PWR.STATUS but STATE. -/
theorem State.get_wake_status {f : Fld} (hf : f.off = Reg.pwrStatus) (hl : 3 ≤ f.lo) : s.wake.get f = s.get f := by
  unfold State.wake
  repeat' split
  · rfl
  · exact s.get_put_apart _ (by decide) hf (.inr hl)
  · rfl
  · rfl

/-- A signal changes no field of PWR.STATUS but STATE (a wake). -/
theorem State.get_signal_status (n : Nat) {f : Fld} (hf : f.off = Reg.pwrStatus) (hl : 3 ≤ f.lo) : (s.signal n).get f = s.get f := by
  have hi : f.off ≠ Reg.icuPending (n / 32) := by rw [hf]; simp only [Reg.pwrStatus, Reg.icuPending]; omega
  have hs : f.off ≠ Reg.icuStatus := by rw [hf]; decide
  have ht : ∀ t < 8, f.off ≠ Reg.icuTgtStat t := by rw [hf]; decide
  have lines (u : State) : u.evalLines.get f = u.get f := State.get_congr (u.rd_evalLines ht)
  have puts : ((s.put ⟨Reg.icuPending (n / 32), n % 32, 1⟩ 1).put F.icuStatusLastdb n).get f = s.get f := by
    rw [State.get_put_ne _ _ hs, State.get_put_ne _ _ hi]
  unfold State.signal State.pend
  dsimp only
  repeat' split
  · rfl
  · rfl
  · rw [lines, State.get_wake_status _ hf hl, puts]
  · rw [lines, puts]

theorem State.get_raise_status {c : Fld} (n : Nat) {f : Fld} (hc : c.off ≠ Reg.pwrStatus) (hf : f.off = Reg.pwrStatus) (hl : 3 ≤ f.lo) :
    (s.raise c n).get f = s.get f := by
  rw [State.raise, State.get_signal_status _ n hf hl, s.get_put_ne _ (by rw [hf]; exact hc.symm)]

/-- A pending source stays pending when another source signals. -/
theorem State.pending_signal_of_pending (n : Nat) {k i : Nat} (hk : k < 32) (hi : i < 32) (h : s.get ⟨Reg.icuPending k, i, 1⟩ = 1) :
    (s.signal n).get ⟨Reg.icuPending k, i, 1⟩ = 1 := by
  have hs : Reg.icuPending k ≠ Reg.icuStatus := by simp only [Reg.icuPending, Reg.icuStatus]; omega
  have hw : Reg.icuPending k ≠ Reg.pwrStatus := by simp only [Reg.icuPending, Reg.pwrStatus]; omega
  have ht : ∀ t < 8, Reg.icuPending k ≠ Reg.icuTgtStat t := by intro t _; simp only [Reg.icuPending, Reg.icuTgtStat]; omega
  have hput : (s.put ⟨Reg.icuPending (n / 32), n % 32, 1⟩ 1).get ⟨Reg.icuPending k, i, 1⟩ = 1 := by
    by_cases hn : n / 32 = k
    · subst hn
      by_cases hm : n % 32 = i
      · subst hm
        exact s.get_put_self 1 (show n % 32 + 1 ≤ 32 by omega)
      · exact (s.get_put_apart (f := ⟨_, n % 32, 1⟩) (g := ⟨_, i, 1⟩) 1 (by dsimp only; omega) rfl (by dsimp only; omega)).trans h
    · rw [s.get_put_ne _ (by simp only [Reg.icuPending]; omega), h]
  have hput' : ((s.put ⟨Reg.icuPending (n / 32), n % 32, 1⟩ 1).put F.icuStatusLastdb n).get ⟨Reg.icuPending k, i, 1⟩ = 1 := by
    rw [State.get_put_ne _ _ hs, hput]
  unfold State.signal State.pend
  dsimp only
  repeat' split
  · exact h
  · exact h
  · exact (State.get_congr ((State.rd_evalLines _ ht).trans (State.rd_wake _ hw))).trans hput'
  · exact (State.get_congr (State.rd_evalLines _ ht)).trans hput'

/-! ### Domains on and requested -/

/-- A domain is requested, or on, where its bit of DOMCTL, or DOMSTAT, is set. -/
theorem State.domWanted_eq_flag (d : Nat) : s.domWanted d = s.flag (domCtlBit d) := by
  simp only [State.domWanted, State.flag, State.get, domCtlBit, field_one, ofBool]
  cases bit (s.rd (Reg.pwrDomctl (d / 32))).toNat (d % 32) <;> rfl

theorem State.domOn_eq_flag (d : Nat) : s.domOn d = s.flag (domStatBit d) := by
  simp only [State.domOn, State.flag, State.get, domStatBit, field_one, ofBool]
  cases bit (s.rd (Reg.pwrDomstat (d / 32))).toNat (d % 32) <;> rfl

theorem State.domWanted_put_self (d v : Nat) : (s.put (domCtlBit d) v).domWanted d = (v % 2 != 0) := by
  rw [State.domWanted_eq_flag, s.flag_put_self v (show d % 32 + 1 ≤ 32 by omega)]; rfl

theorem State.domOn_put_self (d v : Nat) : (s.put (domStatBit d) v).domOn d = (v % 2 != 0) := by
  rw [State.domOn_eq_flag, s.flag_put_self v (show d % 32 + 1 ≤ 32 by omega)]; rfl

variable {s}

theorem State.domWanted_congr {t : State} {d : Nat} (h : t.rd (Reg.pwrDomctl (d / 32)) = s.rd (Reg.pwrDomctl (d / 32))) :
    t.domWanted d = s.domWanted d := by rw [State.domWanted, h]; rfl

theorem State.domOn_congr {t : State} {d : Nat} (h : t.rd (Reg.pwrDomstat (d / 32)) = s.rd (Reg.pwrDomstat (d / 32))) :
    t.domOn d = s.domOn d := by rw [State.domOn, h]; rfl

/-- A change that remains is of one of the 84 domains, which is on unless it is requested. -/
theorem State.mem_domChanges {d : Nat} (h : d ∈ s.domChanges) : d < 84 ∧ s.domOn d = !s.domWanted d := by
  obtain ⟨hd, hc⟩ := List.mem_filter.1 h
  refine ⟨List.mem_range.1 hd, ?_⟩
  revert hc
  cases s.domOn d <;> cases s.domWanted d <;> simp

theorem State.domChanges_congr {t : State} (hp : t.part = s.part) (hw : ∀ d < 84, t.domWanted d = s.domWanted d)
    (ho : ∀ d < 84, t.domOn d = s.domOn d) : t.domChanges = s.domChanges := by
  refine List.filter_congr fun d hd => ?_
  rw [hp, hw d (List.mem_range.1 hd), ho d (List.mem_range.1 hd)]

variable (s)

/-! ### DOMBUSY follows the changes that remain -/

@[simp] theorem State.settleDomains_keeps :
    s.settleDomains.pending = s.pending ∧ s.settleDomains.part = s.part ∧ s.settleDomains.dram = s.dram := by
  unfold State.settleDomains
  repeat' split
  all_goals simp

/-- Settling changes PWR.STATUS, PWR.EVENT and the interrupt controller's registers alone. -/
theorem State.rd_settleDomains {o : Nat} (hs : o ≠ Reg.pwrStatus) (he : o ≠ Reg.pwrEvent) (hi : o < 0x80000 ∨ 0x82100 ≤ o) :
    s.settleDomains.rd o = s.rd o := by
  unfold State.settleDomains
  repeat' split
  · rw [State.rd_raise _ (by decide) he hs hi, s.rd_put_ne _ hs]
  · rfl
  · exact s.rd_put_ne _ hs

theorem State.domWanted_settleDomains {d : Nat} (h : d < 84) : s.settleDomains.domWanted d = s.domWanted d :=
  State.domWanted_congr (s.rd_settleDomains (by simp only [Reg.pwrDomctl, Reg.pwrStatus]; omega)
    (by simp only [Reg.pwrDomctl, Reg.pwrEvent]; omega) (by simp only [Reg.pwrDomctl]; omega))

theorem State.domOn_settleDomains {d : Nat} (h : d < 84) : s.settleDomains.domOn d = s.domOn d :=
  State.domOn_congr (s.rd_settleDomains (by simp only [Reg.pwrDomstat, Reg.pwrStatus]; omega)
    (by simp only [Reg.pwrDomstat, Reg.pwrEvent]; omega) (by simp only [Reg.pwrDomstat]; omega))

theorem State.domChanges_settleDomains : s.settleDomains.domChanges = s.domChanges :=
  State.domChanges_congr (by simp) (fun _ => s.domWanted_settleDomains) fun _ => s.domOn_settleDomains

theorem State.dombusy_settleDomains : s.settleDomains.flag F.pwrStatusDombusy = !s.domChanges.isEmpty := by
  unfold State.settleDomains
  split
  · next he =>
    split
    · rw [State.flag, State.get_raise_status _ _ (by decide) rfl (by decide), ← State.flag, s.flag_put_self _ (by decide), he]; rfl
    · next hb => simp [hb, he]
  · next he => rw [s.flag_put_self _ (by decide)]; simp [he, F.pwrStatusDombusy]

/-- PWR_DOMAIN is raised when DOMBUSY returns to 0 (R397). -/
theorem State.pwrDomain_settleDomains (hb : s.flag F.pwrStatusDombusy = true) (hc : s.domChanges = []) :
    s.settleDomains.get F.pwrEventPwrDomain = 1 := by
  rw [State.settleDomains, if_pos (by simp [hc]), if_pos hb]
  exact State.cause_raise _ (by decide) rfl (by decide) (by decide) (by decide)

/-- Settling leaves the other bits of PWR.EVENT. -/
theorem State.pwrRefused_settleDomains : s.settleDomains.get F.pwrEventPwrRefused = s.get F.pwrEventPwrRefused := by
  unfold State.settleDomains
  repeat' split
  · rw [State.raise, State.get_congr (State.rd_signal_low _ _ (by decide) (by decide)),
      State.get_put_apart _ (f := F.pwrEventPwrDomain) (g := F.pwrEventPwrRefused) _ (by decide) rfl (by decide),
      s.get_put_ne _ (by decide)]
  · rfl
  · exact s.get_put_ne _ (by decide)

theorem State.pending_settleDomains {k i : Nat} (hk : k < 32) (hi : i < 32) (h : s.get ⟨Reg.icuPending k, i, 1⟩ = 1) :
    s.settleDomains.get ⟨Reg.icuPending k, i, 1⟩ = 1 := by
  have hs : Reg.icuPending k ≠ Reg.pwrStatus := by simp only [Reg.icuPending, Reg.pwrStatus]; omega
  have he : Reg.icuPending k ≠ Reg.pwrEvent := by simp only [Reg.icuPending, Reg.pwrEvent]; omega
  unfold State.settleDomains
  repeat' split
  · exact State.pending_signal_of_pending _ _ hk hi (by rw [State.get_put_ne _ _ he, s.get_put_ne _ hs, h])
  · exact h
  · rw [s.get_put_ne _ hs, h]

/-! ### A unit that loses power -/

@[simp] theorem State.countFec_keeps (n k : Nat) :
    (s.countFec n k).pending = s.pending ∧ (s.countFec n k).part = s.part ∧ (s.countFec n k).dram = s.dram := by
  simp [State.countFec]

@[simp] theorem effLaneLock_keeps (n : Nat) (locked : Bool) :
    (effLaneLock n locked s).pending = s.pending ∧ (effLaneLock n locked s).part = s.part ∧ (effLaneLock n locked s).dram = s.dram := by
  unfold effLaneLock
  split
  · simp
  · cases locked <;> simp

@[simp] theorem effPortLink_keeps (p : Nat) (up fec trained : Bool) :
    (effPortLink p up fec trained s).pending = s.pending ∧ (effPortLink p up fec trained s).part = s.part ∧
      (effPortLink p up fec trained s).dram = s.dram := by
  unfold effPortLink
  split
  · simp
  · dsimp only
    split <;> simp

@[simp] theorem State.mirrorLock_keeps (n : Nat) (locked : Bool) :
    (s.mirrorLock n locked).pending = s.pending ∧ (s.mirrorLock n locked).part = s.part ∧ (s.mirrorLock n locked).dram = s.dram := by
  unfold State.mirrorLock
  split
  · simp
  · cases locked <;> simp

/-- A lane's lock is no business of the power unit. -/
theorem dombusy_effLaneLock (n : Nat) (locked : Bool) :
    (effLaneLock n locked s).get F.pwrStatusDombusy = s.get F.pwrStatusDombusy := by
  have hr : (F.wlkLaneEventLaneState n).off ≠ Reg.pwrStatus := by
    simp only [F.wlkLaneEventLaneState, Reg.wlkLaneEvent, Reg.pwrStatus]; omega
  have hl : F.pwrStatusDombusy.off ≠ (F.wlkLaneStatRxlock n).off := by
    simp only [F.pwrStatusDombusy, F.wlkLaneStatRxlock, Reg.wlkLaneStat, Reg.pwrStatus]; omega
  have hc : Reg.pwrStatus ≠ (F.wlkLaneFecCorr n).off := by simp only [F.wlkLaneFecCorr, Reg.wlkLaneFec, Reg.pwrStatus]; omega
  have hu : Reg.pwrStatus ≠ (F.wlkLaneFecUncorr n).off := hc
  have fec (k : Nat) : (s.countFec n k).rd Reg.pwrStatus = s.rd Reg.pwrStatus := by
    rw [State.countFec, State.rd_tick, State.rd_bump_ne _ _ hu, State.rd_tick, State.rd_bump_ne _ _ hc]
  unfold effLaneLock
  split
  · rfl
  · dsimp only
    rw [State.get_raise_status _ _ hr rfl (by decide), State.get_put_ne _ _ (show Reg.pwrStatus ≠ Reg.wlkStatus by decide),
      State.get_put_ne _ _ hl]
    cases locked
    · exact State.get_congr (fec 4)
    · rfl

theorem dombusy_effPortLink (p : Nat) (up fec trained : Bool) :
    (effPortLink p up fec trained s).get F.pwrStatusDombusy = s.get F.pwrStatusDombusy := by
  have hs : Reg.pwrStatus ≠ Reg.netPortStat p := by simp only [Reg.netPortStat, Reg.pwrStatus]; omega
  have puts (a b c d : Nat) : ((((s.put (F.netPortStatFeclock p) a).put (F.netPortStatTrained p) b).put (F.netPortStatLink p) c).put
      ⟨Reg.netEvstat, 24 + p, 1⟩ d).get F.pwrStatusDombusy = s.get F.pwrStatusDombusy := by
    rw [State.get_put_ne _ _ (show Reg.pwrStatus ≠ Reg.netEvstat by decide), State.get_put_ne _ _ hs, State.get_put_ne _ _ hs,
      State.get_put_ne _ _ hs]
  unfold effPortLink
  split
  · rfl
  · dsimp only
    split
    · exact puts _ _ _ _
    · exact (State.get_signal_status _ _ rfl (by decide)).trans (puts _ _ _ _)

theorem State.dombusy_mirrorLock (n : Nat) (locked : Bool) :
    (s.mirrorLock n locked).get F.pwrStatusDombusy = s.get F.pwrStatusDombusy := by
  unfold State.mirrorLock
  split
  · rfl
  · dsimp only
    rw [State.get_raise_status _ _ (by decide) rfl (by decide), State.get_put_ne _ _ (show Reg.pwrStatus ≠ Reg.mirStat by decide)]
    cases locked
    · rfl
    · exact State.get_congr ((State.rd_tick _ _).trans (s.rd_put_ne _ (by decide)))

/-- `t` has the queue, the part, the registers and the local memory of `s`. -/
def State.SameCore (s t : State) : Prop := t.pending = s.pending ∧ t.part = s.part ∧ t.regs = s.regs ∧ t.dram = s.dram

theorem State.powerOff_sameCore (a : Nat) (l : List Nat) :
    s.SameCore (l.foldl (fun s i => s.setHead (a + i) (s.headOf (a + i)).powerOff) s) := by
  induction l generalizing s with
  | nil => exact ⟨rfl, rfl, rfl, rfl⟩
  | cons i l ih => exact ih (s.setHead (a + i) (s.headOf (a + i)).powerOff)

/-- `t` is what the loss of domain `d` makes of `s`: nothing that a register holds is lost, but for the lock of a lane, of an Ethernet
port or of a mirror lane. -/
def State.LosesTo (s : State) (d : Nat) (t : State) : Prop :=
  s.SameCore t ∨ (effLaneLock (d - 29) false s).SameCore t ∨
    (effPortLink (lanePort (s.get F.netCfgMode) (d - 45)) false false false s).SameCore t ∨ (s.mirrorLock (d - 53) false).SameCore t

theorem State.losesTo_loseUnit (d : Nat) : s.LosesTo d (s.loseUnit d) := by
  have same (t : State) : t.SameCore t := ⟨rfl, rfl, rfl, rfl⟩
  unfold State.loseUnit
  refine iteInduction (motive := s.LosesTo d) (fun _ => .inl (same s)) fun _ => ?_
  refine iteInduction (motive := s.LosesTo d) (fun _ => .inl ⟨rfl, rfl, rfl, rfl⟩) fun _ => ?_
  refine iteInduction (motive := s.LosesTo d) (fun _ => .inl (s.powerOff_sameCore _ _)) fun _ => ?_
  refine iteInduction (motive := s.LosesTo d) (fun _ => .inr (.inl ⟨rfl, rfl, rfl, rfl⟩)) fun _ => ?_
  refine iteInduction (motive := s.LosesTo d) (fun _ => .inr (.inr (.inl (same _)))) fun _ => ?_
  refine iteInduction (motive := s.LosesTo d) (fun _ => .inr (.inr (.inr (same _)))) fun _ => ?_
  iterate 9 refine iteInduction (motive := s.LosesTo d) (fun _ => .inl ⟨rfl, rfl, rfl, rfl⟩) fun _ => ?_
  exact .inl ⟨rfl, rfl, rfl, rfl⟩

@[simp] theorem State.loseUnit_keeps (d : Nat) :
    (s.loseUnit d).pending = s.pending ∧ (s.loseUnit d).part = s.part ∧ (s.loseUnit d).dram = s.dram := by
  obtain ⟨h1, h2, -, h4⟩ | ⟨h1, h2, -, h4⟩ | ⟨h1, h2, -, h4⟩ | ⟨h1, h2, -, h4⟩ := s.losesTo_loseUnit d <;> simp [h1, h2, h4]

theorem State.dombusy_loseUnit (d : Nat) : (s.loseUnit d).get F.pwrStatusDombusy = s.get F.pwrStatusDombusy := by
  obtain ⟨-, hp, hr, -⟩ | ⟨-, hp, hr, -⟩ | ⟨-, hp, hr, -⟩ | ⟨-, hp, hr, -⟩ := s.losesTo_loseUnit d <;>
    rw [State.get_congr (State.rd_congr hr hp _)]
  · exact dombusy_effLaneLock s _ _
  · exact dombusy_effPortLink s _ _ _ _
  · exact s.dombusy_mirrorLock _ _

/-! ### Registers that are reset -/

theorem State.rd_resetRegs (keep : Nat → Bool) (o : Nat) :
    (s.resetRegs keep).rd o = if keep (o % 0x4000000) then s.rd o else resetWord s.part o :=
  Tbl.get_filter _ (fun k => keep (k % 0x4000000)) _ _

@[simp] theorem State.resetRegs_keeps (keep : Nat → Bool) :
    (s.resetRegs keep).pending = s.pending ∧ (s.resetRegs keep).part = s.part ∧ (s.resetRegs keep).dram = s.dram := ⟨rfl, rfl, rfl⟩

/-! ### A change that is made or refused -/

/-- Registers of domains that can switch off lie past the power unit, and outside the interrupt controller. -/
theorem le_of_domainAt {o : Nat} (h : domainAt o ≠ 0) (h' : domainAt o ≠ 80) : 0x100000 ≤ o := by
  refine Nat.le_of_not_lt fun hlt => ?_
  by_cases ho : o < 0x80000
  · exact h (if_pos ho)
  · exact h' ((if_neg ho).trans (if_pos (by omega)))

/-- REASON is a code of R398, from 1 to 4, or 0. -/
theorem State.offReason_lt (d : Nat) : s.offReason d < 16 := by
  have lt {c : Prop} [Decidable c] {a b : Nat} (ha : a < 16) (hb : b < 16) : (if c then a else b) < 16 :=
    iteInduction (motive := (· < 16)) (fun _ => ha) fun _ => hb
  have code (n : Nat) (b : Bool) (hn : n < 16) : n * ofBool b < 16 := by cases b <;> simp [ofBool, hn]
  have unit (b : Bool) : 3 * ofBool b < 16 := code 3 b (by decide)
  have zero : 0 < 16 := by decide
  exact lt (by decide) <| lt (lt (by decide) zero) <| lt (lt (by decide) zero) <| lt (unit _) <| lt (unit _) <| lt (unit _) <| lt zero <|
    lt (code 4 _ (by decide)) <| lt (unit _) <| lt (unit _) <| lt zero <| lt (unit _) <| lt (lt (by decide) zero) <| lt (unit _) (unit _)

/-- The always-on domain and the fabric's are never switched off (R398). -/
theorem State.ne_of_offReason {d : Nat} (h : s.offReason d = 0) : d ≠ 0 ∧ d ≠ 80 := by
  constructor <;> (rintro rfl; exact absurd h (by simp [State.offReason]))

@[simp] theorem State.domainOn_keeps (d : Nat) :
    (s.domainOn d).pending = s.pending ∧ (s.domainOn d).part = s.part ∧ (s.domainOn d).dram = s.dram := by
  unfold State.domainOn
  dsimp only
  split <;> simp

/-- A domain that switches on changes its bit of DOMSTAT, and of the channels' registers no other. -/
theorem State.rd_domainOn {d o : Nat} (h : o < 0x500000) : (s.domainOn d).rd o = (s.put (domStatBit d) 1).rd o := by
  have hne (n : Nat) : o ≠ (F.dmcChStatusSelfref n).off := by simp only [F.dmcChStatusSelfref, Reg.dmcChStatus]; omega
  unfold State.domainOn
  dsimp only
  split
  · simp only [List.foldl_cons, List.foldl_nil, State.rd_put_ne _ _ (hne _)]
  · rfl

@[simp] theorem State.domainOff_keeps (d : Nat) :
    (s.domainOff d).pending = s.pending ∧ (s.domainOff d).part = s.part ∧ (s.domainOff d).dram = s.dram := by
  simp [State.domainOff]

/-- Registers of the domain that switches off have their reset values (R397). -/
theorem State.rd_domainOff {d o : Nat} (h : o < 0x4000000) (hd : domainAt o = d) (ho : 0x100000 ≤ o) (h84 : d < 84) :
    (s.domainOff d).rd o = resetWord s.part o := by
  have hne : o ≠ (domStatBit d).off := by simp only [domStatBit, Reg.pwrDomstat]; omega
  rw [State.domainOff, State.rd_put_ne _ _ hne, State.rd_resetRegs, Nat.mod_eq_of_lt h]
  simp [hd]

theorem State.dombusy_domainOff {d : Nat} (hd : d ≠ 0) : (s.domainOff d).get F.pwrStatusDombusy = s.get F.pwrStatusDombusy := by
  have hne : Reg.pwrStatus ≠ (domStatBit d).off := by simp only [domStatBit, Reg.pwrDomstat, Reg.pwrStatus]; omega
  have hkeep : (domainAt (F.pwrStatusDombusy.off % 0x4000000) != d) = true := by
    rw [show domainAt (F.pwrStatusDombusy.off % 0x4000000) = 0 by decide]
    simpa using hd.symm
  rw [State.domainOff, State.get_put_ne _ _ hne, ← s.dombusy_loseUnit d]
  exact State.get_congr (by rw [State.rd_resetRegs, if_pos hkeep])

/-- Domain `d`'s switch-off is refused: DOMCTL asks for it again, and REFUSE says why (R398). -/
def State.refuseOff (s : State) (d : Nat) : State :=
  (((s.put (domCtlBit d) 1).put F.pwrRefuseReason (s.offReason d)).put F.pwrRefuseDomain d).raise F.pwrEventPwrRefused 933

@[simp] theorem State.refuseOff_keeps (d : Nat) :
    (s.refuseOff d).pending = s.pending ∧ (s.refuseOff d).part = s.part ∧ (s.refuseOff d).dram = s.dram := by
  simp [State.refuseOff]

/-- A refusal changes DOMCTL, REFUSE and the event alone. -/
theorem State.rd_refuseOff {d o : Nat} (ho : o < 0x80000) (hs : o ≠ Reg.pwrStatus) (he : o ≠ Reg.pwrEvent) (hr : o ≠ Reg.pwrRefuse) :
    (s.refuseOff d).rd o = (s.put (domCtlBit d) 1).rd o := by
  rw [State.refuseOff, State.rd_raise_low _ _ he ho hs, State.rd_put_ne _ _ hr, State.rd_put_ne _ _ hr]

theorem State.dombusy_refuseOff (d : Nat) : (s.refuseOff d).get F.pwrStatusDombusy = s.get F.pwrStatusDombusy := by
  have hc : Reg.pwrStatus ≠ (domCtlBit d).off := by simp only [domCtlBit, Reg.pwrDomctl, Reg.pwrStatus]; omega
  have hr : F.pwrStatusDombusy.off ≠ Reg.pwrRefuse := by decide
  rw [State.refuseOff, State.get_raise_status _ _ (by decide) rfl (by decide), State.get_put_ne _ _ hr, State.get_put_ne _ _ hr,
    s.get_put_ne _ hc]

theorem State.refuse_refuseOff {d : Nat} (hd : d < 84) :
    (s.refuseOff d).get F.pwrRefuseReason = s.offReason d ∧ (s.refuseOff d).get F.pwrRefuseDomain = d ∧
      (s.refuseOff d).get F.pwrEventPwrRefused = 1 := by
  have raised (u : State) {f : Fld} (hf : f.off = Reg.pwrRefuse) : (u.raise F.pwrEventPwrRefused 933).get f = u.get f :=
    State.get_congr (u.rd_raise_low _ (by rw [hf]; decide) (by rw [hf]; decide) (by rw [hf]; decide))
  refine ⟨?_, ?_, State.cause_raise _ (by decide) rfl (by decide) (by decide) (by decide)⟩
  · rw [State.refuseOff, raised _ rfl,
      State.get_put_apart _ (f := F.pwrRefuseDomain) (g := F.pwrRefuseReason) _ (by decide) rfl (by decide),
      State.get_put_self _ _ (by decide)]
    exact Nat.mod_eq_of_lt (s.offReason_lt d)
  · rw [State.refuseOff, raised _ rfl, State.get_put_self _ _ (by decide)]
    exact Nat.mod_eq_of_lt (by simp only [F.pwrRefuseDomain]; omega)

/-! ### The commands -/

/-- The state in which a request of DOMCTL is stored: a bit of an absent unit has raised ABSENT_UNIT (R6). -/
def State.absentSeen (s : State) (w : Nat) (v : Word) : State :=
  if (List.range 32).any fun i => bit v.toNat i && 32 * w + i < 84 && !s.part.domainPresent (32 * w + i) then s.signal 950 else s

@[simp] theorem State.absentSeen_keeps (w : Nat) (v : Word) :
    (s.absentSeen w v).pending = s.pending ∧ (s.absentSeen w v).part = s.part := by
  unfold State.absentSeen
  split <;> simp

theorem State.rd_absentSeen (w : Nat) (v : Word) {o : Nat} (ho : o < 0x80000) (hs : o ≠ Reg.pwrStatus) :
    (s.absentSeen w v).rd o = s.rd o := by
  unfold State.absentSeen
  split
  · exact s.rd_signal_low 950 ho hs
  · rfl

theorem State.dombusy_absentSeen (w : Nat) (v : Word) : (s.absentSeen w v).get F.pwrStatusDombusy = s.get F.pwrStatusDombusy := by
  unfold State.absentSeen
  split
  · exact s.get_signal_status 950 rfl (by decide)
  · rfl

/-- ABSENT_UNIT is pending once a bit of an absent unit is written with 1, but in Midnight. -/
theorem State.pending_absentSeen {w : Nat} {v : Word}
    (h : ∃ i < 32, v.getLsbD i = true ∧ 32 * w + i < 84 ∧ s.part.domainPresent (32 * w + i) = false)
    (hm : s.get F.pwrStatusState ≠ 3) :
    (s.absentSeen w v).get ⟨Reg.icuPending 29, 22, 1⟩ = 1 := by
  obtain ⟨i, hi, hv, hd, hp⟩ := h
  have hb : bit v.toNat i = true := by rw [bit_eq_testBit]; exact hv
  rw [State.absentSeen, if_pos (List.any_eq_true.2 ⟨i, List.mem_range.2 hi, by simp [hb, hd, hp]⟩)]
  exact s.pending_signal (n := 950) (by decide) (by decide) (.inl hm)

/-- A request stored in DOMCTL, once a bit of an absent unit has been seen. -/
def State.storeRequest (s : State) (w : Nat) (v : Word) : State :=
  (s.absentSeen w v).wr (Reg.pwrDomctl w) (v &&& BitVec.ofNat 32 (domReset s.part w))

@[simp] theorem State.storeRequest_keeps (w : Nat) (v : Word) :
    (s.storeRequest w v).pending = s.pending ∧ (s.storeRequest w v).part = s.part := by
  simp [State.storeRequest]

theorem State.rd_storeRequest (w : Nat) (v : Word) {o : Nat} (h : o ≠ Reg.pwrDomctl w) :
    (s.storeRequest w v).rd o = (s.absentSeen w v).rd o := State.rd_wr_ne _ _ h

theorem State.dombusy_storeRequest (w : Nat) (v : Word) :
    (s.storeRequest w v).flag F.pwrStatusDombusy = s.flag F.pwrStatusDombusy := by
  have hne : Reg.pwrStatus ≠ Reg.pwrDomctl w := by simp only [Reg.pwrDomctl, Reg.pwrStatus]; omega
  rw [State.flag, State.flag, State.get_congr (s.rd_storeRequest w v hne), s.dombusy_absentSeen w v]

theorem State.domOn_storeRequest (w : Nat) (v : Word) {k : Nat} (hk : k < 84) (hw : w < 3) : (s.storeRequest w v).domOn k = s.domOn k := by
  have hne : Reg.pwrDomstat (k / 32) ≠ Reg.pwrDomctl w := by simp only [Reg.pwrDomstat, Reg.pwrDomctl]; omega
  exact State.domOn_congr ((s.rd_storeRequest w v hne).trans (s.rd_absentSeen w v (by simp only [Reg.pwrDomstat]; omega)
    (by simp only [Reg.pwrDomstat, Reg.pwrStatus]; omega)))

/-- A request is stored, and DOMBUSY follows. -/
theorem effDomctl_eq (w : Nat) (v : Word) : effDomctl w v s = (s.storeRequest w v).settleDomains := by
  rw [State.storeRequest, ← (s.absentSeen_keeps w v).2]
  rfl

/-- DOMAIN_REQUEST (R6, R396, R397). -/
theorem domainRequest_gives {a w : Nat} {v : Word} (hw : w < 3) (h : s.writes a (Reg.pwrDomctl w)) :
    Gives (exec (.domainRequest a w v) s) fun t =>
      t.rd (Reg.pwrDomctl w) = v &&& BitVec.ofNat 32 (domReset s.part w) ∧ (∀ k < 84, t.domOn k = s.domOn k) ∧
      t.flag F.pwrStatusDombusy = !t.domChanges.isEmpty ∧
      (s.flag F.pwrStatusDombusy = true → t.domChanges = [] → t.get F.pwrEventPwrDomain = 1) ∧
      ((∃ i < 32, v.getLsbD i = true ∧ 32 * w + i < 84 ∧ s.part.domainPresent (32 * w + i) = false) →
        s.get F.pwrStatusState ≠ 3 → t.get ⟨Reg.icuPending 29, 22, 1⟩ = 1) := by
  have he : exec (.domainRequest a w v) s = s.done (s.storeRequest w v).settleDomains := by
    rw [← effDomctl_eq, ← State.guardWrite_ok h (effDomctl w v) id]
    exact congrArg s.done (if_neg (Nat.not_le.2 hw))
  have hs : Reg.pwrDomctl w ≠ Reg.pwrStatus := by simp only [Reg.pwrDomctl, Reg.pwrStatus]; omega
  have hev : Reg.pwrDomctl w ≠ Reg.pwrEvent := by simp only [Reg.pwrDomctl, Reg.pwrEvent]; omega
  have hlow : Reg.pwrDomctl w < 0x80000 := by simp only [Reg.pwrDomctl]; omega
  rw [he]
  refine State.done_gives (by simp) (by simp) ⟨?_, fun k hk => ?_, ?_, fun hb hc => ?_, fun hx hm => ?_⟩
  · exact (State.rd_settleDomains _ hs hev (.inl hlow)).trans (State.rd_wr_self _ _ _)
  · rw [State.domOn_settleDomains _ hk, s.domOn_storeRequest w v hk hw]
  · rw [State.domChanges_settleDomains, State.dombusy_settleDomains]
  · rw [State.domChanges_settleDomains] at hc
    exact State.pwrDomain_settleDomains _ ((s.dombusy_storeRequest w v).trans hb) hc
  · have hne : Reg.icuPending 29 ≠ Reg.pwrDomctl w := by simp only [Reg.icuPending, Reg.pwrDomctl]; omega
    refine State.pending_settleDomains _ (by decide) (by decide) ?_
    exact (State.get_congr (s.rd_storeRequest w v hne)).trans (s.pending_absentSeen hx hm)

/-- What DOMAIN_CHANGE does with the change it finds (R397, R398). -/
def State.makeChange (s : State) (d : Nat) : State :=
  if s.domWanted d then s.domainOn d else if s.offReason d ≠ 0 then s.refuseOff d else s.domainOff d

@[simp] theorem State.makeChange_keeps (d : Nat) :
    (s.makeChange d).pending = s.pending ∧ (s.makeChange d).part = s.part ∧ (s.makeChange d).dram = s.dram := by
  unfold State.makeChange
  repeat' split
  all_goals simp

theorem State.dombusy_makeChange (d : Nat) : (s.makeChange d).flag F.pwrStatusDombusy = s.flag F.pwrStatusDombusy := by
  have hne : Reg.pwrStatus ≠ (domStatBit d).off := by simp only [domStatBit, Reg.pwrDomstat, Reg.pwrStatus]; omega
  have hget : (s.makeChange d).get F.pwrStatusDombusy = s.get F.pwrStatusDombusy := by
    unfold State.makeChange
    split
    · exact State.get_congr ((s.rd_domainOn (by decide)).trans (s.rd_put_ne _ hne))
    · split
      · exact s.dombusy_refuseOff d
      · next h => exact s.dombusy_domainOff (s.ne_of_offReason (Decidable.not_not.1 h)).1
  rw [State.flag, State.flag, hget]

theorem State.domOn_domainOn {d : Nat} (hd : d < 84) : (s.domainOn d).domOn d = true :=
  (State.domOn_congr (s.rd_domainOn (by simp only [Reg.pwrDomstat]; omega))).trans (s.domOn_put_self d 1)

theorem State.domWanted_refuseOff {d : Nat} (hd : d < 84) : (s.refuseOff d).domWanted d = true :=
  (State.domWanted_congr (s.rd_refuseOff (by simp only [Reg.pwrDomctl]; omega) (by simp only [Reg.pwrDomctl, Reg.pwrStatus]; omega)
    (by simp only [Reg.pwrDomctl, Reg.pwrEvent]; omega) (by simp only [Reg.pwrDomctl, Reg.pwrRefuse]; omega))).trans
    (s.domWanted_put_self d 1)

theorem State.domOn_refuseOff {d : Nat} (hd : d < 84) : (s.refuseOff d).domOn d = s.domOn d :=
  State.domOn_congr ((s.rd_refuseOff (by simp only [Reg.pwrDomstat]; omega) (by simp only [Reg.pwrDomstat, Reg.pwrStatus]; omega)
    (by simp only [Reg.pwrDomstat, Reg.pwrEvent]; omega) (by simp only [Reg.pwrDomstat, Reg.pwrRefuse]; omega)).trans
    (s.rd_put_ne _ (by simp only [domCtlBit, Reg.pwrDomstat, Reg.pwrDomctl]; omega)))

theorem State.domOn_domainOff (d : Nat) : (s.domainOff d).domOn d = false := State.domOn_put_self _ d 0

/-- DOMAIN_CHANGE with a change that can be made or refused (R397, R398). -/
theorem domainChange_gives {d : Nat} (hw : s.takesWork = true) (ht : s.pwr.tripped = false)
    (hf : (s.domChanges.find? fun d => s.domWanted d || s.offReason d != 0 || !s.offDeferred d) = some d) :
    exec .domainChange s = .next (s.makeChange d).settleDomains := by
  have he : effDomainChange s = (s.makeChange d).settleDomains := by
    simp only [effDomainChange, hw, ht, hf]
    rfl
  exact (congrArg s.done he).trans (State.done_eq (by simp) (by simp))

theorem domainChange_none (hw : s.takesWork = true) (ht : s.pwr.tripped = false)
    (hf : (s.domChanges.find? fun d => s.domWanted d || s.offReason d != 0 || !s.offDeferred d) = none) :
    exec .domainChange s = .next s.settleDomains := by
  have he : effDomainChange s = s.settleDomains := by
    simp only [effDomainChange, hw, ht, hf]
    rfl
  exact (congrArg s.done he).trans (State.done_eq (by simp) (by simp))

theorem domainChange_idle (h : s.takesWork = false ∨ s.pwr.tripped = true) : exec .domainChange s = .next s := by
  have he : effDomainChange s = s := if_pos (by simpa using h)
  exact (congrArg s.done he).trans (State.done_eq rfl rfl)

end Sys2Proof.Machine
end

section
namespace Sys2Proof.Machine

/-- Settles O45: a request by `effDomctl`, a change by the three outcomes of `makeChange`, each followed by `settleDomains`. -/
theorem powerDomainsChange : Obligations.PowerDomainsChange := by
  intro s a w d v
  refine ⟨domainRequest_gives s, fun hw => ?_, domainChange_idle s, fun hw ht hf => ?_, fun hw ht hf => ?_⟩
  · exact (congrArg s.done (if_pos hw)).trans (State.done_eq rfl rfl)
  · exact ⟨_, domainChange_none s hw ht hf, s.dombusy_settleDomains,
      fun k hk => ⟨s.domOn_settleDomains hk, s.domWanted_settleDomains hk⟩, s.pwrDomain_settleDomains⟩
  · obtain ⟨h84, hon⟩ := State.mem_domChanges (List.mem_of_find?_eq_some hf)
    refine ⟨_, domainChange_gives s hw ht hf, ?_, fun hb hc => ?_, by simp, fun h => ?_, fun h hr => ?_, fun h hr => ?_⟩
    · rw [State.domChanges_settleDomains, State.dombusy_settleDomains]
    · rw [State.domChanges_settleDomains] at hc
      exact State.pwrDomain_settleDomains _ ((s.dombusy_makeChange d).trans hb) hc
    · rw [State.domOn_settleDomains _ h84, State.makeChange, if_pos h, s.domOn_domainOn h84]
    · have hm : s.makeChange d = s.refuseOff d := by simp [State.makeChange, h, hr]
      have same {f : Fld} (hf : f.off = Reg.pwrRefuse) : (s.refuseOff d).settleDomains.get f = (s.refuseOff d).get f :=
        State.get_congr (State.rd_settleDomains _ (by rw [hf]; decide) (by rw [hf]; decide) (by rw [hf]; decide))
      obtain ⟨hreason, hdom, hev⟩ := s.refuse_refuseOff h84
      rw [hm, State.domOn_settleDomains _ h84, State.domWanted_settleDomains _ h84, same rfl, same rfl, State.pwrRefused_settleDomains]
      exact ⟨by rw [s.domOn_refuseOff h84, hon, h]; rfl, s.domWanted_refuseOff h84, hreason, hdom, hev⟩
    · have hm : s.makeChange d = s.domainOff d := by simp [State.makeChange, h, hr]
      obtain ⟨h0, h80⟩ := s.ne_of_offReason hr
      rw [hm, State.domOn_settleDomains _ h84]
      refine ⟨s.domOn_domainOff d, fun o ho hd => ?_⟩
      have hle := le_of_domainAt (hd ▸ h0) (hd ▸ h80)
      rw [State.rd_settleDomains _ (by simp only [Reg.pwrStatus]; omega) (by simp only [Reg.pwrEvent]; omega) (.inr (by omega)),
        s.rd_domainOff ho hd hle h84]

end Sys2Proof.Machine
end
